-- ==== Sys2Proof/Word.lean ====
section
/-! DEFINITION. The widths the spec counts in: bytes and 16-bit words (00_scope.md "Numbers, words and ranges"),
cycle numbers and frame checks of 32 bits (R5, R12), station numbers of 6 bits (R1). -/

namespace Sys2Proof

abbrev Byte := BitVec 8

/-- A word is 16 bits (00_scope.md, Conventions). -/
abbrev Word := BitVec 16

/-- A cycle number: 32 bits, wrapping (R5). -/
abbrev Cycle := BitVec 32

/-- A frame check (R3, 12.1). -/
abbrev Fcs := BitVec 32

/-- A station number as a one-byte field carries it, in bits 5:0 (R169): 0 to 62, and 63 (R1). -/
abbrev Station := BitVec 6

end Sys2Proof
end

