-- ==== Sys2Proof/Config.lean ====
section
/-! DEFINITION. What the part fixes for itself: its identity word; and the one value the spec leaves open. -/

namespace Sys2Proof

/-- The part identity that IDENTIFY returns (12.2, command 01h). -/
def Config.partIdentity : Word := 0x6402#16

/-- Free value. R120 gives "the milliseconds remaining" of an idle timer that counts in finer steps and does not say
how a part of a millisecond is rounded: `msRoundsUp us` says whether `us` remaining microseconds that are no whole
number of milliseconds are rounded up. It has no body, so nothing can be proved of its value (assumption log 13). -/
opaque Config.msRoundsUp : Nat → Bool

end Sys2Proof
end

