-- ==== Sys2Proof/Syntax.lean ====
section
/-! DEFINITION. The frames of the ring (R5 to R11, 12.1), the management requests (12.2) and the commands the tap takes:
one constructor of `Instr` per row of spec/opcode_table.json.

Every command begins with `dt`, the microseconds that have passed since the command before it (assumption log 1).
Fields of a frame are held as they are sent: a byte field is a byte whatever its value. -/

namespace Sys2Proof

/-- A tap's two ports (R2). -/
inductive Port where
  | w
  | e
  deriving DecidableEq, Repr

/-- The body of a HEADER frame (R5). `turn` is the whole byte; bits 1:0 are the turn count (R169). -/
structure HeaderFrame where
  cycle : Cycle
  period : Word
  blocks : Byte
  containers : Byte
  turn : Byte
  epoch : Byte
  deriving DecidableEq, Repr

/-- The body of a BLOCK frame (R7). Flag s of a write map is bit s. -/
structure BlockFrame where
  number : Byte
  thisMap : BitVec 64
  lastMap : BitVec 64
  words : Vector Word 32
  deriving DecidableEq, Repr

/-- The body of a CONTAINER frame (R8): `state` and `refused` are whole bytes, of which bit 0 is read (R169). -/
structure ContainerFrame where
  index : Byte
  dest : Byte
  state : Byte
  flight : Byte
  refused : Byte
  source : Byte
  cls : Byte
  tag : Byte
  length : Byte
  payload : Vector Byte 96
  deriving DecidableEq, Repr

/-- The two bytes of a roll entry (12.1). -/
structure RollEntry where
  station : Byte
  status : Byte
  deriving DecidableEq, Repr

/-- The body of a ROLL frame (R9). -/
structure RollFrame where
  closedCount : Byte
  closed : List RollEntry
  openCount : Byte
  slots : Vector RollEntry 63
  deriving DecidableEq, Repr

/-- The body of an ECHO frame (R10): direction 00h is REQUEST, 01h is REPLY. -/
structure EchoFrame where
  direction : Byte
  seq : Byte
  pattern : Vector Byte 32
  deriving DecidableEq, Repr

/-- A frame whose kind byte names no kind (R11). -/
structure UnknownFrame where
  kind : Byte
  body : List Byte
  deriving DecidableEq, Repr

/-- A frame: its kind and body (R3). -/
inductive Frame where
  | header (f : HeaderFrame)
  | block (f : BlockFrame)
  | container (f : ContainerFrame)
  | roll (f : RollFrame)
  | echo (f : EchoFrame)
  | unknown (f : UnknownFrame)
  deriving DecidableEq, Repr

/-- What of a frame has arrived when it begins to arrive: its kind, the turn count of a HEADER and the block number of
a BLOCK, the fields the tap acts on before the frame has ended (R75, R143); or, later, the open count of a ROLL (R125). -/
inductive Lead where
  | header (turn : BitVec 2)
  | block (number : Byte)
  | container
  | roll
  | openCount
  | echo
  | unknown
  deriving DecidableEq, Repr

/-- What a port recognises the far end to be sending (R135). -/
inductive FarSignal where
  | idle
  | wait
  | fault
  deriving DecidableEq, Repr

/-- A management request: the command and its operand bytes (12.2). -/
inductive Request where
  | identify
  | readStatus
  | readCounters (group : Byte)
  | clearCounters (group : Byte)
  | readCensus (first count : Byte)
  | readSubscriptionState (first count : Byte)
  | readEntry (set table index : Byte)
  | openEdit (setId : Word)
  | stageEntry (table index : Byte) (entry : Vector Byte 8)
  | clearStaged (table : Byte)
  | commit (mode epoch : Byte)
  | abandonEdit
  | queryEdit
  | halt
  | resume
  | returnWrap (port : Byte)
  | pulse (channel : Byte)
  | restart
  | segmentTestStart (port count : Byte)
  | segmentTestResult
  deriving DecidableEq, Repr

/-- The commands, one per row of spec/opcode_table.json.

A frame command gives the port that received the frame, the frame, and its received check: `none` where the frame
ended before its kind, body and check were complete (R3, R12). -/
inductive Instr where
  -- frames
  | header (dt : Nat) (p : Port) (f : HeaderFrame) (fcs : Option Fcs)
  | block (dt : Nat) (p : Port) (f : BlockFrame) (fcs : Option Fcs)
  | container (dt : Nat) (p : Port) (f : ContainerFrame) (fcs : Option Fcs)
  | roll (dt : Nat) (p : Port) (f : RollFrame) (fcs : Option Fcs)
  | echo (dt : Nat) (p : Port) (f : EchoFrame) (fcs : Option Fcs)
  | unknownKind (dt : Nat) (p : Port) (f : UnknownFrame) (fcs : Option Fcs)
  -- tracker timers
  | gapTimerExpiry (dt : Nat)
  | trainTimerExpiry (dt : Nat)
  -- port units and lane switch
  | lockLost (dt : Nat) (p : Port)
  | lockGained (dt : Nat) (p : Port)
  | farEndRecognised (dt : Nat) (p : Port) (sig : FarSignal)
  | downHoldExpiry (dt : Nat) (p : Port)
  | qualificationComplete (dt : Nat) (p : Port)
  | returnToService (dt : Nat) (p : Port)
  | echoTransmitStart (dt : Nat) (p : Port)
  | echoReplySent (dt : Nat) (p : Port)
  | echoRequestSent (dt : Nat) (p : Port)
  | echoWaitExpiry (dt : Nat)
  -- management timer
  | sessionIdleExpiry (dt : Nat)
  -- pins
  | stopRise (dt : Nat)
  | stopFall (dt : Nat)
  | triggerPinChange (dt : Nat) (k : Fin 8) (level : Bool)
  | trigOutFall (dt : Nat) (k : Fin 8)
  | pulseEnd (dt : Nat) (c : Fin 12)
  -- restarts
  | powerOn (dt : Nat)
  | powerSettled (dt : Nat)
  | rstNLow (dt : Nat)
  | rstNHigh (dt : Nat)
  | remoteRestartBegin (dt : Nat)
  | bypassHoldExpiry (dt : Nat) (straps : Station)
  -- local port: `words` is how many words the local equipment clocks out now; `command` is none, and `address` is not read,
  -- where the select is held from before and no command byte comes (assumption log 15)
  | lspTransactionStart (dt : Nat) (command : Option Byte) (address : Word) (words : Nat)
  | lspSelectRelease (dt : Nat) (words : Nat)
  | publishWindowWrite (dt : Nat) (p : Fin 4) (w : Fin 128) (value : Word)
  | bankControlWrite (dt : Nat) (b : Fin 8) (value : Word)
  | mailboxWrite (dt : Nat) (m : Fin 8) (w : Fin 50) (value : Word)
  | attentionMaskWrite (dt : Nat) (value : Word)
  | lspIgnoredWrite (dt : Nat) (address : Word)
  -- local actions: `operand` is bits 11:0 of the action word (12.3)
  | take (dt : Nat) (operand : BitVec 12)
  | post (dt : Nat) (operand : BitVec 12)
  | send (dt : Nat) (operand : BitVec 12)
  | cancel (dt : Nat) (operand : BitVec 12)
  | clear (dt : Nat) (operand : BitVec 12)
  | release (dt : Nat)
  | popStamp (dt : Nat)
  | clearCauses (dt : Nat) (operand : BitVec 12)
  | localRestart (dt : Nat)
  | badAction (dt : Nat) (code : BitVec 4)
  -- management requests: the sender and the tag of the container, then the operands
  | identify (dt : Nat) (source : Station) (tag : Byte)
  | readStatus (dt : Nat) (source : Station) (tag : Byte)
  | readCounters (dt : Nat) (source : Station) (tag : Byte) (group : Byte)
  | clearCounters (dt : Nat) (source : Station) (tag : Byte) (group : Byte)
  | readCensus (dt : Nat) (source : Station) (tag : Byte) (first count : Byte)
  | readSubscriptionState (dt : Nat) (source : Station) (tag : Byte) (first count : Byte)
  | readEntry (dt : Nat) (source : Station) (tag : Byte) (set table index : Byte)
  | openEdit (dt : Nat) (source : Station) (tag : Byte) (setId : Word)
  | stageEntry (dt : Nat) (source : Station) (tag : Byte) (table index : Byte) (entry : Vector Byte 8)
  | clearStaged (dt : Nat) (source : Station) (tag : Byte) (table : Byte)
  | commit (dt : Nat) (source : Station) (tag : Byte) (mode epoch : Byte)
  | abandonEdit (dt : Nat) (source : Station) (tag : Byte)
  | queryEdit (dt : Nat) (source : Station) (tag : Byte)
  | halt (dt : Nat) (source : Station) (tag : Byte)
  | resume (dt : Nat) (source : Station) (tag : Byte)
  | returnWrap (dt : Nat) (source : Station) (tag : Byte) (port : Byte)
  | pulse (dt : Nat) (source : Station) (tag : Byte) (channel : Byte)
  | restart (dt : Nat) (source : Station) (tag : Byte)
  | segmentTestStart (dt : Nat) (source : Station) (tag : Byte) (port count : Byte)
  | segmentTestResult (dt : Nat) (source : Station) (tag : Byte)
  | badCommand (dt : Nat) (source : Station) (tag : Byte) (payload : List Byte)
  -- the beginning of a frame
  | frameBeginsToArrive (dt : Nat) (p : Port) (lead : Lead)
  deriving DecidableEq, Repr

end Sys2Proof
end

