-- ==== Sys2Proof/Decode.lean ====
section
/-! DEFINITION. The wire layouts of 12.1 and 12.2: the bytes of a frame and the frame of some bytes, the frame check
(12.1, R169), the request of a container's payload and its payload. No row of spec/opcode_table.json gives bits, so
`decodeTableWord` answers none for every word. -/

namespace Sys2Proof

/-! ### Byte order: most significant byte first (12, first paragraph) -/

def be16 (x : Word) : List Byte := [x.extractLsb' 8 8, x.extractLsb' 0 8]

def be32 (x : BitVec 32) : List Byte :=
  [x.extractLsb' 24 8, x.extractLsb' 16 8, x.extractLsb' 8 8, x.extractLsb' 0 8]

def word16 (hi lo : Byte) : Word := hi ++ lo

def word32 (a b c d : Byte) : BitVec 32 := a ++ b ++ c ++ d

/-- A write map as sent: flag s in byte s div 8, bit s mod 8 (12.1). -/
def mapBytes (m : BitVec 64) : List Byte := (List.range 8).map fun j => m.extractLsb' (8 * j) 8

/-- The write map whose eight bytes begin at offset `k` of the list. -/
def mapAt (l : List Byte) (k : Nat) : BitVec 64 :=
  l.getD (k + 7) 0 ++ l.getD (k + 6) 0 ++ l.getD (k + 5) 0 ++ l.getD (k + 4) 0 ++ l.getD (k + 3) 0 ++ l.getD (k + 2) 0 ++
    l.getD (k + 1) 0 ++ l.getD k 0

def RollEntry.bytes (x : RollEntry) : List Byte := [x.station, x.status]

/-- The kind and body of a frame in wire order (12.1). -/
def Frame.bytes : Frame → List Byte
  | .header f => [0x01#8] ++ be32 f.cycle ++ be16 f.period ++ [f.blocks, f.containers, f.turn, f.epoch]
  | .block f => [0x02#8, f.number] ++ mapBytes f.thisMap ++ mapBytes f.lastMap ++ f.words.toList.flatMap be16
  | .container f =>
    [0x03#8, f.index, f.dest, f.state, f.flight, f.refused, f.source, f.cls, f.tag, f.length] ++ f.payload.toList
  | .roll f =>
    [0x04#8, f.closedCount] ++ f.closed.flatMap RollEntry.bytes ++ [f.openCount] ++ f.slots.toList.flatMap RollEntry.bytes
  | .echo f => [0x05#8, f.direction, f.seq] ++ f.pattern.toList
  | .unknown f => f.kind :: f.body

/-- The `n` roll entries that begin at offset `k` of the list. -/
def entriesAt (l : List Byte) (k n : Nat) : List RollEntry :=
  (List.range n).map fun i => ⟨l.getD (k + 2 * i) 0, l.getD (k + 2 * i + 1) 0⟩

def parseHeader : List Byte → Option HeaderFrame
  | [c3, c2, c1, c0, p1, p0, b, c, t, e] => some ⟨word32 c3 c2 c1 c0, word16 p1 p0, b, c, t, e⟩
  | _ => none

def parseBlock : List Byte → Option BlockFrame
  | [] => none
  | n :: l =>
    if l.length = 80 then
      some ⟨n, mapAt l 0, mapAt l 8, Vector.ofFn fun i => word16 (l.getD (16 + 2 * i.val) 0) (l.getD (17 + 2 * i.val) 0)⟩
    else none

def parseContainer : List Byte → Option ContainerFrame
  | i :: d :: s :: g :: r :: o :: c :: t :: n :: l =>
    if l.length = 96 then some ⟨i, d, s, g, r, o, c, t, n, Vector.ofFn fun k => l.getD k.val 0⟩ else none
  | _ => none

/-- The open part of a ROLL is its last 127 bytes (12.1: the open count and 63 slots of two bytes); the closed entries stand
before it, as many as the closed count says where that is 63 or less (R9). -/
def parseRoll : List Byte → Option RollFrame
  | [] => none
  | cc :: l =>
    let m := (l.length - 127) / 2
    if l.length = 127 + 2 * m ∧ (cc.toNat ≤ 63 → m = cc.toNat) then
      some ⟨cc, entriesAt l 0 m, l.getD (2 * m) 0,
        Vector.ofFn fun i => ⟨l.getD (2 * m + 1 + 2 * i.val) 0, l.getD (2 * m + 2 + 2 * i.val) 0⟩⟩
    else none

def parseEcho : List Byte → Option EchoFrame
  | d :: q :: l => if l.length = 32 then some ⟨d, q, Vector.ofFn fun k => l.getD k.val 0⟩ else none
  | _ => none

/-- The frame that some bytes of kind and body spell (R169); none where a known kind's body has not its length. -/
def Frame.parse : List Byte → Option Frame
  | [] => none
  | kind :: l =>
    if kind = 0x01#8 then (parseHeader l).map .header
    else if kind = 0x02#8 then (parseBlock l).map .block
    else if kind = 0x03#8 then (parseContainer l).map .container
    else if kind = 0x04#8 then (parseRoll l).map .roll
    else if kind = 0x05#8 then (parseEcho l).map .echo
    else some (.unknown ⟨kind, l⟩)

/-- What of a frame the tap acts on before the frame's end. -/
def Frame.lead : Frame → Lead
  | .header f => .header (f.turn.extractLsb' 0 2)
  | .block f => .block f.number
  | .container _ => .container
  | .roll _ => .roll
  | .echo _ => .echo
  | .unknown _ => .unknown

/-! ### The frame check -/

/-- The generator polynomial (12.1). -/
def crcPoly : Fcs := 0x1EDC6F41#32

def crcBit (r : Fcs) (b : Bool) : Fcs :=
  if (r.msb ^^ b) then (r <<< 1) ^^^ crcPoly else r <<< 1

/-- One byte into the register, most significant bit first, no reflection (12.1). -/
def crcByte (r : Fcs) (b : Byte) : Fcs :=
  [7, 6, 5, 4, 3, 2, 1, 0].foldl (fun r i => crcBit r (b.getLsbD i)) r

/-- The 32-bit check over kind and body: register from all ones, result inverted in every bit (12.1). -/
def frameCheck (l : List Byte) : Fcs := ~~~(l.foldl crcByte (BitVec.allOnes 32))

/-- The check a good frame with these contents carries (R12, R13). -/
def Frame.check (f : Frame) : Fcs := frameCheck f.bytes

/-- The three outcomes of a received check (R12). -/
inductive Check where
  | good
  | stomped
  | bad
  deriving DecidableEq, Repr

/-- R12's table: good where the received check is the computed one, stomped where it is that inverted in every bit, bad
otherwise; a frame that ended early has no check and is bad. -/
def Frame.outcome (f : Frame) : Option Fcs → Check
  | none => .bad
  | some c => if c = f.check then .good else if c = ~~~f.check then .stomped else .bad

/-! ### Requests -/

/-- The command code of a request (12.2). -/
def Request.code : Request → Byte
  | .identify => 0x01#8
  | .readStatus => 0x02#8
  | .readCounters _ => 0x03#8
  | .clearCounters _ => 0x04#8
  | .readCensus _ _ => 0x05#8
  | .readSubscriptionState _ _ => 0x06#8
  | .readEntry _ _ _ => 0x07#8
  | .openEdit _ => 0x10#8
  | .stageEntry _ _ _ => 0x11#8
  | .clearStaged _ => 0x12#8
  | .commit _ _ => 0x13#8
  | .abandonEdit => 0x14#8
  | .queryEdit => 0x15#8
  | .halt => 0x20#8
  | .resume => 0x21#8
  | .returnWrap _ => 0x22#8
  | .pulse _ => 0x23#8
  | .restart => 0x24#8
  | .segmentTestStart _ _ => 0x30#8
  | .segmentTestResult => 0x31#8

/-- The operand bytes of a request (12.2). -/
def Request.operands : Request → List Byte
  | .readCounters g => [g]
  | .clearCounters g => [g]
  | .readCensus f c => [f, c]
  | .readSubscriptionState f c => [f, c]
  | .readEntry s t i => [s, t, i]
  | .openEdit id => be16 id
  | .stageEntry t i x => t :: i :: x.toList
  | .clearStaged t => [t]
  | .commit m e => [m, e]
  | .returnWrap p => [p]
  | .pulse c => [c]
  | .segmentTestStart p n => [p, n]
  | .identify => []
  | .readStatus => []
  | .abandonEdit => []
  | .queryEdit => []
  | .halt => []
  | .resume => []
  | .restart => []
  | .segmentTestResult => []

/-- A request as a container's payload carries it (R106). -/
def Request.payload (r : Request) : List Byte := r.code :: r.operands

/-- The request a payload spells, bytes beyond the operands ignored; none where it is answered BAD_COMMAND: an empty
payload, a code that names no command, too few operand bytes (R106). COMMIT takes mode and epoch, as laid out in 12.2,
for either mode (assumption log 12). -/
def Request.decode (l : List Byte) : Option Request :=
  match l with
  | [] => none
  | code :: ops =>
    let b := fun i => ops.getD i 0
    let need := fun (n : Nat) (r : Request) => if n ≤ ops.length then some r else none
    if code = 0x01#8 then some .identify
    else if code = 0x02#8 then some .readStatus
    else if code = 0x03#8 then need 1 (.readCounters (b 0))
    else if code = 0x04#8 then need 1 (.clearCounters (b 0))
    else if code = 0x05#8 then need 2 (.readCensus (b 0) (b 1))
    else if code = 0x06#8 then need 2 (.readSubscriptionState (b 0) (b 1))
    else if code = 0x07#8 then need 3 (.readEntry (b 0) (b 1) (b 2))
    else if code = 0x10#8 then need 2 (.openEdit (word16 (b 0) (b 1)))
    else if code = 0x11#8 then need 10 (.stageEntry (b 0) (b 1) (Vector.ofFn fun k => b (k.val + 2)))
    else if code = 0x12#8 then need 1 (.clearStaged (b 0))
    else if code = 0x13#8 then need 2 (.commit (b 0) (b 1))
    else if code = 0x14#8 then some .abandonEdit
    else if code = 0x15#8 then some .queryEdit
    else if code = 0x20#8 then some .halt
    else if code = 0x21#8 then some .resume
    else if code = 0x22#8 then need 1 (.returnWrap (b 0))
    else if code = 0x23#8 then need 1 (.pulse (b 0))
    else if code = 0x24#8 then some .restart
    else if code = 0x30#8 then need 2 (.segmentTestStart (b 0) (b 1))
    else if code = 0x31#8 then some .segmentTestResult
    else none

/-- The command a word of the table's bits spells. No row of the table gives bits, so none. -/
def decodeTableWord (_nbits _w : Nat) : Option Instr := none

end Sys2Proof
end

