-- ==== Sys2Proof/Machine/AddressMap.lean ====
section
/-! DEFINITION. The address map of the local port (R162, 12.3): the region of an address, how a burst's address moves on
(R161), and the command that a word written at an address is. -/

namespace Sys2Proof.Machine

/-- Where an address of the local port lies, with the word within the region (R162, 12.3). -/
inductive Region where
  | status (i : Nat)
  | censusHead (i : Fin 3)
  | census (s : Fin 63) (i : Fin 6)
  | rxWindow (b : Fin 8) (w : Fin 128)
  | bankControl (b : Fin 8)
  | pubWindow (p : Fin 4) (w : Fin 128)
  | mailbox (m : Fin 8) (i : Nat)
  | inbound (i : Nat)
  | stamp (i : Nat)
  | mask
  | action
  | unmapped
  deriving DecidableEq, Repr

/-- The map of 12.3. A mailbox window is 55 words (0 to 54), the inbound window 54, the stamp window 5; the words between
the regions are "any other address" (R162). -/
def region (a : Word) : Region :=
  let n := a.toNat
  if n < 0x100 then .status n
  else if n < 0x103 then .censusHead (Fin.ofNat 3 (n - 0x100))
  else if n < 0x104 then .unmapped
  else if n < 0x27E then .census (Fin.ofNat 63 ((n - 0x104) / 6)) (Fin.ofNat 6 ((n - 0x104) % 6))
  else if n < 0x1000 then .unmapped
  else if n < 0x1400 then .rxWindow (Fin.ofNat 8 ((n - 0x1000) / 128)) (Fin.ofNat 128 (n % 128))
  else if n < 0x1408 then .bankControl (Fin.ofNat 8 (n - 0x1400))
  else if n < 0x2000 then .unmapped
  else if n < 0x2200 then .pubWindow (Fin.ofNat 4 ((n - 0x2000) / 128)) (Fin.ofNat 128 (n % 128))
  else if n < 0x3000 then .unmapped
  else if n < 0x3200 then
    if n % 64 < 55 then .mailbox (Fin.ofNat 8 ((n - 0x3000) / 64)) (n % 64) else .unmapped
  else if n < 0x3236 then .inbound (n - 0x3200)
  else if n < 0x3280 then .unmapped
  else if n < 0x3285 then .stamp (n - 0x3280)
  else if n < 0x3300 then .unmapped
  else if n < 0x3301 then .mask
  else if n < 0x3302 then .action
  else .unmapped

def actionAddress : Word := 0x3301#16

def pubAddress (p : Fin 4) (w : Fin 128) : Word := BitVec.ofNat 16 (0x2000 + 128 * p.val + w.val)

def controlAddress (b : Fin 8) : Word := BitVec.ofNat 16 (0x1400 + b.val)

def mailboxAddress (m : Fin 8) (i : Nat) : Word := BitVec.ofNat 16 (0x3000 + 64 * m.val + i)

def maskAddress : Word := 0x3300#16

/-- The address after one word (R161): within a receive or publish window it wraps from the bank's word 127 to its word
0, at the action word it does not move on, elsewhere it moves on through the map and wraps from 65535 to 0. -/
def nextAddress (a : Word) : Word :=
  match region a with
  | .rxWindow _ w => if w.val = 127 then a - 127 else a + 1
  | .pubWindow _ w => if w.val = 127 then a - 127 else a + 1
  | .action => a
  | _ => a + 1

/-- Whether a word written at this address is ignored with a local port error in any state (R162). -/
def ignoresWrites (a : Word) : Bool :=
  match region a with
  | .bankControl _ => false
  | .pubWindow _ _ => false
  | .mailbox _ i => decide (50 ≤ i)
  | .mask => false
  | .action => false
  | _ => true

/-- The local action an action word names: code in bits 15:12, operand in bits 11:0 (12.3, R164). -/
def actionInstr (dt : Nat) (x : Word) : Instr :=
  let code := x.extractLsb' 12 4
  let operand := x.extractLsb' 0 12
  if code = 1#4 then .take dt operand
  else if code = 2#4 then .post dt operand
  else if code = 3#4 then .send dt operand
  else if code = 4#4 then .cancel dt operand
  else if code = 5#4 then .clear dt operand
  else if code = 6#4 then .release dt
  else if code = 7#4 then .popStamp dt
  else if code = 8#4 then .clearCauses dt operand
  else if code = 9#4 then .localRestart dt
  else .badAction dt code

/-- The command that a word written at an address is (R162). -/
def writeInstr (dt : Nat) (a x : Word) : Instr :=
  match region a with
  | .bankControl b => .bankControlWrite dt b x
  | .pubWindow p w => .publishWindowWrite dt p w x
  | .mailbox m i => if h : i < 50 then .mailboxWrite dt m ⟨i, h⟩ x else .lspIgnoredWrite dt a
  | .mask => .attentionMaskWrite dt x
  | .action => actionInstr dt x
  | _ => .lspIgnoredWrite dt a

end Sys2Proof.Machine
end

