-- ==== Sys2Proof/Machine/State.lean ====
section
/-! DEFINITION. The state of the tap, block by block, and the tap right after a POWER-ON restart has begun. -/

namespace Sys2Proof.Machine

/-! ### Tap controller and train tracker (chapter 2) -/

/-- The tap state (R35). -/
inductive TapState where
  | bypass
  | unconfigured
  | online
  | halted
  | faulted
  deriving DecidableEq, Repr

/-- The tap state and the two halt causes (R35, R36). -/
structure Controller where
  tapState : TapState
  commandCause : Bool
  pinCause : Bool
  deriving DecidableEq, Repr

/-- The train record and the port it belongs to (R20). -/
inductive TrainRecord where
  | idle
  | inTrain (p : Port)
  | passing (p : Port)
  deriving DecidableEq, Repr

/-- The expected position (R20). -/
inductive Position where
  | block (k : Nat)
  | container (k : Nat)
  | roll
  | unordered
  deriving DecidableEq, Repr

/-- The cycle state (R34). -/
inductive CycleState where
  | waiting
  | running
  | silent
  deriving DecidableEq, Repr

/-- The header interval record (R25). -/
structure Interval where
  last : Word
  minimum : Word
  maximum : Word
  deriving DecidableEq, Repr

/-- The train tracker (R20). Timers hold the time of their expiry on the model's clock; `beganOnline` is the tap state
sampled after the train's first-pass header (R37). -/
structure Tracker where
  lastCycle : Cycle
  valid : Bool
  record : TrainRecord
  expected : Option Position
  defect : Bool
  blocks : Byte
  containers : Byte
  lastPeriod : Option Nat
  trainTimer : Option Nat
  gapTimer : Option Nat
  missed : Byte
  cycleState : CycleState
  lastEpoch : Option Byte
  interval : Option Interval
  lastHeader : Option Nat
  beganOnline : Bool
  deriving DecidableEq, Repr

/-! ### Table sets (R40, R73, R105) -/

/-- A subscription entry (R40); its bank offset is `8 * slot`. -/
structure SubEntry where
  valid : Bool
  block : Fin 64
  first : Fin 4
  count : Fin 5
  publisher : Station
  bank : Fin 8
  slot : Fin 16
  ageLimit : Byte
  deriving DecidableEq, Repr

inductive PublishMode where
  | continuous
  | onPost
  deriving DecidableEq, Repr

/-- A publish entry (R73); its bank offset is `8 * slot`. -/
structure PubEntry where
  valid : Bool
  block : Fin 64
  first : Fin 4
  count : Fin 5
  bank : Fin 4
  slot : Fin 16
  mode : PublishMode
  deriving DecidableEq, Repr

/-- A channel's source (R105, R150). -/
inductive Source where
  | none
  | cycleStart
  | trainGood
  | trainBad
  | bankReady (b : Fin 8)
  | postTaken (p : Fin 4)
  | inboundArrival
  | outcome (m : Fin 8)
  | ringChange
  | censusChange
  | tables
  | subStale (e : Fin 32)
  | subFresh (e : Fin 32)
  | triggerIn (k : Fin 8)
  | cycleSilent
  deriving DecidableEq, Repr

inductive ReturnPolicy where
  | auto
  | manual
  deriving DecidableEq, Repr

inductive OutboundOrder where
  | fixed
  | rotating
  deriving DecidableEq, Repr

/-- The seven tap parameters (R105). -/
structure Params where
  returnPolicy : ReturnPolicy
  qualification : Byte
  lostThreshold : Byte
  fillQuota : Byte
  order : OutboundOrder
  urgent : Option (Fin 8)
  cycleLoss : Byte
  deriving DecidableEq, Repr

/-- A table set (R105). -/
structure TableSet where
  id : Word
  subs : Vector SubEntry 32
  pubs : Vector PubEntry 16
  channels : Vector Source 12
  users : Vector (Option (Fin 12)) 21
  managers : Vector (Option (Fin 63)) 4
  params : Params
  deriving DecidableEq, Repr

def SubEntry.cleared : SubEntry := ⟨false, 0, 0, 1, 0, 0, 0, 1⟩

def PubEntry.cleared : PubEntry := ⟨false, 0, 0, 1, 0, 0, .continuous⟩

def Params.default : Params := ⟨.auto, 50, 8, 1, .fixed, none, 3⟩

/-- The empty set (R105): set id 0, every entry cleared, manager slot 0 holding station 0. -/
def TableSet.empty : TableSet where
  id := 0
  subs := Vector.replicate 32 SubEntry.cleared
  pubs := Vector.replicate 16 PubEntry.cleared
  channels := Vector.replicate 12 Source.none
  users := Vector.replicate 21 none
  managers := #v[some 0, none, none, none]
  params := Params.default

/-! ### Capture unit and bank store (chapters 3 and 4) -/

inductive Freshness where
  | unseen
  | fresh
  | stale
  deriving DecidableEq, Repr

/-- A subscription's runtime record (R42). -/
structure SubRecord where
  freshness : Freshness
  age : Byte
  lastFresh : Option Cycle
  captured : Bool
  freshNow : Bool
  deriving DecidableEq, Repr

def SubRecord.reset : SubRecord := ⟨.unseen, 0, none, false, false⟩

/-- A bank buffer: 128 words (R58, R67). -/
abbrev Buffer := Vector Word 128

def Buffer.zero : Buffer := Vector.replicate 128 0

/-- The three buffers of a receive bank (R58). -/
inductive BufName where
  | x
  | y
  | z
  deriving DecidableEq, Repr

/-- A receive bank (R58): `front`, `ready` and `fill` name the buffers that hold those roles. -/
structure RxBank where
  x : Buffer
  y : Buffer
  z : Buffer
  front : BufName
  ready : BufName
  fill : BufName
  readyNew : Bool
  hold : Bool
  frontStamp : Cycle
  readyStamp : Cycle
  takePending : Bool
  deriving DecidableEq, Repr

def RxBank.reset : RxBank := ⟨.zero, .zero, .zero, .x, .y, .z, false, false, 0, 0, false⟩

/-- A publish bank (R67): `pIsDraft` says that P holds the role DRAFT and Q the role LIVE, or the reverse. -/
structure PubBank where
  p : Buffer
  q : Buffer
  pIsDraft : Bool
  posted : Bool
  postedNow : Bool
  deriving DecidableEq, Repr

def PubBank.reset : PubBank := ⟨.zero, .zero, true, false, false⟩

/-! ### Containers and mailboxes (chapter 6) -/

/-- A mailbox's flight record (R94). -/
structure Flight where
  index : Fin 8
  cycle : Cycle
  tag : Byte
  deriving DecidableEq, Repr

/-- The outcomes of a message sent (R97). -/
inductive MsgOutcome where
  | delivered
  | refused
  | undelivered
  | sent
  | unconfirmed
  | abandoned
  deriving DecidableEq, Repr

/-- A mailbox's state with what each state holds (R94); `due` is the due mark of R85. -/
inductive MailboxState where
  | free
  | waiting
  | inFlight (f : Flight) (due : Bool)
  | done (o : MsgOutcome) (f : Option Flight)
  deriving DecidableEq, Repr

/-- A mailbox: its state and the 50 words of its message part (R94, 12.3). -/
structure Mailbox where
  state : MailboxState
  message : Vector Word 50
  deriving DecidableEq, Repr

def Mailbox.reset : Mailbox := ⟨.free, Vector.replicate 50 0⟩

/-- The outbound scheduler (R91 to R94). -/
structure Scheduler where
  mailboxes : Vector Mailbox 8
  fills : Nat
  pointer : Fin 8
  tagCounter : Byte
  deriving DecidableEq, Repr

def Scheduler.reset : Scheduler := ⟨Vector.replicate 8 Mailbox.reset, 0, 7, 0⟩

/-- A record of the inbound queue (R99). -/
structure InboundRecord where
  source : Station
  tag : Byte
  length : Byte
  payload : Vector Byte 96
  arrival : Cycle
  broadcast : Bool
  deriving DecidableEq, Repr

/-! ### Management unit (chapter 7) -/

/-- The states of an existing edit session (R114): OPEN with the time its idle timer expires, or COMMIT_PENDING with its
mode, `none` for NEXT_CYCLE and `some e` for AT_EPOCH e (R118). -/
inductive SessionState where
  | opened (deadline : Nat)
  | commitPending (epoch : Option Byte)
  deriving DecidableEq, Repr

/-- An edit session and its staged set, which is present only while the session exists (R104). -/
structure Session where
  owner : Station
  state : SessionState
  staged : TableSet
  deriving DecidableEq, Repr

/-- A record of the response cache that is not empty (R108). -/
structure CachedResponse where
  tag : Byte
  payload : List Byte
  deriving DecidableEq, Repr

/-- A response waiting in the response queue (R106); `restarts` marks the response of an accepted RESTART, whose leaving
the management unit waits for (R93, R124). -/
structure Response where
  dest : Station
  tag : Byte
  payload : List Byte
  restarts : Bool
  deriving DecidableEq, Repr

/-- The activation record (R104). -/
structure Activation where
  setId : Word
  cycle : Cycle
  deriving DecidableEq, Repr

/-- A pending restart: its count of closes, the container index of its response once placed, and whether that container has
been sent out of the tap in full (R104, R124). -/
structure PendingRestart where
  closes : Nat
  placed : Option (Fin 8)
  left : Bool
  deriving DecidableEq, Repr

inductive TestState where
  | idle
  | running
  | done
  | aborted
  deriving DecidableEq, Repr

/-- Where a running segment test stands with its request (R146): prepared and waiting for a gap, being sent, or in its
wait of 200 µs, with the time that wait ends. -/
inductive TestPhase where
  | prepared
  | sending
  | waiting (deadline : Nat)
  deriving DecidableEq, Repr

/-- The segment test record (R104), with the number and phase of the request in hand (R146). -/
structure SegTest where
  state : TestState
  port : Port
  n : Byte
  sent : Byte
  good : Byte
  bad : Byte
  lost : Byte
  request : Nat
  phase : TestPhase
  deriving DecidableEq, Repr

def SegTest.reset : SegTest := ⟨.idle, .w, 0, 0, 0, 0, 0, 0, .prepared⟩

/-- The management unit (R104). The cache has a place for each station; only stations of the active manager set have a
record that is not empty (R108). -/
structure Management where
  active : TableSet
  session : Option Session
  cache : Vector (Option CachedResponse) 63
  responses : List Response
  activation : Option Activation
  pendingRestart : Option PendingRestart
  segTest : SegTest
  deriving DecidableEq, Repr

def Management.reset : Management where
  active := TableSet.empty
  session := none
  cache := Vector.replicate 63 none
  responses := []
  activation := none
  pendingRestart := none
  segTest := SegTest.reset

/-! ### Roll and census unit (chapter 8) -/

/-- The roll status of an entry (R9). -/
inductive RollStatus where
  | unconfigured
  | online
  | halted
  | faulted
  deriving DecidableEq, Repr

/-- The optional fields of a census record, present from the first listing on (R130). -/
structure Listing where
  status : RollStatus
  portWUp : Bool
  portEUp : Bool
  wrapped : Bool
  position : Fin 63
  firstSeen : Cycle
  lastSeen : Cycle
  deriving DecidableEq, Repr

inductive Presence where
  | neverSeen
  | present
  | missing
  | lost
  deriving DecidableEq, Repr

/-- A census record (R130). -/
structure CensusRecord where
  presence : Presence
  listing : Option Listing
  missing : Byte
  timesLost : Byte
  deriving DecidableEq, Repr

def CensusRecord.reset : CensusRecord := ⟨.neverSeen, none, 0, 0⟩

/-- The roll and census unit (R129, R130). -/
structure RollUnit where
  upstream : Option Station
  census : Vector CensusRecord 63
  anonymous : BitVec 6
  censusCycle : Option Cycle
  deriving DecidableEq, Repr

def RollUnit.reset : RollUnit := ⟨none, Vector.replicate 63 CensusRecord.reset, 0, none⟩

/-! ### Port units (chapter 9) -/

/-- The receive monitor's state (R135). -/
inductive Monitor where
  | down
  | qualifying
  | up
  deriving DecidableEq, Repr

/-- The last down cause (R135). -/
inductive DownCause where
  | none
  | loss
  | remote
  | errors
  deriving DecidableEq, Repr

/-- The six counters of a port (R148). -/
structure PortCounters where
  frames : Word
  lineErrors : Word
  passedBad : Word
  unknownKind : Word
  downs : Word
  echoReplies : Word
  deriving DecidableEq, Repr

def PortCounters.zero : PortCounters := ⟨0, 0, 0, 0, 0, 0⟩

/-- The local ECHO a port is sending (R145). -/
inductive EchoTx where
  | reply (f : EchoFrame)
  | request (f : EchoFrame)
  deriving DecidableEq, Repr

/-- What leaves the tap at a port: a whole frame with the check it carries, or a frame cut short, of which only a
beginning leaves and which is closed stomped (R3, R13, R140). -/
inductive SentContent where
  | whole (f : Frame) (fcs : Fcs)
  | cut (lead : Lead)
  deriving DecidableEq, Repr

/-- A forwarded frame whose bytes wait in the elastic buffer (R145); `written` marks a BLOCK that the publish unit has
written and that is good, so that its loss still counts (R78, R140); `restarts` marks the container that carries the
response of an accepted RESTART (R124). -/
structure HeldFrame where
  content : SentContent
  written : Bool
  restarts : Bool
  deriving DecidableEq, Repr

/-- Eight words the publish unit writes into a segment of a passing block (R76). -/
structure SegWrite where
  segment : Nat
  words : Vector Word 8
  deriving DecidableEq, Repr

/-- What the roll unit takes as the open count of a ROLL arrives (R125): the tap state, each port's receive monitor and the wrap
state, as its entry shows them (R126). -/
structure RollSample where
  tapState : TapState
  portWUp : Bool
  portEUp : Bool
  wrapped : Bool
  deriving DecidableEq, Repr

/-- A frame that is arriving, with what was decided as it began: whether the tracker sees it (R2, R143), the port its
outgoing copy leaves by, whether it is an over-turned header (R143), whether it is handed to the capture unit (R37, R43), and
what the publish unit writes into it (R75); and the sample of a ROLL that is handed to the roll unit (R125). `out` is none once
the copy has been cut short (R140). -/
structure Arriving where
  lead : Lead
  seen : Bool
  out : Option Port
  overTurn : Bool
  capture : Bool
  writes : List SegWrite
  roll : Option RollSample
  deriving DecidableEq, Repr

/-- A port unit and the lane switch's flags for the port (R135, R139, R142, R143, R145). `hold` is the expiry of a running
down hold, `qual` the time the qualification timer started, `window` the outcomes of the error window, oldest first, true
for a line error. -/
structure PortUnit where
  monitor : Monitor
  cause : DownCause
  hold : Option Nat
  qual : Option Nat
  window : List Bool
  lock : Bool
  farEnd : Option FarSignal
  inService : Bool
  returnReady : Bool
  returnAccepted : Bool
  discard : Bool
  waitingReply : Option EchoFrame
  tx : Option EchoTx
  elastic : List HeldFrame
  arriving : Option Arriving
  counters : PortCounters
  deriving DecidableEq, Repr

def PortUnit.reset : PortUnit where
  monitor := .down
  cause := .none
  hold := none
  qual := none
  window := []
  lock := false
  farEnd := none
  inService := false
  returnReady := false
  returnAccepted := false
  discard := false
  waitingReply := none
  tx := none
  elastic := []
  arriving := none
  counters := PortCounters.zero

/-! ### Signal matrix and attention (chapter 10) -/

/-- An output trigger pin: its driven level and the latest rising edge of its channel (R154). -/
structure OutPin where
  high : Bool
  edge : Option Nat
  deriving DecidableEq, Repr

/-- The stamp reference (R156). -/
structure StampRef where
  cycle : Cycle
  time : Nat
  deriving DecidableEq, Repr

/-- A stamp record (R156). -/
structure Stamp where
  channel : Fin 12
  cycle : Cycle
  offset : Word
  deriving DecidableEq, Repr

/-- The signal matrix (R150 to R156). `pulses` holds the end of a PULSE in progress on a remote channel. -/
structure Signals where
  trigIn : Vector Bool 8
  pins : Vector OutPin 8
  pulses : Vector (Option Nat) 12
  ref : Option StampRef
  stamps : List Stamp
  overflow : Bool
  deriving DecidableEq, Repr

def Signals.reset : Signals where
  trigIn := Vector.replicate 8 false
  pins := Vector.replicate 8 ⟨false, none⟩
  pulses := Vector.replicate 12 none
  ref := none
  stamps := []
  overflow := false

/-- The sticky attention causes and the mask (R158). -/
structure Attention where
  stale : Bool
  ring : Bool
  tables : Bool
  state : Bool
  cycle : Bool
  restart : Bool
  localError : Bool
  mask : BitVec 11
  deriving DecidableEq, Repr

/-- After a restart: RESTART pending and alone enabled (R160); RESTART is bit 9 (12.3). -/
def Attention.reset : Attention := ⟨false, false, false, false, false, true, false, 0x200⟩

/-! ### Local port and restart controller (chapter 11) -/

/-- What the transaction in progress is served as (R161, R170). -/
inductive TxnKind where
  | read
  | write
  | dead
  deriving DecidableEq, Repr

/-- The bank a burst is on (R161). -/
inductive Burst where
  | read (b : Fin 8)
  | write (p : Fin 4)
  deriving DecidableEq, Repr

/-- The transaction in progress: its burst, its next address, and whether it has named an action (R164). -/
structure Txn where
  kind : TxnKind
  burst : Option Burst
  address : Word
  acted : Bool
  deriving DecidableEq, Repr

/-- The report of the action word (R164). -/
inductive Report where
  | none
  | accepted
  | nothingNew
  | refused
  | badOperand
  | badAction
  deriving DecidableEq, Repr

structure LocalPort where
  txn : Option Txn
  report : Report
  out : List Word
  deriving DecidableEq, Repr

def LocalPort.reset : LocalPort := ⟨none, .none, []⟩

/-- The restart causes (R165). -/
inductive RestartKind where
  | powerOn
  | pin
  | local
  | remote
  deriving DecidableEq, Repr

/-- The bypass hold (R165). -/
inductive BypassHold where
  | idle
  | waiting
  | running (deadline : Nat)
  deriving DecidableEq, Repr

/-- The restart controller (R165); `supplySettling` and `rstLow` say that a POWER-ON cause or a PIN cause lasts (R166). -/
structure RestartCtl where
  cause : RestartKind
  strapInvalid : Bool
  count : Word
  hold : BypassHold
  station : Station
  supplySettling : Bool
  rstLow : Bool
  deriving DecidableEq, Repr

/-! ### Counters (R111) -/

/-- The tap-wide counters, by group: TRAIN, RING, IMAGE, MESSAGE (R111). -/
structure TapCounters where
  cyclesMissed : Word
  discontinuities : Word
  trainsDefective : Word
  trainsAborted : Word
  wrapsEntered : Word
  overTurns : Word
  rollOverflows : Word
  staleTransitions : Word
  fillFailures : Word
  publishLost : Word
  userFilled : Word
  delivered : Word
  refusedHere : Word
  orphanStripped : Word
  broadcastDropped : Word
  protocolErrors : Word
  deriving DecidableEq, Repr

def TapCounters.zero : TapCounters := ⟨0, 0, 0, 0, 0, 0, 0, 0, 0, 0, 0, 0, 0, 0, 0, 0⟩

/-! ### The line -/

structure Sent where
  port : Port
  content : SentContent
  deriving DecidableEq, Repr

/-- The tap. `pending`, `now` and `sent` are the model's own (assumption log 3, 1, 6). -/
structure State where
  pending : List Instr
  now : Nat
  sent : List Sent
  ctl : Controller
  trk : Tracker
  mgmt : Management
  subs : Vector SubRecord 32
  rx : Vector RxBank 8
  pub : Vector PubBank 4
  sched : Scheduler
  inbound : List InboundRecord
  roll : RollUnit
  portW : PortUnit
  portE : PortUnit
  sig : Signals
  att : Attention
  lsp : LocalPort
  rst : RestartCtl
  ctr : TapCounters
  deriving DecidableEq, Repr

/-- Why the tap stops. Nothing in the spec stops it, and no meaning answers a fault (assumption log 32). -/
inductive Fault where
  /-- Raised by no meaning. Safe: a claim about it is about no run. -/
  | none
  deriving DecidableEq, Repr

/-- Why a command is not run. -/
inductive Refusal where
  /-- Raised by `exec` for a command that has no meaning yet, of which there is none. Safe. -/
  | notModelled (mnemonic : String)
  deriving DecidableEq, Repr

/-- What a command answers. -/
abbrev Result := Host.Outcome State Fault Refusal

/-- The tracker after a restart that empties the interval record (R20). -/
def Tracker.reset : Tracker where
  lastCycle := 0
  valid := false
  record := .idle
  expected := none
  defect := false
  blocks := 0
  containers := 0
  lastPeriod := none
  trainTimer := none
  gapTimer := none
  missed := 0
  cycleState := .waiting
  lastEpoch := none
  interval := none
  lastHeader := none
  beganOnline := false

/-- The tap right after a POWER-ON restart has begun: BYPASS, the hold waiting for the supply to settle (R39, R166). Log
16 names what the spec leaves to the pins; log 17 what it gives no value. -/
def State.reset : State where
  pending := []
  now := 0
  sent := []
  ctl := ⟨.bypass, false, false⟩
  trk := Tracker.reset
  mgmt := Management.reset
  subs := Vector.replicate 32 SubRecord.reset
  rx := Vector.replicate 8 RxBank.reset
  pub := Vector.replicate 4 PubBank.reset
  sched := Scheduler.reset
  inbound := []
  roll := RollUnit.reset
  portW := PortUnit.reset
  portE := PortUnit.reset
  sig := Signals.reset
  att := Attention.reset
  lsp := LocalPort.reset
  rst := ⟨.powerOn, false, 0, .waiting, 0, true, false⟩
  ctr := TapCounters.zero

end Sys2Proof.Machine
end

