-- ==== Sys2Proof/Machine/Ops.lean ====
section
/-! DEFINITION. The named operations over the state: the clock, saturating counters, the port units, the buffers of the
receive and publish banks, the words of a passing block, and what leaves the tap. -/

namespace Sys2Proof

/-- The other port. -/
def Port.other : Port → Port
  | .w => .e
  | .e => .w

/-! ### Fields of frames (R169) -/

/-- The station number of a one-byte field: bits 5:0. -/
def stationOf (b : Byte) : Station := b.extractLsb' 0 6

def stationByte (s : Station) : Byte := s.setWidth 8

def ContainerFrame.isFull (f : ContainerFrame) : Bool := f.state.getLsbD 0

def ContainerFrame.isRefused (f : ContainerFrame) : Bool := f.refused.getLsbD 0

/-- The empty form: every field zero but the index (R8). -/
def ContainerFrame.emptied (f : ContainerFrame) : ContainerFrame :=
  ⟨f.index, 0, 0, 0, 0, 0, 0, 0, 0, Vector.replicate 96 0⟩

/-- A container whose refused flag the tap sets: the bits outside its fields leave as zero (R89, R169). -/
def ContainerFrame.withRefused (f : ContainerFrame) : ContainerFrame :=
  { f with state := 1, refused := 1, dest := stationByte (stationOf f.dest), source := stationByte (stationOf f.source) }

/-- A malformed FULL container (R8). -/
def ContainerFrame.malformed (f : ContainerFrame) : Bool :=
  f.isFull && (decide (stationOf f.source = 63#6) || decide (96 < f.length.toNat) || decide (2 < f.cls.toNat) ||
    decide (1 < f.flight.toNat))

def ContainerFrame.message (f : ContainerFrame) : List Byte := f.payload.toList.take f.length.toNat

/-- The roll status code of an entry: bits 2:0 (12.1). -/
def RollEntry.code (x : RollEntry) : BitVec 3 := x.status.extractLsb' 0 3

/-- An entry as it leaves in a changed frame: its fields as they came, the bits outside them zero (R169, assumption log 23). -/
def RollEntry.cleaned (x : RollEntry) : RollEntry := ⟨x.station &&& 0x3F#8, x.status &&& 0x77#8⟩

/-- The closed roll: as many entries as its count (R9). -/
def RollFrame.closedRoll (f : RollFrame) : List RollEntry := f.closed.take f.closedCount.toNat

/-- A malformed ROLL (R9). -/
def RollFrame.malformed (f : RollFrame) : Bool :=
  decide (63 < f.closedCount.toNat) || decide (63 < f.openCount.toNat) ||
    f.closedRoll.any fun x => decide (3 < x.code.toNat)

/-- The words of a block, by number. -/
def BlockFrame.word (f : BlockFrame) (w : Nat) : Word := f.words.toList.getD w 0

/-- A block the publish unit has written: the tap's own flag set, the segments named replaced (R76). -/
def BlockFrame.written (f : BlockFrame) (own : Station) (writes : List Machine.SegWrite) : BlockFrame :=
  { f with
    thisMap := f.thisMap ||| (1#64 <<< own.toNat)
    words := Vector.ofFn fun i =>
      match writes.find? fun x => x.segment = i.val / 8 with
      | some x => x.words.toList.getD (i.val % 8) 0
      | none => f.words[i] }

/-- A turned header: bits 1:0 of its turn byte rise by one, the others leave as they arrived (R143, R169). -/
def HeaderFrame.turned (f : HeaderFrame) : HeaderFrame :=
  { f with turn := f.turn.extractLsb' 2 6 ++ (f.turn.extractLsb' 0 2 + 1#2) }

end Sys2Proof

namespace Sys2Proof.Machine

/-! ### Times, in microseconds -/

/-- The gap allowance (R30). -/
def gapTime : Nat := 100
/-- What the train timer adds to the period (R21). -/
def trainMargin : Nat := 100
/-- The down hold (R135). -/
def downHoldTime : Nat := 1000
/-- One millisecond of qualification time (R136). -/
def millisecond : Nat := 1000
/-- The bypass hold (R166). -/
def bypassHoldTime : Nat := 2000
/-- The wait for an ECHO REPLY (R146). -/
def echoWaitTime : Nat := 200
/-- The idle timer of an OPEN session (R116). -/
def idleTime : Nat := 2000000
/-- The high of a PULSE (R153). -/
def pulseTime : Nat := 2
/-- The least high of an output trigger pin (R154). -/
def stretchTime : Nat := 1

/-- Time passes (assumption log 1). -/
def State.elapse (s : State) (dt : Nat) : State := { s with now := s.now + dt }

/-- The moment of an expiry: no earlier than its time (assumption log 1, 2). -/
def State.reach (s : State) (t : Nat) : State := { s with now := max s.now t }

/-! ### Counters -/

/-- A counter that stops at its greatest value (R12, R102, R111). -/
def satInc {n : Nat} (x : BitVec n) : BitVec n := if x = BitVec.allOnes n then x else x + 1

def State.count (s : State) (f : TapCounters → TapCounters) : State := { s with ctr := f s.ctr }

def State.countPublishLost (s : State) : State := s.count fun c => { c with publishLost := satInc c.publishLost }

/-! ### Vectors -/

/-- A vector with one place changed. -/
def upd {α : Type} {n : Nat} (v : Vector α n) (i : Fin n) (x : α) : Vector α n := v.set i x

/-! ### Ports -/

def State.unit (s : State) : Port → PortUnit
  | .w => s.portW
  | .e => s.portE

def State.setUnit (s : State) (p : Port) (u : PortUnit) : State :=
  match p with
  | .w => { s with portW := u }
  | .e => { s with portE := u }

def State.modUnit (s : State) (p : Port) (f : PortUnit → PortUnit) : State := s.setUnit p (f (s.unit p))

/-- The four wrap states (R2, R139). -/
inductive WrapState where
  | through
  | wrapW
  | wrapE
  | isolated
  deriving DecidableEq, Repr

/-- The wrap state follows from the two in-service flags (R139). -/
def wrapOf (w e : Bool) : WrapState :=
  match w, e with
  | true, true => .through
  | true, false => .wrapE
  | false, true => .wrapW
  | false, false => .isolated

def State.wrapState (s : State) : WrapState := wrapOf s.portW.inService s.portE.inService

/-- The port a frame received at `p` is sent out of, by the table of R2; none where it is discarded. -/
def State.route (s : State) (p : Port) : Option Port :=
  match s.wrapState, p with
  | .through, q => some q.other
  | .wrapE, .w => some .w
  | .wrapE, .e => none
  | .wrapW, .w => none
  | .wrapW, .e => some .e
  | .isolated, _ => none

/-- Something leaves the tap at a port. -/
def State.emit (s : State) (p : Port) (x : SentContent) : State := { s with sent := s.sent ++ [⟨p, x⟩] }

/-- A forwarded frame leaves; the container that carries the response of a RESTART has then been sent in full (R124). -/
def State.depart (s : State) (p : Port) (h : HeldFrame) : State :=
  let s' := s.emit p h.content
  if h.restarts then
    { s' with mgmt := { s'.mgmt with pendingRestart := s'.mgmt.pendingRestart.map fun x => { x with left := true } } }
  else s'

/-- A forwarded frame goes to its port: out at once, or into the elastic buffer while an ECHO is being sent there (R145). -/
def State.sendOut (s : State) (p : Port) (h : HeldFrame) : State :=
  if (s.unit p).tx.isSome then s.modUnit p fun u => { u with elastic := u.elastic ++ [h] } else s.depart p h

/-- The elastic buffer empties once the ECHO has been sent (R145). -/
def State.flushElastic (s : State) (p : Port) : State :=
  let s' := (s.unit p).elastic.foldl (fun t h => t.depart p h) s
  s'.modUnit p fun u => { u with elastic := [] }

/-! ### Buffers -/

/-- `n` words written from word `off` on. -/
def Buffer.writeRange (buf : Buffer) (off n : Nat) (src : Nat → Word) : Buffer :=
  Vector.ofFn fun i => if off ≤ i.val ∧ i.val < off + n then src (i.val - off) else buf[i]

def RxBank.buf (b : RxBank) : BufName → Buffer
  | .x => b.x
  | .y => b.y
  | .z => b.z

def RxBank.setBuf (b : RxBank) (n : BufName) (v : Buffer) : RxBank :=
  match n with
  | .x => { b with x := v }
  | .y => { b with y := v }
  | .z => { b with z := v }

/-- What the local equipment reads (R64). -/
def RxBank.frontBuf (b : RxBank) : Buffer := b.buf b.front

/-- A take that is not deferred (R62). -/
def RxBank.take (b : RxBank) : RxBank :=
  if b.readyNew then
    { b with front := b.ready, ready := b.front, frontStamp := b.readyStamp, readyStamp := b.frontStamp, readyNew := false }
  else b

/-- An auto-take or a TAKE user's take: put off while a read burst is in progress on the bank (R61, R63). -/
def RxBank.requestTake (b : RxBank) (burst : Bool) : RxBank := if burst then { b with takePending := true } else b.take

/-- The end of a read burst on the bank (R63). -/
def RxBank.endBurst (b : RxBank) : RxBank := if b.takePending then { b with takePending := false }.take else b

/-- The fresh fill of a first-pass header (R59). -/
def RxBank.startFill (b : RxBank) : RxBank := b.setBuf b.fill (b.buf (if b.readyNew then b.ready else b.front))

/-- A completion: steps 1 to 3 of R60. -/
def RxBank.complete (b : RxBank) (cycle : Cycle) : RxBank :=
  { b with fill := b.ready, ready := b.fill, readyStamp := cycle, readyNew := true }

/-- The clearing of an activation, which keeps HOLD (R66). -/
def RxBank.clear (b : RxBank) : RxBank := { RxBank.reset with hold := b.hold }

/-- The three roles are held by three different buffers (R58). -/
def RxBank.rolesDistinct (b : RxBank) : Bool :=
  decide (b.front ≠ b.ready) && decide (b.front ≠ b.fill) && decide (b.ready ≠ b.fill)

/-- The DRAFT buffer (R67). -/
def PubBank.draft (b : PubBank) : Buffer := if b.pIsDraft then b.p else b.q

/-- The LIVE buffer (R67). -/
def PubBank.live (b : PubBank) : Buffer := if b.pIsDraft then b.q else b.p

def PubBank.setDraft (b : PubBank) (v : Buffer) : PubBank := if b.pIsDraft then { b with p := v } else { b with q := v }

/-- A swap: the roles exchange and the new DRAFT takes a copy of the new LIVE (R70, steps 1 to 4). -/
def PubBank.swap (b : PubBank) : PubBank :=
  { b with p := b.draft, q := b.draft, pIsDraft := !b.pIsDraft, posted := false, postedNow := true }

/-- A first-pass header at which the bank store swaps (R70, R71). -/
def PubBank.header (b : PubBank) (burst : Bool) : PubBank :=
  if b.posted && !burst then b.swap else { b with postedNow := false }

/-! ### The local port's bursts -/

/-- Whether a read burst on receive bank `b` is in progress (R63). -/
def State.readBurst (s : State) (b : Fin 8) : Bool :=
  match s.lsp.txn with
  | some t => decide (t.burst = some (.read b))
  | none => false

/-- Whether a write burst on publish bank `p` is in progress (R68). -/
def State.writeBurst (s : State) (p : Fin 4) : Bool :=
  match s.lsp.txn with
  | some t => decide (t.burst = some (.write p))
  | none => false

end Sys2Proof.Machine
end

