-- ==== Sys2Proof/Machine/Flags.lean ====
section
/-! DEFINITION. The flags: the sticky and the condition attention causes, the mask and ATTN_N (R158, R159), and the codes by
which 12.3 shows states. -/

namespace Sys2Proof

/-- Port codes (12.2). -/
def Port.code : Port → Nat
  | .w => 0
  | .e => 1

end Sys2Proof

namespace Sys2Proof.Machine

/-- The sticky causes (R158). -/
inductive Sticky where
  | stale
  | ring
  | tables
  | state
  | cycle
  | restart
  | localError
  deriving DecidableEq, Repr

def Attention.setSticky (a : Attention) : Sticky → Attention
  | .stale => { a with stale := true }
  | .ring => { a with ring := true }
  | .tables => { a with tables := true }
  | .state => { a with state := true }
  | .cycle => { a with cycle := true }
  | .restart => { a with restart := true }
  | .localError => { a with localError := true }

/-- A sticky cause becomes pending; setting one already pending changes nothing (R158). -/
def State.setSticky (s : State) (c : Sticky) : State := { s with att := s.att.setSticky c }

/-- A local port error (R164). -/
def State.localError (s : State) : State := s.setSticky .localError

/-- CLEAR CAUSES with one bit for each cause; a condition cause's bit does nothing (R159, 12.3). -/
def Attention.clearCauses (a : Attention) (x : BitVec 12) : Attention :=
  { a with
    stale := a.stale && !x.getLsbD 4
    ring := a.ring && !x.getLsbD 5
    tables := a.tables && !x.getLsbD 6
    state := a.state && !x.getLsbD 7
    cycle := a.cycle && !x.getLsbD 8
    restart := a.restart && !x.getLsbD 9
    localError := a.localError && !x.getLsbD 10 }

/-- A value with fields at bit positions. A bit outside every field reads 0: stated for the attention causes (12.3), by the model's
choice for every other word (assumption log 40). -/
def pack (l : List (Nat × Nat)) : Word := BitVec.ofNat 16 (l.foldl (fun a x => a + x.2 * 2 ^ x.1) 0)

def Mailbox.isDone (m : Mailbox) : Bool :=
  match m.state with
  | .done _ _ => true
  | _ => false

/-- INBOUND (R158). -/
def State.inboundCause (s : State) : Bool := !s.inbound.isEmpty

/-- OUTCOME (R158). -/
def State.outcomeCause (s : State) : Bool := s.sched.mailboxes.toList.any Mailbox.isDone

/-- BANK_READY (R158, R64). -/
def State.bankReadyCause (s : State) : Bool := s.rx.toList.any RxBank.readyNew

/-- STAMP (R158). -/
def State.stampCause (s : State) : Bool := !s.sig.stamps.isEmpty

/-- The pending causes at their bit positions (12.3). -/
def State.pendingCauses (s : State) : Word :=
  pack [(0, s.inboundCause.toNat), (1, s.outcomeCause.toNat), (2, s.bankReadyCause.toNat), (3, s.stampCause.toNat),
    (4, s.att.stale.toNat), (5, s.att.ring.toNat), (6, s.att.tables.toNat), (7, s.att.state.toNat), (8, s.att.cycle.toNat),
    (9, s.att.restart.toNat), (10, s.att.localError.toNat)]

/-- The mask word; bits 15:11 read 0 (12.3). -/
def State.maskWord (s : State) : Word := s.att.mask.setWidth 16

/-- ATTN_N is asserted, low, while a pending cause is enabled (R158). -/
def State.attnAsserted (s : State) : Bool := decide (s.pendingCauses &&& s.maskWord ≠ 0)

/-- A change of tap state sets STATE, except the change into BYPASS (R35). -/
def State.setTapState (s : State) (t : TapState) : State :=
  if s.ctl.tapState = t then s else { s with ctl := { s.ctl with tapState := t } }.setSticky .state

/-! ### Codes (12.3) -/

def TapState.code : TapState → Nat
  | .bypass => 0
  | .unconfigured => 1
  | .online => 2
  | .halted => 3
  | .faulted => 4

def WrapState.code : WrapState → Nat
  | .through => 0
  | .wrapW => 1
  | .wrapE => 2
  | .isolated => 3

def Monitor.code : Monitor → Nat
  | .down => 0
  | .qualifying => 1
  | .up => 2

def DownCause.code : DownCause → Nat
  | .none => 0
  | .loss => 1
  | .remote => 2
  | .errors => 3

def CycleState.code : CycleState → Nat
  | .waiting => 0
  | .running => 1
  | .silent => 2

def RestartKind.code : RestartKind → Nat
  | .powerOn => 0
  | .pin => 1
  | .local => 2
  | .remote => 3

def Presence.code : Presence → Nat
  | .neverSeen => 0
  | .present => 1
  | .missing => 2
  | .lost => 3

def RollStatus.code : RollStatus → Nat
  | .unconfigured => 0
  | .online => 1
  | .halted => 2
  | .faulted => 3

def MailboxState.code : MailboxState → Nat
  | .free => 0
  | .waiting => 1
  | .inFlight _ _ => 2
  | .done _ _ => 3

def MsgOutcome.code : MsgOutcome → Nat
  | .delivered => 1
  | .refused => 2
  | .undelivered => 3
  | .sent => 4
  | .unconfirmed => 5
  | .abandoned => 6

/-- The outcome in DONE, 0 where absent (12.3, mailbox window word 50). -/
def MailboxState.outcomeCode : MailboxState → Nat
  | .done o _ => o.code
  | _ => 0

def Freshness.code : Freshness → Nat
  | .unseen => 0
  | .fresh => 1
  | .stale => 2

def TestState.code : TestState → Nat
  | .idle => 0
  | .running => 1
  | .done => 2
  | .aborted => 3

def Report.code : Report → Nat
  | .none => 0
  | .accepted => 1
  | .nothingNew => 2
  | .refused => 3
  | .badOperand => 4
  | .badAction => 5

end Sys2Proof.Machine
end

