-- ==== Sys2Proof/Machine/Matrix.lean ====
section
/-! DEFINITION. The signal matrix: rising edges and what the users do at one (R150 to R156), the channels' levels, and the
changeover of an activation (R160). -/

namespace Sys2Proof.Machine

/-- TRIG_OUT user of pin k, POST user of publish bank p, TAKE user of receive bank b, the STAMP user (R105). -/
def trigUser (k : Fin 8) : Fin 21 := ⟨k.val, by omega⟩
def postUser (p : Fin 4) : Fin 21 := ⟨8 + p.val, by omega⟩
def takeUser (b : Fin 8) : Fin 21 := ⟨12 + b.val, by omega⟩
def stampUser : Fin 21 := 20

/-- The channel a user follows in the active set. -/
def State.follows (s : State) (u : Fin 21) : Option (Fin 12) := s.mgmt.active.users[u]

/-- A channel's source in the active set. -/
def State.source (s : State) (c : Fin 12) : Source := s.mgmt.active.channels[c]

/-- The record a rising edge of channel `c` makes (R156). -/
def State.stampOf (s : State) (c : Fin 12) : Stamp :=
  match s.sig.ref with
  | some r => ⟨c, r.cycle, BitVec.ofNat 16 (min 65535 (s.now - r.time))⟩
  | none => ⟨c, 0, 0⟩

/-- The stamp FIFO takes a record: it joins while fewer than 4 are held, and is otherwise dropped, which sets the overflow flag
(R156). -/
def Signals.pushStamp (x : Signals) (r : Stamp) : Signals :=
  if x.stamps.length < 4 then { x with stamps := x.stamps ++ [r] } else { x with overflow := true }

/-- The pins and the stamp FIFO after a rising edge that reaches the users `hit` names (R154, R156). -/
def State.edgeSignals (s : State) (hit : Fin 21 → Bool) : Signals :=
  let x : Signals :=
    { s.sig with pins := Vector.ofFn fun k => if hit (trigUser k) then ⟨true, some s.now⟩ else s.sig.pins[k] }
  match s.follows stampUser with
  | some c => if hit stampUser then x.pushStamp (s.stampOf c) else x
  | none => x

/-- A rising edge reaches the users that `hit` names, each of which acts once (R154 to R156). -/
def State.fire (s : State) (hit : Fin 21 → Bool) : State :=
  { s with
    pub := Vector.ofFn fun p => if hit (postUser p) then { s.pub[p] with posted := true } else s.pub[p]
    rx := Vector.ofFn fun b => if hit (takeUser b) then s.rx[b].requestTake (s.readBurst b) else s.rx[b]
    sig := s.edgeSignals hit }

/-- Whether user `u` follows a channel whose source is `x`. -/
def State.bound (s : State) (x : Source) (u : Fin 21) : Bool :=
  match s.follows u with
  | some c => decide (s.source c = x)
  | none => false

/-- An event of a pulse source, or the rise of a level source: a rising edge on every channel whose source it is (R151,
R152). A user follows one channel at most, so each user acts at most once. -/
def State.raise (s : State) (x : Source) : State := s.fire (s.bound x)

/-- A rising edge on one channel (R153). -/
def State.edgeOn (s : State) (c : Fin 12) : State := s.fire fun u => decide (s.follows u = some c)

/-- RING_CHANGE with its attention cause (R139). -/
def State.ringChange (s : State) : State := (s.raise .ringChange).setSticky .ring

/-- Whether trigger pin k is an output: its TRIG_OUT user follows a channel (R154). -/
def State.pinIsOutput (s : State) (k : Fin 8) : Bool := (s.follows (trigUser k)).isSome

/-- A channel's level (R150, R152, R153). -/
def State.channelLevel (s : State) (c : Fin 12) : Bool :=
  match s.source c with
  | .none => s.sig.pulses[c].isSome
  | .subStale e => s.mgmt.active.subs[e].valid && decide (s.subs[e].freshness = .stale)
  | .subFresh e => s.mgmt.active.subs[e].valid && decide (s.subs[e].freshness = .fresh)
  | .triggerIn k => s.sig.trigIn[k]
  | .cycleSilent => decide (s.trk.cycleState = .silent)
  | _ => false

/-- A trigger pin's present level, driven or sampled (R154). -/
def State.pinLevel (s : State) (k : Fin 8) : Bool :=
  if s.pinIsOutput k then s.sig.pins[k].high else s.sig.trigIn[k]

/-- The changeover from the set `old` to the active set (R153, R160): a PULSE in progress goes on only where the channel is
remote before and after; a pin whose user follows the same channel with the same source carries on, one that newly follows
takes the channel's level without a stretch, and one that follows none stops being driven. An output is sampled as no input,
so its TRIGGER_IN is low (R152). -/
def State.changeover (s : State) (old : TableSet) : State :=
  let pulses : Vector (Option Nat) 12 :=
    Vector.ofFn fun c => if old.channels[c] = .none ∧ s.source c = .none then s.sig.pulses[c] else none
  let s1 : State := { s with sig := { s.sig with pulses := pulses } }
  let pins : Vector OutPin 8 := Vector.ofFn fun k =>
    match s.follows (trigUser k) with
    | none => ⟨false, none⟩
    | some c =>
      if old.users[trigUser k] = some c ∧ old.channels[c] = s.source c then s.sig.pins[k]
      else ⟨s1.channelLevel c, none⟩
  let trigIn : Vector Bool 8 := Vector.ofFn fun k => s.sig.trigIn[k] && !s.pinIsOutput k
  { s1 with sig := { s1.sig with pins := pins, trigIn := trigIn } }

end Sys2Proof.Machine
end

