-- ==== Sys2Proof/Machine/Operands.lean ====
section
/-! DEFINITION. The operand forms: ports, tables, entries and channels of a request (12.2), with the field checks of R40, R73 and
R115; and the operands of the local actions (R164). A form answers none where its operand is out of range. -/

namespace Sys2Proof.Machine

/-- A port value that is W or E (12.2). -/
def portOf (b : Byte) : Option Port := if b = 0 then some .w else if b = 1 then some .e else none

/-- The six tables (R105). -/
inductive Table where
  | subscription
  | publish
  | channel
  | user
  | manager
  | parameters
  deriving DecidableEq, Repr

def Table.code : Table → Nat
  | .subscription => 0
  | .publish => 1
  | .channel => 2
  | .user => 3
  | .manager => 4
  | .parameters => 5

def tableOf (b : Byte) : Option Table :=
  if b = 0 then some .subscription
  else if b = 1 then some .publish
  else if b = 2 then some .channel
  else if b = 3 then some .user
  else if b = 4 then some .manager
  else if b = 5 then some .parameters
  else none

/-- How many entries a table has (R105). -/
def Table.entries : Table → Nat
  | .subscription => 32
  | .publish => 16
  | .channel => 12
  | .user => 21
  | .manager => 4
  | .parameters => 1

/-- A set value that is ACTIVE (false) or STAGED (true) (12.2). -/
def setOf (b : Byte) : Option Bool := if b = 0 then some false else if b = 1 then some true else none

/-! ### Entry encodings (12.2) -/

/-- A number below `n`, or none. -/
def below (n : Nat) [NeZero n] (b : Byte) : Option (Fin n) := if b.toNat < n then some (Fin.ofNat n b.toNat) else none

/-- A bank offset: a multiple of 8 up to 120; its slot. -/
def slotOf (b : Byte) : Option (Fin 16) :=
  if b.toNat % 8 = 0 ∧ b.toNat ≤ 120 then some (Fin.ofNat 16 (b.toNat / 8)) else none

/-- A first segment and a count, whose sum is at most 4 (R40, R73). -/
def rangeOf (first count : Byte) : Option (Fin 4 × Fin 5) :=
  if first.toNat ≤ 3 ∧ 1 ≤ count.toNat ∧ first.toNat + count.toNat ≤ 4 then
    some (Fin.ofNat 4 first.toNat, Fin.ofNat 5 count.toNat)
  else none

/-- The field checks of R40. Of the valid byte bit 0 counts (12.2, assumption log 40). -/
def decodeSub (v : Vector Byte 8) : Option SubEntry :=
  match below 64 v[1], rangeOf v[2] v[3], below 64 v[4], below 8 v[5], slotOf v[6] with
  | some block, some (first, count), some publisher, some bank, some slot =>
    if v[7] = 0 ∨ v[7] = 255 then none
    else some ⟨v[0].getLsbD 0, block, first, count, BitVec.ofNat 6 publisher.val, bank, slot, v[7]⟩
  | _, _, _, _, _ => none

def modeOf (b : Byte) : Option PublishMode := if b = 0 then some .continuous else if b = 1 then some .onPost else none

/-- The field checks of R73. Of the valid byte bit 0 counts (12.2, assumption log 40). -/
def decodePub (v : Vector Byte 8) : Option PubEntry :=
  match below 64 v[1], rangeOf v[2] v[3], below 4 v[4], slotOf v[5], modeOf v[6] with
  | some block, some (first, count), some bank, some slot, some mode =>
    some ⟨v[0].getLsbD 0, block, first, count, bank, slot, mode⟩
  | _, _, _, _, _ => none

/-- A channel source: its kind and, for a kind that has one, its operand; any other operand is ignored (R115). -/
def decodeSource (v : Vector Byte 8) : Option Source :=
  match v[0].toNat with
  | 0 => some .none
  | 1 => some .cycleStart
  | 2 => some .trainGood
  | 3 => some .trainBad
  | 4 => (below 8 v[1]).map .bankReady
  | 5 => (below 4 v[1]).map .postTaken
  | 6 => some .inboundArrival
  | 7 => (below 8 v[1]).map .outcome
  | 8 => some .ringChange
  | 9 => some .censusChange
  | 10 => some .tables
  | 11 => (below 32 v[1]).map .subStale
  | 12 => (below 32 v[1]).map .subFresh
  | 13 => (below 8 v[1]).map .triggerIn
  | 14 => some .cycleSilent
  | _ => none

/-- A number below `n`, or FFh for none; anything else is out of range. -/
def optionOf (n : Nat) [NeZero n] (b : Byte) : Option (Option (Fin n)) :=
  if b = 255 then some none else (below n b).map some

def decodeUser (v : Vector Byte 8) : Option (Option (Fin 12)) := optionOf 12 v[0]

def decodeManager (v : Vector Byte 8) : Option (Option (Fin 63)) := optionOf 63 v[0]

def policyOf (b : Byte) : Option ReturnPolicy := if b = 0 then some .auto else if b = 1 then some .manual else none

def orderOf (b : Byte) : Option OutboundOrder := if b = 0 then some .fixed else if b = 1 then some .rotating else none

/-- The ranges of the seven parameters (R105). -/
def decodeParams (v : Vector Byte 8) : Option Params :=
  match policyOf v[0], orderOf v[4], optionOf 8 v[5] with
  | some policy, some order, some urgent =>
    if 1 ≤ v[1].toNat ∧ 1 ≤ v[2].toNat ∧ 1 ≤ v[3].toNat ∧ v[3].toNat ≤ 4 ∧ 1 ≤ v[6].toNat ∧ v[6].toNat ≤ 15 then
      some ⟨policy, v[1], v[2], v[3], order, urgent, v[6]⟩
    else none
  | _, _, _ => none

def natByte (n : Nat) : Byte := BitVec.ofNat 8 n

def optionByte {n : Nat} : Option (Fin n) → Byte
  | none => 255
  | some x => natByte x.val

def encodeSub (e : SubEntry) : Vector Byte 8 :=
  #v[natByte e.valid.toNat, natByte e.block.val, natByte e.first.val, natByte e.count.val, stationByte e.publisher,
    natByte e.bank.val, natByte (8 * e.slot.val), e.ageLimit]

def PublishMode.code : PublishMode → Nat
  | .continuous => 0
  | .onPost => 1

def encodePub (e : PubEntry) : Vector Byte 8 :=
  #v[natByte e.valid.toNat, natByte e.block.val, natByte e.first.val, natByte e.count.val, natByte e.bank.val,
    natByte (8 * e.slot.val), natByte e.mode.code, 0]

/-- A source's kind and operand codes (12.2). -/
def Source.codes : Source → Nat × Nat
  | .none => (0, 0)
  | .cycleStart => (1, 0)
  | .trainGood => (2, 0)
  | .trainBad => (3, 0)
  | .bankReady b => (4, b.val)
  | .postTaken p => (5, p.val)
  | .inboundArrival => (6, 0)
  | .outcome m => (7, m.val)
  | .ringChange => (8, 0)
  | .censusChange => (9, 0)
  | .tables => (10, 0)
  | .subStale e => (11, e.val)
  | .subFresh e => (12, e.val)
  | .triggerIn k => (13, k.val)
  | .cycleSilent => (14, 0)

def encodeSource (x : Source) : Vector Byte 8 := #v[natByte x.codes.1, natByte x.codes.2, 0, 0, 0, 0, 0, 0]

def encodeUser (x : Option (Fin 12)) : Vector Byte 8 := #v[optionByte x, 0, 0, 0, 0, 0, 0, 0]

def encodeManager (x : Option (Fin 63)) : Vector Byte 8 := #v[optionByte x, 0, 0, 0, 0, 0, 0, 0]

def ReturnPolicy.code : ReturnPolicy → Nat
  | .auto => 0
  | .manual => 1

def OutboundOrder.code : OutboundOrder → Nat
  | .fixed => 0
  | .rotating => 1

def encodeParams (x : Params) : Vector Byte 8 :=
  #v[natByte x.returnPolicy.code, x.qualification, x.lostThreshold, x.fillQuota, natByte x.order.code, optionByte x.urgent,
    x.cycleLoss, 0]

/-! ### Operands of the local actions (R164) -/

/-- An action operand below `n`; none gives BAD_OPERAND. -/
def actionOperand (n : Nat) [NeZero n] (x : BitVec 12) : Option (Fin n) :=
  if x.toNat < n then some (Fin.ofNat n x.toNat) else none

end Sys2Proof.Machine
end

