-- ==== Sys2Proof/Machine/StatusBlock.lean ====
section
/-! DEFINITION. What the local port reads: the status block (R163), the census mirror (R134), the windows and the words of a
burst (R161, R162, 12.3). -/

namespace Sys2Proof.Machine

/-- The high and the low word of a 32-bit value, which stand in that order (assumption log 35). -/
def highWord (x : BitVec 32) : Word := x.extractLsb' 16 16
def lowWord (x : BitVec 32) : Word := x.extractLsb' 0 16

/-- Word `i` of two. -/
def halfWord (x : BitVec 32) (i : Nat) : Word := if i = 0 then highWord x else lowWord x

/-- Eight flags in bits 7:0. -/
def flagBits (f : Fin 8 → Bool) : Nat := ((List.finRange 8).map fun i => (f i).toNat * 2 ^ i.val).sum

/-- A mailbox's state and outcome in one byte, as in word 50 of its window (12.3). -/
def Mailbox.stateByte (m : Mailbox) : Nat := m.state.code + 16 * m.state.outcomeCode

def State.intervalWord (s : State) (f : Interval → Word) : Word :=
  match s.trk.interval with
  | some x => f x
  | none => 0

def State.activationId (s : State) : Word :=
  match s.mgmt.activation with
  | some x => x.setId
  | none => 0

def State.activationCycle (s : State) : Cycle :=
  match s.mgmt.activation with
  | some x => x.cycle
  | none => 0

def State.upstreamNumber (s : State) : Nat :=
  match s.roll.upstream with
  | some x => x.toNat
  | none => 0

/-- Word `i` of the status block; the words from 41 on read 0 (12.3). -/
def State.statusWord (s : State) (i : Nat) : Word :=
  match i with
  | 0 => pack [(0, s.ctl.tapState.code), (8, s.ctl.commandCause.toNat), (9, s.ctl.pinCause.toNat)]
  | 1 =>
    pack [(0, s.wrapState.code), (2, s.portW.inService.toNat), (3, s.portE.inService.toNat), (4, s.portW.returnReady.toNat),
      (5, s.portE.returnReady.toNat), (8, s.portW.monitor.code), (10, s.portE.monitor.code), (12, s.portW.cause.code),
      (14, s.portE.cause.code)]
  | 2 => pack [(0, s.trk.cycleState.code), (15, s.trk.valid.toNat)]
  | 3 => highWord s.trk.lastCycle
  | 4 => lowWord s.trk.lastCycle
  | 5 => s.intervalWord Interval.last
  | 6 => s.intervalWord Interval.minimum
  | 7 => s.intervalWord Interval.maximum
  | 8 => pack [(0, s.rst.station.toNat), (8, s.rst.cause.code), (15, s.rst.strapInvalid.toNat)]
  | 9 => s.rst.count
  | 10 => s.mgmt.active.id
  | 11 => pack [(15, s.mgmt.activation.isSome.toNat)]
  | 12 => s.activationId
  | 13 => highWord s.activationCycle
  | 14 => lowWord s.activationCycle
  | 15 => pack [(0, s.upstreamNumber), (15, s.roll.upstream.isSome.toNat)]
  | 16 => pack [(0, flagBits fun b => s.rx[b].readyNew), (8, flagBits fun b => s.rx[b].hold)]
  | 33 => pack [(0, s.pub[0].posted.toNat), (1, s.pub[1].posted.toNat), (2, s.pub[2].posted.toNat), (3, s.pub[3].posted.toNat)]
  | 38 => pack [(0, flagBits s.pinIsOutput), (8, flagBits s.pinLevel)]
  | 39 => s.pendingCauses
  | 40 => s.maskWord
  | _ =>
    if 17 ≤ i ∧ i ≤ 32 then halfWord s.rx[Fin.ofNat 8 ((i - 17) / 2)].frontStamp ((i - 17) % 2)
    else if 34 ≤ i ∧ i ≤ 37 then
      pack [(0, s.sched.mailboxes[Fin.ofNat 8 (2 * (i - 34))].stateByte),
        (8, s.sched.mailboxes[Fin.ofNat 8 (2 * (i - 34) + 1)].stateByte)]
    else 0

/-! ### The census mirror -/

/-- Words 0 to 2 of the mirror; words 1 and 2 read zero where the census cycle is none (assumption log 25). -/
def State.censusHeadWord (s : State) (i : Nat) : Word :=
  match i with
  | 0 => pack [(0, s.roll.anonymous.toNat), (15, s.roll.censusCycle.isSome.toNat)]
  | _ =>
    match s.roll.censusCycle with
    | some c => halfWord c (i - 1)
    | none => 0

/-- Word `i` of a census record; a NEVER_SEEN record reads zero in its optional fields (12.3). -/
def CensusRecord.wordAt (r : CensusRecord) (i : Nat) : Word :=
  match i with
  | 0 =>
    match r.listing with
    | some l =>
      pack [(0, r.presence.code), (2, l.status.code), (4, l.portWUp.toNat), (5, l.portEUp.toNat), (6, l.wrapped.toNat),
        (8, l.position.val)]
    | none => pack [(0, r.presence.code)]
  | 1 => pack [(0, r.missing.toNat), (8, r.timesLost.toNat)]
  | _ =>
    match r.listing with
    | some l => if i < 4 then halfWord l.firstSeen (i - 2) else halfWord l.lastSeen (i - 4)
    | none => 0

/-! ### The windows -/

/-- Word `i` of a mailbox window; absent parts read zero (R94, 12.3). -/
def Mailbox.windowWord (m : Mailbox) (i : Nat) : Word :=
  if i < 50 then m.message.toList.getD i 0
  else if i = 50 then pack [(0, m.stateByte)]
  else
    match m.state with
    | .inFlight f _ => flightWord f i
    | .done _ (some f) => flightWord f i
    | _ => 0
where
  /-- Words 51 to 54: index and presence, fill cycle, tag. -/
  flightWord (f : Flight) (i : Nat) : Word :=
    if i = 51 then pack [(0, f.index.val), (15, 1)]
    else if i = 52 then highWord f.cycle
    else if i = 53 then lowWord f.cycle
    else if i = 54 then f.tag.setWidth 16
    else 0

/-- Word `i` of the inbound window: the count, then the oldest record; zero where the queue is empty (R100). Payload byte 2k
stands in the high byte of word 6 + k, as in a mailbox (assumption log 35). -/
def State.inboundWord (s : State) (i : Nat) : Word :=
  match s.inbound with
  | [] => 0
  | r :: rest =>
    if i = 0 then BitVec.ofNat 16 (rest.length + 1)
    else if i = 1 then pack [(0, r.source.toNat), (15, r.broadcast.toNat)]
    else if i = 2 then r.tag.setWidth 16
    else if i = 3 then r.length.setWidth 16
    else if i = 4 then highWord r.arrival
    else if i = 5 then lowWord r.arrival
    else if i < 54 then word16 (r.payload.toList.getD (2 * (i - 6)) 0) (r.payload.toList.getD (2 * (i - 6) + 1) 0)
    else 0

/-- Word `i` of the stamp window (R157). -/
def State.stampWord (s : State) (i : Nat) : Word :=
  if i = 0 then pack [(0, s.sig.stamps.length), (15, s.sig.overflow.toNat)]
  else
    match s.sig.stamps with
    | [] => 0
    | r :: _ =>
      if i = 1 then BitVec.ofNat 16 r.channel.val
      else if i = 2 then highWord r.cycle
      else if i = 3 then lowWord r.cycle
      else if i = 4 then r.offset
      else 0

/-- What a read at an address returns, in any state (R162). -/
def State.lspRead (s : State) (a : Word) : Word :=
  match region a with
  | .status i => s.statusWord i
  | .censusHead i => s.censusHeadWord i.val
  | .census st i => s.roll.census[st].wordAt i.val
  | .rxWindow b w => s.rx[b].frontBuf[w]
  | .bankControl b => pack [(0, s.rx[b].hold.toNat)]
  | .pubWindow p w => s.pub[p].draft[w]
  | .mailbox m i => s.sched.mailboxes[m].windowWord i
  | .inbound i => s.inboundWord i
  | .stamp i => s.stampWord i
  | .mask => s.maskWord
  | .action => pack [(0, s.lsp.report.code)]
  | .unmapped => 0

/-- The address after `n` words of a burst (R161). -/
def addressAfter (a : Word) : Nat → Word
  | 0 => a
  | n + 1 => addressAfter (nextAddress a) n

/-- The words of a read burst of `n` words from an address (R161). -/
def State.burstWords (s : State) (a : Word) : Nat → List Word
  | 0 => []
  | n + 1 => s.lspRead a :: s.burstWords (nextAddress a) n

end Sys2Proof.Machine
end

