-- ==== Sys2Proof/Machine/Capture.lean ====
section
/-! DEFINITION. The publish unit's decision on a block (R75, R76, R79), the capture unit (R43 to R46), and what it does at a
close: completeness, aging, clearing (R47 to R50). -/

namespace Sys2Proof.Machine

def SubEntry.offset (e : SubEntry) : Nat := 8 * e.slot.val

def PubEntry.offset (e : PubEntry) : Nat := 8 * e.slot.val

/-! ### Publishing -/

/-- Whether an entry's mode lets it write in this train (R75, R79). -/
def State.mayPublish (s : State) (e : PubEntry) : Bool :=
  match e.mode with
  | .continuous => true
  | .onPost => s.pub[e.bank].postedNow

/-- Eight words of a LIVE buffer from word `off` on (R72). -/
def liveWords (b : PubBank) (off : Nat) : Vector Word 8 := Vector.ofFn fun i => b.live.toList.getD (off + i.val) 0

/-- What one entry writes: each segment of its range from the corresponding words of its bank's LIVE buffer (R73, R76). -/
def State.entryWrites (s : State) (e : PubEntry) : List SegWrite :=
  (List.range e.count.val).map fun j => ⟨e.first.val + j, liveWords s.pub[e.bank] (e.offset + 8 * j)⟩

/-- What the publish unit writes into a block that it writes into, decided as the block's number arrives (R75). -/
def State.publishWrites (s : State) (number : Byte) : List SegWrite :=
  (s.mgmt.active.pubs.toList.filter fun e => e.valid && decide (e.block.val = number.toNat) && s.mayPublish e).flatMap
    s.entryWrites

/-! ### Capture -/

/-- Whether an entry is fresh in a captured block, from both write maps as they leave the tap (R46). -/
def freshIn (f : BlockFrame) (publisher : Station) : Bool :=
  let maps := f.thisMap ||| f.lastMap
  if publisher = 63#6 then decide (maps ≠ 0) else maps.getLsbD publisher.toNat

/-- Whether an active entry takes part in a block (R43). -/
def State.subscribes (s : State) (e : Fin 32) (f : BlockFrame) : Bool :=
  s.mgmt.active.subs[e].valid && decide (s.mgmt.active.subs[e].block.val = f.number.toNat)

/-- One entry captured from a good block: its range into the FILL buffer of its bank, and its per-cycle flags (R44, R46). -/
def State.captureEntry (f : BlockFrame) (s : State) (e : Fin 32) : State :=
  if s.subscribes e f then
    let x := s.mgmt.active.subs[e]
    let b := s.rx[x.bank]
    let buf := Buffer.writeRange (b.buf b.fill) x.offset (8 * x.count.val) fun i => f.word (8 * x.first.val + i)
    { s with
      rx := upd s.rx x.bank (b.setBuf b.fill buf)
      subs := upd s.subs e { s.subs[e] with captured := true, freshNow := freshIn f x.publisher } }
  else s

/-- Every entry that takes part is captured from the frame as it leaves the publish unit (R43, R44, R83). -/
def State.captureBlock (s : State) (f : BlockFrame) : State := (List.finRange 32).foldl (State.captureEntry f) s

/-! ### At a close -/

/-- Whether a valid entry names bank `b` (R48). -/
def State.owed (s : State) (b : Fin 8) : Bool :=
  (List.finRange 32).any fun e => s.mgmt.active.subs[e].valid && decide (s.mgmt.active.subs[e].bank = b)

/-- Whether every valid entry that names bank `b` has captured this cycle (R48). -/
def State.allCaptured (s : State) (b : Fin 8) : Bool :=
  (List.finRange 32).all fun e =>
    !(s.mgmt.active.subs[e].valid && decide (s.mgmt.active.subs[e].bank = b)) || s.subs[e].captured

/-- A completion of bank `b`: R60 in its order, BANK_READY(b) before the auto-take (R61). -/
def State.completeBank (s : State) (b : Fin 8) : State :=
  let s1 : State := { s with rx := upd s.rx b (s.rx[b].complete s.trk.lastCycle) }
  let s2 := s1.raise (.bankReady b)
  if s2.rx[b].hold then s2 else { s2 with rx := upd s2.rx b (s2.rx[b].requestTake (s2.readBurst b)) }

/-- The judgement of one bank (R48). -/
def State.judgeBank (s : State) (b : Fin 8) : State :=
  if s.owed b then
    if s.allCaptured b then s.completeBank b
    else s.count fun c => { c with fillFailures := satInc c.fillFailures }
  else s

def State.judgeBanks (s : State) : State := (List.finRange 8).foldl State.judgeBank s

/-- The record of an entry that was fresh this cycle (R49). -/
def SubRecord.agedFresh (r : SubRecord) (cycle : Cycle) : SubRecord :=
  { r with freshness := .fresh, age := 0, lastFresh := some cycle }

/-- The record of an entry that was not (R50). -/
def SubRecord.agedOlder (r : SubRecord) (limit : Byte) : SubRecord :=
  let age := satInc r.age
  { r with age := age, freshness := if limit < age then .stale else r.freshness }

/-- The aging of one valid entry, with its events (R49, R50). -/
def State.ageEntry (s : State) (e : Fin 32) : State :=
  let x := s.mgmt.active.subs[e]
  let r := s.subs[e]
  if x.valid then
    if r.freshNow then
      let s1 : State := { s with subs := upd s.subs e (r.agedFresh s.trk.lastCycle) }
      if r.freshness = .fresh then s1 else s1.raise (.subFresh e)
    else
      let r' := r.agedOlder x.ageLimit
      let s1 : State := { s with subs := upd s.subs e r' }
      if r.freshness ≠ .stale ∧ r'.freshness = .stale then
        ((s1.count fun c => { c with staleTransitions := satInc c.staleTransitions }).setSticky .stale).raise (.subStale e)
      else s1
  else s

def State.ageAll (s : State) : State := (List.finRange 32).foldl State.ageEntry s

/-- Both per-cycle flags of every record cleared (R47). -/
def State.clearCycleFlags (s : State) : State :=
  { s with subs := Vector.ofFn fun e => { s.subs[e] with captured := false, freshNow := false } }

end Sys2Proof.Machine
end

