-- ==== Sys2Proof/Machine/Mailboxes.lean ====
section
/-! DEFINITION. The outbound scheduler's mailboxes: outcomes (R85 to R87, R97, R98), the choice of what fills a container (R91,
R92) and the fill (R93). -/

namespace Sys2Proof.Machine

def State.setMailbox (s : State) (m : Fin 8) (x : MailboxState) : State :=
  { s with sched := { s.sched with mailboxes := upd s.sched.mailboxes m { s.sched.mailboxes[m] with state := x } } }

def State.mailbox (s : State) (m : Fin 8) : Mailbox := s.sched.mailboxes[m]

/-- The flight record a state holds, absent in FREE and WAITING (R94). -/
def MailboxState.flight : MailboxState → Option Flight
  | .free => none
  | .waiting => none
  | .inFlight f _ => some f
  | .done _ f => f

/-- A mailbox's outcome is decided: DONE with it, its flight record kept, and an OUTCOME(m) event (R97). -/
def State.settle (s : State) (m : Fin 8) (o : MsgOutcome) : State :=
  (s.setMailbox m (.done o (s.mailbox m).state.flight)).raise (.outcome m)

/-- One mailbox at a first-pass header (R85): an IN_FLIGHT mailbox becomes due, and is settled UNCONFIRMED at once where the
cycle is not the fill cycle plus one, a count is out of range, or its container does not exist in this cycle. -/
def State.dueMailbox (h : HeaderFrame) (s : State) (m : Fin 8) : State :=
  match (s.mailbox m).state with
  | .inFlight f _ =>
    if h.cycle ≠ f.cycle + 1 ∨ 64 < h.blocks.toNat ∨ 8 < h.containers.toNat ∨ h.containers.toNat ≤ f.index.val then
      s.settle m .unconfirmed
    else s.setMailbox m (.inFlight f true)
  | _ => s

/-- The scheduler at a first-pass header: the fill count reset (R92), the outcomes due (R85). -/
def State.schedulerHeader (s : State) (h : HeaderFrame) : State :=
  (List.finRange 8).foldl (State.dueMailbox h) { s with sched := { s.sched with fills := 0 } }

/-- One mailbox at a close: UNCONFIRMED where it is due, and at a MISSED close where it is IN_FLIGHT at all (R87). -/
def State.closeMailbox (missed : Bool) (s : State) (m : Fin 8) : State :=
  match (s.mailbox m).state with
  | .inFlight _ due => if due || missed then s.settle m .unconfirmed else s
  | _ => s

def State.unconfirmedAtClose (s : State) (missed : Bool) : State := (List.finRange 8).foldl (State.closeMailbox missed) s

/-- One mailbox on entry into FAULTED (R98). -/
def State.abandonMailbox (s : State) (m : Fin 8) : State :=
  match (s.mailbox m).state with
  | .waiting => s.settle m .abandoned
  | .inFlight _ _ => s.settle m .abandoned
  | _ => s

/-- The tap enters FAULTED: the state changes and every WAITING and IN_FLIGHT mailbox is abandoned (R38, R98). -/
def State.enterFaulted (s : State) : State :=
  (List.finRange 8).foldl State.abandonMailbox (s.setTapState .faulted)

/-! ### A mailbox's message part (12.3) -/

/-- Destination: low byte of word 0. -/
def Mailbox.dest (m : Mailbox) : Byte := m.message[0].extractLsb' 0 8

/-- Class: high byte of word 0. -/
def Mailbox.cls (m : Mailbox) : Byte := m.message[0].extractLsb' 8 8

def Mailbox.length (m : Mailbox) : Word := m.message[1]

/-- Payload byte k: byte 2j in the high byte of word 2+j. -/
def Mailbox.payloadByte (m : Mailbox) (k : Nat) : Byte :=
  let w := m.message.toList.getD (2 + k / 2) 0
  if k % 2 = 0 then w.extractLsb' 8 8 else w.extractLsb' 0 8

/-- The checks of SEND on the message (R95). -/
def State.sendable (s : State) (m : Mailbox) : Bool :=
  decide (m.dest.toNat ≤ 63) && decide (m.dest ≠ stationByte s.rst.station) && decide (m.cls = 0x02#8) &&
    decide (m.length.toNat ≤ 96)

/-! ### Filling -/

def MailboxState.isWaiting : MailboxState → Bool
  | .waiting => true
  | _ => false

/-- Whether the scheduler may fill from a mailbox: ONLINE or HALTED, and the count below the quota (R91, R92). -/
def State.userFillAllowed (s : State) (t : TapState) : Bool :=
  (decide (t = .online) || decide (t = .halted)) && decide (s.sched.fills < s.mgmt.active.params.fillQuota.toNat)

def State.waiting (s : State) (m : Fin 8) : Bool := (s.mailbox m).state.isWaiting

/-- The order of rotation: upwards from the mailbox after the pointer, the pointer's own last (R91). -/
def rotation (p : Fin 8) : List (Fin 8) := (List.range 8).map fun i => Fin.ofNat 8 (p.val + 1 + i)

/-- The mailbox that fills, and whether the rotating pointer moves to it (R91): the urgent mailbox, or the next by the
active order. -/
def State.chooseMailbox (s : State) : Option (Fin 8 × Bool) :=
  let other : Option (Fin 8 × Bool) :=
    match s.mgmt.active.params.order with
    | .fixed => ((List.finRange 8).find? s.waiting).map fun m => (m, false)
    | .rotating => ((rotation s.sched.pointer).find? s.waiting).map fun m => (m, true)
  match s.mgmt.active.params.urgent with
  | some u => if s.waiting u then some (u, false) else other
  | none => other

/-- The container a mailbox fills (R93). -/
def filledFromMailbox (index : Byte) (own : Station) (m : Mailbox) (tag : Byte) : ContainerFrame where
  index := index
  dest := stationByte (stationOf m.dest)
  state := 1
  flight := 0
  refused := 0
  source := stationByte own
  cls := 0x02#8
  tag := tag
  length := m.length.setWidth 8
  payload := Vector.ofFn fun k => if k.val < m.length.toNat then m.payloadByte k.val else 0

/-- A fill from mailbox `m`: IN_FLIGHT with its flight record, the tag counter advanced, the fill counted (R92, R93). -/
def State.fillFromMailbox (s : State) (index : Fin 8) (m : Fin 8) (moves : Bool) : State :=
  let f : Flight := ⟨index, s.trk.lastCycle, s.sched.tagCounter⟩
  let s1 := s.setMailbox m (.inFlight f false)
  let s2 : State :=
    { s1 with
      sched := { s1.sched with
        fills := s1.sched.fills + 1
        tagCounter := s1.sched.tagCounter + 1
        pointer := if moves then m else s1.sched.pointer } }
  s2.count fun c => { c with userFilled := satInc c.userFilled }

/-- The container a response fills (R93). -/
def filledFromResponse (index : Byte) (own : Station) (r : Response) : ContainerFrame where
  index := index
  dest := stationByte r.dest
  state := 1
  flight := 0
  refused := 0
  source := stationByte own
  cls := 0x01#8
  tag := r.tag
  length := BitVec.ofNat 8 r.payload.length
  payload := Vector.ofFn fun k => r.payload.getD k.val 0

/-- The oldest response leaves the queue for container `index`; the management unit is told where the response of a RESTART
was placed (R93, R124). -/
def State.fillFromResponse (s : State) (index : Fin 8) (r : Response) (rest : List Response) : State :=
  { s with
    mgmt := { s.mgmt with
      responses := rest
      pendingRestart :=
        if r.restarts then s.mgmt.pendingRestart.map fun x => { x with placed := some index } else s.mgmt.pendingRestart } }

/-- The oldest response whose request was not taken from this container in this pass, and the queue without it (R91).
`took` says that a request was just taken, so that the newest response is not eligible. -/
def eligibleResponse (q : List Response) (took : Bool) : Option (Response × List Response) :=
  match q with
  | [] => none
  | [r] => if took then none else some (r, [])
  | r :: rest => some (r, rest)

/-- The fill step on an EMPTY container (R91), with the tap state sampled when the container had been received (R37). -/
def State.fillStep (s : State) (t : TapState) (took : Bool) (index : Fin 8) (f : ContainerFrame) : State × ContainerFrame :=
  match eligibleResponse s.mgmt.responses took with
  | some (r, rest) => (s.fillFromResponse index r rest, filledFromResponse f.index s.rst.station r)
  | none =>
    if s.userFillAllowed t then
      match s.chooseMailbox with
      | some (m, moves) =>
        (s.fillFromMailbox index m moves, filledFromMailbox f.index s.rst.station (s.mailbox m) s.sched.tagCounter)
      | none => (s, f)
    else (s, f)

end Sys2Proof.Machine
end

