-- ==== Sys2Proof/Machine/Roll.lean ====
section
/-! DEFINITION. The roll and census unit: the append (R125 to R129) and the census update (R130 to R133). -/

namespace Sys2Proof.Machine

/-! ### The append -/

/-- The roll decision of R126. -/
inductive RollDecision where
  | nothing
  | duplicate
  | overflow
  | ownAppend
  | anonymousAppend
  deriving DecidableEq, Repr

/-- The arriving open entries: slots 0 to count - 1. -/
def openEntries (f : RollFrame) : List RollEntry := f.slots.toList.take f.openCount.toNat

/-- The table of R126, the duplicate test before the overflow test. -/
def rollDecision (t : TapState) (own : Station) (f : RollFrame) : RollDecision :=
  match t with
  | .bypass => .nothing
  | .faulted => if f.openCount.toNat < 63 then .anonymousAppend else .overflow
  | .unconfigured | .online | .halted =>
    if (openEntries f).any fun x => decide (stationOf x.station = own) then .duplicate
    else if f.openCount.toNat < 63 then .ownAppend
    else .overflow

/-- The status code of an own entry: the roll status equal to the tap state (R126, 12.1). -/
def rollStatusCode : TapState → Nat
  | .bypass => 0
  | .unconfigured => 0
  | .online => 1
  | .halted => 2
  | .faulted => 3

/-- Lane health: each port's monitor UP, and wrapped in WRAP_W or WRAP_E (R126). -/
def State.isUp (s : State) (p : Port) : Bool := decide ((s.unit p).monitor = .up)

def State.isWrapped (s : State) : Bool := decide (s.wrapState = .wrapW) || decide (s.wrapState = .wrapE)

/-- The sample taken as the open count arrives (R125). -/
def State.rollSample (s : State) : RollSample := ⟨s.ctl.tapState, s.isUp .w, s.isUp .e, s.isWrapped⟩

/-- The status byte of an entry: status in bits 2:0, Port W up in bit 4, Port E up in bit 5, wrapped in bit 6 (12.1). -/
def RollSample.statusByte (x : RollSample) (code : Nat) : Byte :=
  BitVec.ofNat 8 (code + 16 * x.portWUp.toNat + 32 * x.portEUp.toNat + 64 * x.wrapped.toNat)

/-- The entry the tap appends: its own, or in FAULTED the anonymous one (R126). -/
def RollSample.entry (x : RollSample) (own : Station) (d : RollDecision) : RollEntry :=
  match d with
  | .anonymousAppend => ⟨63, x.statusByte 3⟩
  | _ => ⟨stationByte own, x.statusByte (rollStatusCode x.tapState)⟩

def RollDecision.appends : RollDecision → Bool
  | .ownAppend => true
  | .anonymousAppend => true
  | _ => false

/-- The frame with an entry in slot k and the count k + 1 (R126); every other entry leaves cleaned. -/
def appendEntry (f : RollFrame) (x : RollEntry) : RollFrame :=
  { f with
    closed := f.closed.map RollEntry.cleaned
    openCount := f.openCount + 1
    slots := Vector.ofFn fun i => if i.val = f.openCount.toNat then x else f.slots[i].cleaned }

/-- The station number in slot k - 1 as the frame arrived, none where k is 0 (R129). -/
def upstreamOf (f : RollFrame) : Option Station := (openEntries f).getLast?.map fun x => stationOf x.station

/-- What a decision does at the end of a good ROLL (R127): the upstream neighbour, the overflow count, or FAULTED. -/
def State.rollEffect (s : State) (d : RollDecision) (f : RollFrame) : State :=
  match d with
  | .nothing => s
  | .ownAppend => { s with roll := { s.roll with upstream := upstreamOf f } }
  | .anonymousAppend => { s with roll := { s.roll with upstream := upstreamOf f } }
  | .overflow => s.count fun c => { c with rollOverflows := satInc c.rollOverflows }
  | .duplicate => s.enterFaulted

/-! ### The census -/

def rollStatusOf (c : BitVec 3) : RollStatus :=
  if c = 0 then .unconfigured else if c = 1 then .online else if c = 2 then .halted else .faulted

/-- The slot of a station's first entry in a closed roll (R131). -/
def listedAt (closed : List RollEntry) (st : Fin 63) : Option Nat :=
  closed.findIdx? fun x => decide ((stationOf x.station).toNat = st.val)

/-- A station's record where the closed roll lists it, at slot i with entry x (R131). -/
def CensusRecord.listed (r : CensusRecord) (x : RollEntry) (i : Nat) (cycle : Cycle) : CensusRecord where
  presence := .present
  listing := some
    { status := rollStatusOf x.code
      portWUp := x.status.getLsbD 4
      portEUp := x.status.getLsbD 5
      wrapped := x.status.getLsbD 6
      position := Fin.ofNat 63 i
      firstSeen := match r.listing with
        | some l => l.firstSeen
        | none => cycle
      lastSeen := cycle }
  missing := 0
  timesLost := r.timesLost

/-- A station's record where the closed roll does not list it (R132). -/
def CensusRecord.unlisted (r : CensusRecord) (threshold : Byte) : CensusRecord :=
  match r.presence with
  | .neverSeen => r
  | .lost => r
  | .present | .missing =>
    let m := satInc r.missing
    if threshold ≤ m then { r with missing := m, presence := .lost, timesLost := satInc r.timesLost }
    else { r with missing := m, presence := .missing }

/-- The update of one record. -/
def CensusRecord.update (r : CensusRecord) (closed : List RollEntry) (st : Fin 63) (cycle : Cycle) (threshold : Byte) :
    CensusRecord :=
  match listedAt closed st with
  | some i => r.listed (closed.getD i ⟨0, 0⟩) i cycle
  | none => r.unlisted threshold

/-- Every record after an update from a closed roll (R131, R132). -/
def State.nextCensus (s : State) (closed : List RollEntry) : Vector CensusRecord 63 :=
  Vector.ofFn fun st => s.roll.census[st].update closed st s.trk.lastCycle s.mgmt.active.params.lostThreshold

/-- How many anonymous entries a closed roll lists (R131). -/
def anonymousCount (closed : List RollEntry) : BitVec 6 :=
  BitVec.ofNat 6 (closed.countP fun x => decide (stationOf x.station = 63#6))

/-- The records, the anonymous count and the census cycle of an update (R131 to R133). -/
def State.withCensus (s : State) (closed : List RollEntry) : State :=
  { s with
    roll := { s.roll with
      census := s.nextCensus closed
      anonymous := anonymousCount closed
      censusCycle := some s.trk.lastCycle } }

/-- Whether the update changes some presence (R133). -/
def State.presenceChanges (s : State) (closed : List RollEntry) : Bool :=
  (List.finRange 63).any fun st => decide ((s.nextCensus closed)[st].presence ≠ s.roll.census[st].presence)

/-- The census update at a close, with one CENSUS_CHANGE where a presence changed (R131 to R133). -/
def State.updateCensus (s : State) (closed : List RollEntry) : State :=
  if s.presenceChanges closed then (s.withCensus closed).raise .censusChange else s.withCensus closed

end Sys2Proof.Machine
end

