-- ==== Sys2Proof/Machine/Close.lean ====
section
/-! DEFINITION. The close of a cycle, as one operation (R33, R47, R87, R124, R131). -/

namespace Sys2Proof.Machine

/-- The kinds of close (R33). -/
inductive CloseKind where
  | good
  | defective
  | aborted
  | missed
  deriving DecidableEq, Repr

/-- The count each close makes (R33). -/
def CloseKind.tally (k : CloseKind) (c : TapCounters) : TapCounters :=
  match k with
  | .good => c
  | .defective => { c with trainsDefective := satInc c.trainsDefective }
  | .aborted => { c with trainsAborted := satInc c.trainsAborted }
  | .missed => { c with cyclesMissed := satInc c.cyclesMissed }

/-- Whether a close judges the banks of a train that began ONLINE (R48). -/
def CloseKind.judges : CloseKind → Bool
  | .good => true
  | .defective => true
  | .aborted => false
  | .missed => false

/-- The train record ends: IDLE, and the gap timer stops (R30, R33). -/
def State.endRecord (s : State) : State :=
  { s with trk := { s.trk with record := .idle, expected := none, defect := false, gapTimer := none } }

/-- The management unit counts the close while a restart is pending, up to 2 (R104, R124). -/
def State.countRestartClose (s : State) : State :=
  { s with
    mgmt := { s.mgmt with
      pendingRestart := s.mgmt.pendingRestart.map fun x => { x with closes := min 2 (x.closes + 1) } } }

/-- The pulse a close raises (R33). -/
def State.closePulse (s : State) (k : CloseKind) : State :=
  match k with
  | .good => s.raise .trainGood
  | .defective => s.raise .trainBad
  | .aborted => s.raise .trainBad
  | .missed => s

/-- A close of kind `k`; `closed` is the closed roll of a ROLL with a good check that was well formed (R131). The order of
the blocks is assumption log 8. -/
def State.close (s : State) (k : CloseKind) (closed : Option (List RollEntry)) : State :=
  let s := s.count k.tally
  let s := if k.judges && s.trk.beganOnline then s.judgeBanks else s
  let s := s.ageAll
  let s := s.clearCycleFlags
  let s := match closed with
    | some l => s.updateCensus l
    | none => s
  let s := s.unconfirmedAtClose (decide (k = .missed))
  let s := s.countRestartClose
  let s := if k = .missed then s else s.endRecord
  s.closePulse k

end Sys2Proof.Machine
end

