-- ==== Sys2Proof/Machine/Ports.lean ====
section
/-! DEFINITION. The port units and the lane switch: the receive monitor (R135 to R138), leaving service and returning (R139 to
R142), the transmit arbiter (R145) and the segment test (R146, R147); and the commands that act on them. -/

namespace Sys2Proof.Machine

def bothPorts : List Port := [.w, .e]

def State.inBypass (s : State) : Bool := decide (s.ctl.tapState = .bypass)

/-! ### Counters of a port (R148) -/

def PortUnit.count (u : PortUnit) (f : PortCounters → PortCounters) : PortUnit := { u with counters := f u.counters }

def State.countPort (s : State) (p : Port) (f : PortCounters → PortCounters) : State := s.modUnit p fun u => u.count f

/-- What a received frame counts at its port: frames received and its outcome (R12), and an unknown kind (R11). -/
def PortCounters.received (c : PortCounters) (check : Check) (unknown : Bool) : PortCounters :=
  { c with
    frames := satInc c.frames
    lineErrors := if check = .bad then satInc c.lineErrors else c.lineErrors
    passedBad := if check = .stomped then satInc c.passedBad else c.passedBad
    unknownKind := if unknown then satInc c.unknownKind else c.unknownKind }

/-! ### Frames in progress -/

/-- The frame in progress at a port ends early: it is counted as a bad frame, its copy ends at the same point, stomped (R3,
R12, R32), and one publish lost is counted where it was a BLOCK the publish unit had decided to write into (R78, assumption log
37). -/
def State.endPartial (s : State) (p : Port) : State :=
  match (s.unit p).arriving with
  | none => s
  | some a =>
    let s1 := s.modUnit p fun u => { u.count (·.received .bad (decide (a.lead = .unknown))) with arriving := none }
    match a.out with
    | some out =>
      let s2 := s1.sendOut out ⟨.cut a.lead, false, false⟩
      if a.writes.isEmpty then s2 else s2.countPublishLost
    | none => s1

/-- The copy of the frame arriving at `q`, if it is leaving by the failed port `p`, is cut short there and goes nowhere else
(R140), and one publish lost is counted where it was a written BLOCK (R78, assumption log 37). Nothing of it has left while an ECHO is being sent
there, nor of a container, which is received whole before it is sent (assumption log 24). -/
def State.cutFrom (p : Port) (s : State) (q : Port) : State :=
  match (s.unit q).arriving with
  | none => s
  | some a =>
    if a.out = some p then
      let s1 := if a.lead = .container ∨ (s.unit p).tx.isSome then s else s.emit p (.cut a.lead)
      let s2 := if a.writes.isEmpty then s1 else s1.countPublishLost
      s2.modUnit q fun u => { u with arriving := some { a with out := none } }
    else s

/-- Each written BLOCK in the elastic buffer of a failed port counts one publish lost (R78, R140). -/
def State.loseHeld (s : State) (h : HeldFrame) : State := if h.written then s.countPublishLost else s

/-- Everything on its way out of a failed port is cut short or discarded (R140). -/
def State.cutOutputs (s : State) (p : Port) : State :=
  let s1 := bothPorts.foldl (State.cutFrom p) s
  let s2 := (s1.unit p).elastic.foldl State.loseHeld s1
  let s3 := if (s2.unit p).tx.isSome then s2.emit p (.cut .echo) else s2
  s3.modUnit p fun u => { u with tx := none, elastic := [] }

/-! ### The receive monitor -/

/-- The monitor's entry into DOWN (R136); a return it was waiting for is withdrawn (R142), a waiting reply is dropped (R145),
an over-turn discard ends (R143). -/
def PortUnit.enterDown (u : PortUnit) (cause : DownCause) (now : Nat) : PortUnit :=
  { u with
    monitor := .down
    cause := cause
    hold := some (now + downHoldTime)
    qual := none
    discard := false
    returnReady := false
    returnAccepted := false
    waitingReply := none }

/-- A port leaves service (R139). -/
def State.leaveService (s : State) (p : Port) : State :=
  if (s.unit p).inService then
    let s1 := if s.wrapState = .through then s.count fun c => { c with wrapsEntered := satInc c.wrapsEntered } else s
    (s1.modUnit p fun u => { u with inService := false }).ringChange
  else s

/-- A running segment test on the port ends ABORTED (R147). -/
def State.abortTest (s : State) (p : Port) : State :=
  if s.mgmt.segTest.state = .running ∧ s.mgmt.segTest.port = p then
    { s with mgmt := { s.mgmt with segTest := { s.mgmt.segTest with state := .aborted } } }
  else s

/-- The train record ends where it belongs to the port (R32). -/
def State.endTrainAt (s : State) (p : Port) : State :=
  match s.trk.record with
  | .inTrain q => if q = p then s.close .aborted none else s
  | .passing q => if q = p then s.endRecord else s
  | .idle => s

/-- A port's monitor leaves UP (R136, R139, R140, R145, R147, R32), in the order of assumption log 34. -/
def State.leaveUp (s : State) (p : Port) (cause : DownCause) : State :=
  let s := s.endPartial p
  let s := s.modUnit p fun u => (u.enterDown cause s.now).count fun c => { c with downs := satInc c.downs }
  let s := s.ringChange
  let s := s.leaveService p
  let s := s.cutOutputs p
  let s := s.abortTest p
  s.endTrainAt p

/-- A reason to go DOWN reaches the monitor (R136): from UP it leaves UP; from QUALIFYING it counts and raises nothing. -/
def State.goDown (s : State) (p : Port) (cause : DownCause) : State :=
  match (s.unit p).monitor with
  | .up => s.leaveUp p cause
  | .qualifying => s.modUnit p fun u => u.enterDown cause s.now
  | .down => s

/-- How many frames the error window holds, and how many line errors take the port down (R137). -/
def windowSize : Nat := 64
def windowLimit : Nat := 8

/-- The window with an outcome added, the oldest removed where it held 64. -/
def windowPush (w : List Bool) (error : Bool) : List Bool := (w ++ [error]).drop (w.length + 1 - windowSize)

/-- A frame's outcome is added to the error window of a port that is UP (R137). -/
def State.windowAdd (s : State) (p : Port) (error : Bool) : State :=
  if (s.unit p).monitor = .up then
    let w := windowPush (s.unit p).window error
    let s1 := s.modUnit p fun u => { u with window := w }
    if error ∧ windowLimit ≤ w.countP id then s1.leaveUp p .errors else s1
  else s

/-- Fit for return (R141). -/
def PortUnit.fit (u : PortUnit) : Bool := decide (u.monitor = .up) && decide (u.farEnd = some .idle)

/-- What a change of fitness does under the active policy (R142): a port that is not fit loses its return-ready flag and an
accepted return; under MANUAL a fit port out of service gets its flag, with a RING_CHANGE. -/
def State.refit (s : State) (p : Port) : State :=
  let u := s.unit p
  if u.fit then
    if s.mgmt.active.params.returnPolicy = .manual ∧ u.inService = false ∧ u.returnReady = false then
      (s.setUnit p { u with returnReady := true }).ringChange
    else s
  else s.setUnit p { u with returnReady := false, returnAccepted := false }

/-- The monitor becomes UP (R136). -/
def State.enterUp (s : State) (p : Port) : State :=
  let s := s.modUnit p fun u => { u with monitor := .up, window := [], qual := none }
  let s := s.ringChange
  s.refit p

/-- The condition of DOWN to QUALIFYING, judged afresh (R136). -/
def PortUnit.tryQualify (u : PortUnit) (now : Nat) : PortUnit :=
  if u.monitor = .down ∧ u.lock = true ∧ u.hold = none ∧ u.farEnd ≠ some .fault then
    { u with monitor := .qualifying, qual := some now }
  else u

def State.tryQualify (s : State) (p : Port) : State := s.modUnit p fun u => u.tryQualify s.now

/-- The active qualification time in microseconds. -/
def State.qualificationTime (s : State) : Nat := s.mgmt.active.params.qualification.toNat * millisecond

/-- What a port sends where it has no frame to send (R138). -/
inductive LineFill where
  | idle
  | wait
  | fault
  deriving DecidableEq, Repr

/-- What a port unit drives between frames, while it is in the path (R138). -/
def PortUnit.lineFill (u : PortUnit) : LineFill :=
  match u.monitor with
  | .up => .idle
  | .qualifying => .wait
  | .down => if u.lock = false ∨ (u.cause = .errors ∧ u.hold.isSome) then .fault else .wait

/-- What goes out of a port between frames, by what arrives at each port (`none`: no signal). In BYPASS the passive path carries
across what arrives at the other port, which the tap does not receive and so does not hold (R144, assumption log 19); elsewhere
the port unit's own fill goes out (R138). -/
def State.lineFill (s : State) (arriving : Port → Option LineFill) (p : Port) : Option LineFill :=
  if s.inBypass then arriving p.other else some (s.unit p).lineFill

/-! ### An activation (R136, R142) -/

/-- The change of the return policy at a port. -/
def State.newPolicy (old : ReturnPolicy) (s : State) (p : Port) : State :=
  match s.mgmt.active.params.returnPolicy with
  | .auto => s.modUnit p fun u => { u with returnReady := false, returnAccepted := false }
  | .manual => if old = .auto then s.refit p else s

/-- A qualification time that a port's timer has already passed makes it UP. -/
def State.newQualification (s : State) (p : Port) : State :=
  match (s.unit p).monitor, (s.unit p).qual with
  | .qualifying, some t => if t + s.qualificationTime ≤ s.now then s.enterUp p else s
  | _, _ => s

/-- Both ports take up the new policy, then the new qualification time, W before E each time (assumption log 7). -/
def State.activatePorts (s : State) (old : ReturnPolicy) : State :=
  bothPorts.foldl State.newQualification (bothPorts.foldl (State.newPolicy old) s)

/-! ### The monitor's commands -/

/-- R136: lock lost. Ignored in BYPASS, as are the other commands of the port units (R144). -/
def State.lockLost (s : State) (p : Port) : State :=
  let s := s.modUnit p fun u => { u with lock := false, farEnd := none }
  let s := s.endPartial p
  let s := s.goDown p .loss
  s.refit p

def execLockLost (dt : Nat) (p : Port) (s : State) : Result :=
  let s := s.elapse dt
  .next (if s.inBypass then s else s.lockLost p)

/-- R136: lock gained. -/
def State.lockGained (s : State) (p : Port) : State := (s.modUnit p fun u => { u with lock := true }).tryQualify p

def execLockGained (dt : Nat) (p : Port) (s : State) : Result :=
  let s := s.elapse dt
  .next (if s.inBypass then s else s.lockGained p)

/-- R135, R136: the far end's sending is recognised; nothing is while lock is lost. -/
def State.farEnd (s : State) (p : Port) (sig : FarSignal) : State :=
  if (s.unit p).lock then
    let s := s.modUnit p fun u => { u with farEnd := some sig }
    let s := if sig = .fault then s.goDown p .remote else s.tryQualify p
    s.refit p
  else s

def execFarEndRecognised (dt : Nat) (p : Port) (sig : FarSignal) (s : State) : Result :=
  let s := s.elapse dt
  .next (if s.inBypass then s else s.farEnd p sig)

/-- R136: the down hold expires. -/
def State.downHoldExpiry (s : State) (p : Port) : State :=
  match (s.unit p).hold with
  | some t => ((s.reach t).modUnit p fun u => { u with hold := none }).tryQualify p
  | none => s

def execDownHoldExpiry (dt : Nat) (p : Port) (s : State) : Result :=
  let s := s.elapse dt
  .next (if s.inBypass then s else s.downHoldExpiry p)

/-- R136: lock has been held for the qualification time. -/
def State.qualificationComplete (s : State) (p : Port) : State :=
  match (s.unit p).monitor, (s.unit p).qual with
  | .qualifying, some t => (s.reach (t + s.qualificationTime)).enterUp p
  | _, _ => s

def execQualificationComplete (dt : Nat) (p : Port) (s : State) : Result :=
  let s := s.elapse dt
  .next (if s.inBypass then s else s.qualificationComplete p)

/-! ### Returning to service -/

/-- A frame the tap forwards is in transit at the port: still being received for forwarding, or waiting to be sent (R141). -/
def PortUnit.inTransit (u : PortUnit) : Bool :=
  !u.elastic.isEmpty || match u.arriving with
    | some a => a.out.isSome
    | none => false

/-- A train gap (R141). -/
def State.trainGap (s : State) : Bool :=
  decide (s.trk.record = .idle) && !s.portW.inTransit && !s.portE.inTransit

/-- The port is due to return: fit, out of service, and under AUTO or with an accepted RETURN WRAP (R141, R142). -/
def State.dueToReturn (s : State) (p : Port) : Bool :=
  let u := s.unit p
  u.fit && !u.inService && (decide (s.mgmt.active.params.returnPolicy = .auto) || u.returnAccepted)

/-- R141: the port returns to service, with the change of wrap state (R139). -/
def State.returnService (s : State) (p : Port) : State :=
  (s.modUnit p fun u => { u with inService := true, returnReady := false, returnAccepted := false }).ringChange

def execReturnToService (dt : Nat) (p : Port) (s : State) : Result :=
  let s := s.elapse dt
  .next (if !s.inBypass && s.dueToReturn p && s.trainGap then s.returnService p else s)

/-! ### ECHO frames -/

/-- The pattern of request i: byte j is i + j modulo 256 (R146). -/
def echoPattern (i : Nat) : Vector Byte 32 := Vector.ofFn fun j => BitVec.ofNat 8 (i + j.val)

/-- Request number i (R146): direction REQUEST, sequence number i. -/
def echoRequest (i : Nat) : EchoFrame := ⟨0x00#8, BitVec.ofNat 8 i, echoPattern i⟩

/-- The reply to a request: the same sequence number and pattern (R10). -/
def echoReply (f : EchoFrame) : EchoFrame := { f with direction := 0x01#8 }

def State.setTest (s : State) (t : SegTest) : State := { s with mgmt := { s.mgmt with segTest := t } }

/-- The request in hand is decided: the next is prepared, or the test is DONE (R146). -/
def SegTest.decided (t : SegTest) : SegTest :=
  if t.request + 1 = t.n.toNat then { t with state := .done } else { t with request := t.request + 1, phase := .prepared }

/-- An ECHO REPLY at the port, judged by the table of R146 where the test there is in its wait; otherwise dropped. -/
def State.judgeReply (s : State) (p : Port) (f : EchoFrame) (check : Check) : State :=
  let t := s.mgmt.segTest
  match t.state, t.phase with
  | .running, .waiting _ =>
    if t.port = p then
      if check ≠ .good then s.setTest { t with bad := t.bad + 1 }.decided
      else if f.seq = BitVec.ofNat 8 t.request then
        if f.pattern = echoPattern t.request then s.setTest { t with good := t.good + 1 }.decided
        else s.setTest { t with bad := t.bad + 1 }.decided
      else s
    else s
  | _, _ => s

/-- An ECHO at a port that is UP (R10): a good REQUEST queues its reply, replacing one that waits (R145); a REPLY goes to the
segment test; any other direction is dropped (R169). -/
def State.receiveEcho (s : State) (p : Port) (f : EchoFrame) (check : Check) : State :=
  if (s.unit p).monitor = .up then
    if f.direction = 0x00#8 then
      if check = .good then s.modUnit p fun u => { u with waitingReply := some (echoReply f) } else s
    else if f.direction = 0x01#8 then s.judgeReply p f check
    else s
  else s

/-- Whether the frame arriving at a port is being sent out of `p`; a container is not yet (R3). -/
def PortUnit.sendingOut (u : PortUnit) (p : Port) : Bool :=
  match u.arriving with
  | some a => decide (a.out = some p) && decide (a.lead ≠ .container)
  | none => false

/-- A gap in forwarded traffic at the port (R145). -/
def State.echoGap (s : State) (p : Port) : Bool :=
  (s.unit p).elastic.isEmpty && !s.portW.sendingOut p && !s.portE.sendingOut p

/-- A segment test request waits for a gap at the port. -/
def State.requestReady (s : State) (p : Port) : Bool :=
  decide (s.mgmt.segTest.state = .running) && decide (s.mgmt.segTest.port = p) && decide (s.mgmt.segTest.phase = .prepared)

/-- R145: the arbiter starts the waiting reply, or else the test request. -/
def State.echoStart (s : State) (p : Port) : State :=
  match (s.unit p).waitingReply with
  | some f => s.modUnit p fun u => { u with tx := some (.reply f), waitingReply := none }
  | none =>
    if s.requestReady p then
      (s.modUnit p fun u => { u with tx := some (.request (echoRequest s.mgmt.segTest.request)) }).setTest
        { s.mgmt.segTest with phase := .sending }
    else s

/-- The port may start an ECHO: it is UP, sends none, and has a gap (R145). -/
def State.mayEcho (s : State) (p : Port) : Bool :=
  decide ((s.unit p).monitor = .up) && (s.unit p).tx.isNone && s.echoGap p

def execEchoTransmitStart (dt : Nat) (p : Port) (s : State) : Result :=
  let s := s.elapse dt
  .next (if !s.inBypass && s.mayEcho p then s.echoStart p else s)

/-- The ECHO being sent at a port has been sent in full; the frames it held back follow it (R145). -/
def State.echoSent (s : State) (p : Port) (f : EchoFrame) : State :=
  ((s.emit p (.whole (.echo f) (Frame.check (.echo f)))).modUnit p fun u => { u with tx := none }).flushElastic p

/-- R145: a reply has been sent in full. -/
def State.replySent (s : State) (p : Port) : State :=
  match (s.unit p).tx with
  | some (.reply f) => (s.echoSent p f).countPort p fun c => { c with echoReplies := satInc c.echoReplies }
  | _ => s

def execEchoReplySent (dt : Nat) (p : Port) (s : State) : Result := .next ((s.elapse dt).replySent p)

/-- R146: a request has been sent in full; echoes sent rises and the wait begins. -/
def State.requestSent (s : State) (p : Port) : State :=
  match (s.unit p).tx with
  | some (.request f) =>
    let t := s.mgmt.segTest
    (s.echoSent p f).setTest { t with sent := t.sent + 1, phase := .waiting (s.now + echoWaitTime) }
  | _ => s

def execEchoRequestSent (dt : Nat) (p : Port) (s : State) : Result := .next ((s.elapse dt).requestSent p)

/-- R146: the wait ends with no deciding reply. -/
def State.echoWaitExpiry (s : State) : State :=
  let t := s.mgmt.segTest
  match t.state, t.phase with
  | .running, .waiting d => (s.reach d).setTest { t with lost := t.lost + 1 }.decided
  | _, _ => s

def execEchoWaitExpiry (dt : Nat) (s : State) : Result := .next (s.elapse dt).echoWaitExpiry

end Sys2Proof.Machine
end

