-- ==== Sys2Proof/Machine/Tables.lean ====
section
/-! DEFINITION. The table sets: reading, staging and clearing an entry, the validation of a COMMIT, the manager set (R105, R113,
R115, R117). -/

namespace Sys2Proof.Machine

/-- One entry of a table, with its table. -/
inductive Entry where
  | sub (x : SubEntry)
  | pub (x : PubEntry)
  | channel (x : Source)
  | user (x : Option (Fin 12))
  | manager (x : Option (Fin 63))
  | params (x : Params)
  deriving DecidableEq, Repr

/-- The entry eight bytes encode; none where a field is out of range (R115, step 5). -/
def decodeEntry (t : Table) (v : Vector Byte 8) : Option Entry :=
  match t with
  | .subscription => (decodeSub v).map .sub
  | .publish => (decodePub v).map .pub
  | .channel => (decodeSource v).map .channel
  | .user => (decodeUser v).map .user
  | .manager => (decodeManager v).map .manager
  | .parameters => (decodeParams v).map .params

def Entry.encode : Entry → Vector Byte 8
  | .sub x => encodeSub x
  | .pub x => encodePub x
  | .channel x => encodeSource x
  | .user x => encodeUser x
  | .manager x => encodeManager x
  | .params x => encodeParams x

/-- Entry `i` of a table; `i` is below the table's number of entries. -/
def TableSet.entry (t : TableSet) (tab : Table) (i : Nat) : Entry :=
  match tab with
  | .subscription => .sub t.subs[Fin.ofNat 32 i]
  | .publish => .pub t.pubs[Fin.ofNat 16 i]
  | .channel => .channel t.channels[Fin.ofNat 12 i]
  | .user => .user t.users[Fin.ofNat 21 i]
  | .manager => .manager t.managers[Fin.ofNat 4 i]
  | .parameters => .params t.params

/-- The set with entry `i` of the entry's table replaced (R115). -/
def TableSet.setEntry (t : TableSet) (i : Nat) (e : Entry) : TableSet :=
  match e with
  | .sub x => { t with subs := upd t.subs (Fin.ofNat 32 i) x }
  | .pub x => { t with pubs := upd t.pubs (Fin.ofNat 16 i) x }
  | .channel x => { t with channels := upd t.channels (Fin.ofNat 12 i) x }
  | .user x => { t with users := upd t.users (Fin.ofNat 21 i) x }
  | .manager x => { t with managers := upd t.managers (Fin.ofNat 4 i) x }
  | .params x => { t with params := x }

/-- The set with every entry of one table in its cleared form (R105, R115). -/
def TableSet.clearTable (t : TableSet) (tab : Table) : TableSet :=
  match tab with
  | .subscription => { t with subs := Vector.replicate 32 SubEntry.cleared }
  | .publish => { t with pubs := Vector.replicate 16 PubEntry.cleared }
  | .channel => { t with channels := Vector.replicate 12 Source.none }
  | .user => { t with users := Vector.replicate 21 none }
  | .manager => { t with managers := Vector.replicate 4 none }
  | .parameters => { t with params := Params.default }

/-- Whether a station is in the manager set (R105, R107). -/
def TableSet.isManager (t : TableSet) (s : Station) : Bool :=
  t.managers.toList.any fun x => match x with
    | some m => decide (m.val = s.toNat)
    | none => false

/-! ### Validation (R41, R74, R117) -/

/-- The detail of INVALID_SET: table, index, reason. -/
structure Invalid where
  table : Table
  index : Nat
  reason : Nat
  deriving DecidableEq, Repr

/-- The reasons, as 12.2 codes them. -/
def doesNotFit : Nat := 1
def overlaps : Nat := 2
def pinConflict : Nat := 3
def emptyManagerSet : Nat := 4

/-- Two runs of words or segments have one in common. -/
def meets (a n b m : Nat) : Bool := decide (a < b + m) && decide (b < a + n)

def SubEntry.fits (e : SubEntry) : Bool := decide (8 * e.slot.val + 8 * e.count.val ≤ 128)

def SubEntry.shares (e f : SubEntry) : Bool :=
  decide (e.bank = f.bank) && meets (8 * e.slot.val) (8 * e.count.val) (8 * f.slot.val) (8 * f.count.val)

def PubEntry.fits (e : PubEntry) : Bool := decide (8 * e.slot.val + 8 * e.count.val ≤ 128)

def PubEntry.shares (e f : PubEntry) : Bool :=
  decide (e.block = f.block) && meets e.first.val e.count.val f.first.val f.count.val

/-- The first subscription entry that fails a condition; its fit is tested before its overlaps with lower entries. -/
def TableSet.invalidSub (t : TableSet) : Option Invalid :=
  (List.finRange 32).findSome? fun i =>
    let e := t.subs[i]
    if !e.valid then none
    else if !e.fits then some ⟨.subscription, i.val, doesNotFit⟩
    else if (List.finRange 32).any fun j => decide (j < i) && t.subs[j].valid && e.shares t.subs[j] then
      some ⟨.subscription, i.val, overlaps⟩
    else none

def TableSet.invalidPub (t : TableSet) : Option Invalid :=
  (List.finRange 16).findSome? fun i =>
    let e := t.pubs[i]
    if !e.valid then none
    else if !e.fits then some ⟨.publish, i.val, doesNotFit⟩
    else if (List.finRange 16).any fun j => decide (j < i) && t.pubs[j].valid && e.shares t.pubs[j] then
      some ⟨.publish, i.val, overlaps⟩
    else none

/-- A pin whose TRIG_OUT user follows a channel while some channel's source is its TRIGGER_IN. -/
def TableSet.invalidUser (t : TableSet) : Option Invalid :=
  (List.finRange 8).findSome? fun k =>
    if t.users[k.val].isSome && t.channels.toList.any fun x => decide (x = .triggerIn k) then
      some ⟨.user, k.val, pinConflict⟩
    else none

def TableSet.invalidManager (t : TableSet) : Option Invalid :=
  if t.managers.toList.any Option.isSome then none else some ⟨.manager, 0, emptyManagerSet⟩

/-- The first failure of the validation, table by table (R117); none where the set is valid. -/
def TableSet.firstInvalid (t : TableSet) : Option Invalid :=
  t.invalidSub <|> t.invalidPub <|> t.invalidUser <|> t.invalidManager

end Sys2Proof.Machine
end

