-- ==== Sys2Proof/Machine/Tracker.lean ====
section
/-! DEFINITION. The train tracker: positions (R21, R26, R27), bad frames (R28), the gap timer (R30), headers (R21 to R25), and the
activation of a committed set at a first-pass header (R118, R119). -/

namespace Sys2Proof

/-- The block and container counts are in range (R6). -/
def HeaderFrame.inRange (f : HeaderFrame) : Bool := decide (f.blocks.toNat ≤ 64) && decide (f.containers.toNat ≤ 8)

/-- The cycle period, substituted into 50 to 20000 (R6). -/
def HeaderFrame.periodTaken (f : HeaderFrame) : Nat := max 50 (min 20000 f.period.toNat)

/-- The cycle period is out of range, and R6 substitutes it. -/
def HeaderFrame.periodSubstituted (f : HeaderFrame) : Bool := decide (f.period.toNat < 50) || decide (20000 < f.period.toNat)

end Sys2Proof

namespace Sys2Proof.Machine

/-! ### Positions -/

/-- The position after block k of a train of `b` blocks and `c` containers (R26). -/
def afterBlock (b c : Byte) (k : Nat) : Position :=
  if k + 1 < b.toNat then .block (k + 1) else if 0 < c.toNat then .container 0 else .roll

/-- The position after container k (R27). -/
def afterContainer (c : Byte) (k : Nat) : Position := if k + 1 < c.toNat then .container (k + 1) else .roll

/-- The position a first-pass header sets (R21). -/
def firstPosition (f : HeaderFrame) : Position :=
  if !f.inRange then .unordered
  else if 0 < f.blocks.toNat then .block 0
  else if 0 < f.containers.toNat then .container 0
  else .roll

def State.modTrk (s : State) (f : Tracker → Tracker) : State := { s with trk := f s.trk }

def State.expect (s : State) (x : Position) : State := s.modTrk fun t => { t with expected := some x }

/-- An order defect (02, section 2.3). -/
def State.orderDefect (s : State) : State := s.modTrk fun t => { t with defect := true }

/-- A frame with a bad or stomped check takes the place of the expected frame (R28). -/
def State.badFrame (s : State) : State :=
  let s := s.orderDefect
  match s.trk.expected with
  | some (.block k) => s.expect (afterBlock s.trk.blocks s.trk.containers k)
  | some (.container k) => s.expect (afterContainer s.trk.containers k)
  | some .roll => s.close .defective none
  | some .unordered => s
  | none => s

/-! ### The gap timer (R30) -/

/-- The port the train record belongs to. -/
def TrainRecord.port : TrainRecord → Option Port
  | .idle => none
  | .inTrain p => some p
  | .passing p => some p

/-- The end of a frame at port `p` arms the timer where the record belongs to that port. -/
def State.armGap (s : State) (p : Port) : State :=
  if s.trk.record.port = some p then s.modTrk fun t => { t with gapTimer := some (s.now + gapTime) } else s

/-- A frame that begins to arrive at the record's port stops it. -/
def State.stopGap (s : State) (p : Port) : State :=
  if s.trk.record.port = some p then s.modTrk fun t => { t with gapTimer := none } else s

/-! ### Continuity and interval (R25) -/

/-- The header counts a discontinuity. -/
def Tracker.discontinuous (t : Tracker) (f : HeaderFrame) : Bool := t.valid && decide (f.cycle ≠ t.lastCycle + 1)

/-- The interval record with an interval added. -/
def addInterval (r : Option Interval) (x : Word) : Interval :=
  match r with
  | none => ⟨x, x, x⟩
  | some i => ⟨x, if x < i.minimum then x else i.minimum, if i.maximum < x then x else i.maximum⟩

/-- What enters the interval record at a first-pass header at time `now`: the substituted cycle period where the header's own is
out of range (R6), else the measured time since the header before it, if there is one (R25). That R6 decides for the headers it
speaks of is assumption log 36. -/
def Tracker.enteringInterval (t : Tracker) (f : HeaderFrame) (now : Nat) : Option Word :=
  if f.periodSubstituted then some (BitVec.ofNat 16 f.periodTaken)
  else t.lastHeader.map fun u => BitVec.ofNat 16 (min 65535 (now - u))

/-- The interval record after a first-pass header at time `now` (R6, R25). -/
def Tracker.nextInterval (t : Tracker) (f : HeaderFrame) (now : Nat) : Option Interval :=
  match t.enteringInterval f now with
  | some x => some (addInterval t.interval x)
  | none => t.interval

/-- The tracker after a first-pass header (R6, R21, R25), but for the gap timer and the sampled tap state. -/
def Tracker.firstPass (t : Tracker) (p : Port) (f : HeaderFrame) (now : Nat) : Tracker :=
  { t with
    lastCycle := f.cycle
    valid := true
    record := .inTrain p
    expected := some (firstPosition f)
    defect := !f.inRange
    blocks := f.blocks
    containers := f.containers
    lastPeriod := some f.periodTaken
    trainTimer := some (now + f.periodTaken + trainMargin)
    missed := 0
    cycleState := .running
    lastEpoch := some f.epoch
    interval := t.nextInterval f now
    lastHeader := some now }

/-! ### Activation -/

/-- The session whose commit is due at a header with this epoch (R118, R119). -/
def State.dueCommit (s : State) (epoch : Byte) : Option Session :=
  match s.mgmt.session with
  | some x =>
    match x.state with
    | .commitPending none => some x
    | .commitPending (some e) => if e = epoch then some x else none
    | .opened _ => none
  | none => none

/-- The cache pruned to a manager set (R108). -/
def pruneCache (cache : Vector (Option CachedResponse) 63) (t : TableSet) : Vector (Option CachedResponse) 63 :=
  Vector.ofFn fun i => if t.isManager (BitVec.ofNat 6 i.val) then cache[i] else none

/-- The tap state after an activation (R35). -/
def State.activateTapState (s : State) : State :=
  if s.ctl.tapState = .unconfigured then
    s.setTapState (if s.ctl.commandCause || s.ctl.pinCause then .halted else .online)
  else s

/-- The staged set becomes active (R119), and the other blocks take it up (R52, R66, R160, R136, R142). The order of the TABLES
event, the clearing of the banks and the port units is assumption log 7. -/
def State.activate (s : State) (x : Session) : State :=
  let old := s.mgmt.active
  let s : State :=
    { s with
      mgmt := { s.mgmt with
        active := x.staged
        session := none
        activation := some ⟨x.staged.id, s.trk.lastCycle⟩
        cache := pruneCache s.mgmt.cache x.staged } }
  let s := s.activateTapState
  let s : State := { s with subs := Vector.replicate 32 SubRecord.reset }
  let s := s.changeover old
  let s := (s.setSticky .tables).raise .tables
  let s : State := { s with rx := s.rx.map RxBank.clear }
  s.activatePorts old.params.returnPolicy

def State.activateDue (s : State) (epoch : Byte) : State :=
  match s.dueCommit epoch with
  | some x => s.activate x
  | none => s

/-! ### Headers -/

/-- Whether publish bank `p` swaps at a header (R70, R71). -/
def State.swaps (s : State) (p : Fin 4) : Bool := s.pub[p].posted && !s.writeBurst p

/-- The publish banks at a first-pass header: every bank is judged and swapped, then a POST_TAKEN event is raised for each that
was (R70; assumption log 7). In FAULTED they are left as they stand; in BYPASS there is no such header. -/
def State.publishHeader (s : State) : State :=
  match s.ctl.tapState with
  | .unconfigured | .online | .halted =>
    let s1 : State := { s with pub := Vector.ofFn fun p => s.pub[p].header (s.writeBurst p) }
    (List.finRange 4).foldl (fun t p => if s.swaps p then t.raise (.postTaken p) else t) s1
  | .bypass | .faulted => s

/-- A first-pass header at port `p` (R21, R22), in the order of assumption log 7. -/
def State.firstPass (s : State) (p : Port) (f : HeaderFrame) : State :=
  let jump := s.trk.discontinuous f
  let s := if jump then (s.count fun c => { c with discontinuities := satInc c.discontinuities }).setSticky .cycle else s
  let s := s.modTrk fun t => t.firstPass p f s.now
  let s : State := { s with sig := { s.sig with ref := some ⟨f.cycle, s.now⟩ } }
  let s := s.activateDue f.epoch
  let s := s.publishHeader
  let s : State := { s with rx := s.rx.map RxBank.startFill }
  let s := s.schedulerHeader f
  let s := s.raise .cycleStart
  let s := s.modTrk fun t => { t with beganOnline := decide (s.ctl.tapState = .online) }
  s.armGap p

/-- A header that begins a PASSING record (R23). -/
def State.beginPassing (s : State) (p : Port) (f : HeaderFrame) : State :=
  (s.modTrk fun t =>
    { t with record := .passing p, expected := none, defect := false, blocks := f.blocks, containers := f.containers }).armGap p

/-- Whether a good header's number is that of a new cycle (R21). -/
def State.newCycle (s : State) (f : HeaderFrame) : Bool := !s.trk.valid || decide (f.cycle ≠ s.trk.lastCycle)

/-- A good header taken while no train is in progress (R21, R23). -/
def State.takeHeader (s : State) (p : Port) (f : HeaderFrame) : State :=
  if s.newCycle f then s.firstPass p f else s.beginPassing p f

/-- A HEADER that the tracker sees (R21 to R24). -/
def State.trackHeader (s : State) (p : Port) (f : HeaderFrame) (check : Check) : State :=
  match s.trk.record with
  | .inTrain q =>
    if check = .good then
      if q = p then (s.close .aborted none).takeHeader p f
      else if s.newCycle f then (s.close .aborted none).firstPass p f
      else s
    else if q = p then s.badFrame.armGap p
    else s
  | .idle => if check = .good then s.takeHeader p f else s
  | .passing _ => if check = .good then s.takeHeader p f else s.armGap p

/-! ### The tracker's timers -/

/-- R30: the gap timer expires. -/
def State.gapTimerExpiry (s : State) : State :=
  match s.trk.gapTimer with
  | some t =>
    let s := s.reach t
    match s.trk.record with
    | .inTrain _ => s.close .aborted none
    | .passing _ => s.endRecord
    | .idle => s.modTrk fun t => { t with gapTimer := none }
  | none => s

def execGapTimerExpiry (dt : Nat) (s : State) : Result := .next (s.elapse dt).gapTimerExpiry

/-- R34: entering SILENT. -/
def State.enterSilent (s : State) : State :=
  ((s.modTrk fun t => { t with cycleState := .silent, valid := false }).setSticky .cycle).raise .cycleSilent

/-- A MISSED close with what R31 and R34 add to it: the missed-cycle count, and SILENT where it brings the count to the active
cycle-loss limit. -/
def State.missedClose (s : State) : State :=
  let s := s.close .missed none
  let s := s.modTrk fun t => { t with missed := satInc t.missed }
  if s.trk.missed = s.mgmt.active.params.cycleLoss ∧ s.trk.cycleState ≠ .silent then s.enterSilent else s

/-- The train timer armed again for the last period plus 100 µs (R31). -/
def State.rearmTrain (s : State) : State :=
  s.modTrk fun t => { t with trainTimer := t.lastPeriod.map fun x => s.now + x + trainMargin }

/-- R31: the train timer expires. -/
def State.trainTimerExpiry (s : State) : State :=
  match s.trk.trainTimer with
  | some t =>
    let s := s.reach t
    match s.trk.record with
    | .inTrain _ => s.rearmTrain
    | .idle => s.missedClose.rearmTrain
    | .passing _ => s.missedClose.rearmTrain
  | none => s

def execTrainTimerExpiry (dt : Nat) (s : State) : Result := .next (s.elapse dt).trainTimerExpiry

end Sys2Proof.Machine
end

