-- ==== Sys2Proof/Machine/Requests.lean ====
section
/-! DEFINITION. The management unit: taking a request (R106 to R109), the twenty requests and what answers a payload that is none
(R110 to R124, R54, R153). A command row of a request is its delivery by R89 (assumption log 11). -/

namespace Sys2Proof.Machine

/-- The status of a response (R106). -/
inductive Status where
  | ok
  | scheduled
  | busy
  | noSession
  | badCommand
  | badIndex
  | badField
  | invalidSet
  | badEpoch
  | notPermitted
  | refusedState
  | testBusy
  deriving DecidableEq, Repr

/-- The status codes (12.2). -/
def Status.code : Status → Byte
  | .ok => 0x00#8
  | .scheduled => 0x01#8
  | .busy => 0x02#8
  | .noSession => 0x03#8
  | .badCommand => 0x04#8
  | .badIndex => 0x05#8
  | .badField => 0x06#8
  | .invalidSet => 0x07#8
  | .badEpoch => 0x08#8
  | .notPermitted => 0x09#8
  | .refusedState => 0x0A#8
  | .testBusy => 0x0B#8

/-- What executing a request gives: the tap after it, the status, the results or the detail, and whether it is an accepted
RESTART. -/
structure Reply where
  state : State
  status : Status
  data : List Byte
  restarts : Bool
  deriving DecidableEq, Repr

/-- An answer that changes nothing. -/
def State.refuse (s : State) (x : Status) : Reply := ⟨s, x, [], false⟩

/-- An answer with results. -/
def State.answer (s : State) (data : List Byte) : Reply := ⟨s, .ok, data, false⟩

def State.modMgmt (s : State) (f : Management → Management) : State := { s with mgmt := f s.mgmt }

/-! ### Taking a request -/

def SessionState.isOpened : SessionState → Bool
  | .opened _ => true
  | .commitPending _ => false

/-- Every request from the owner of an OPEN session restarts its idle timer (R116). -/
def State.touchSession (s : State) (src : Station) : State :=
  match s.mgmt.session with
  | some x =>
    if x.owner = src ∧ x.state.isOpened then
      s.modMgmt fun m => { m with session := some { x with state := .opened (s.now + idleTime) } }
    else s
  | none => s

/-- A response joins the queue (R109). -/
def State.respond (s : State) (r : Response) : State := s.modMgmt fun m => { m with responses := m.responses ++ [r] }

/-- The cache record of a station (R108). -/
def State.cached (s : State) (src : Station) : Option CachedResponse := s.mgmt.cache.toList.getD src.toNat none

/-- The record takes a tag and a response. -/
def State.remember (s : State) (src : Station) (r : CachedResponse) : State :=
  s.modMgmt fun m => { m with cache := Vector.ofFn fun i => if i.val = src.toNat then some r else m.cache[i] }

/-- Execution: the response is queued, and the cache record takes it (R106, R108). -/
def State.executeRequest (s : State) (src : Station) (tag code : Byte) (run : State → Reply) : State :=
  let r := run s
  let payload := code :: r.status.code :: r.data
  (r.state.respond ⟨src, tag, payload, r.restarts⟩).remember src ⟨tag, payload⟩

/-- A request taken: authorisation, the cache check, execution (R106 to R108). -/
def State.takeRequest (s : State) (src : Station) (tag code : Byte) (run : State → Reply) : State :=
  let s := s.touchSession src
  if s.mgmt.active.isManager src then
    match s.cached src with
    | some c => if c.tag = tag then s.respond ⟨src, tag, c.payload, false⟩ else s.executeRequest src tag code run
    | none => s.executeRequest src tag code run
  else s.respond ⟨src, tag, [code, Status.notPermitted.code], false⟩

/-- The states in which containers are acted on (R84). -/
def TapState.takesContainers : TapState → Bool
  | .unconfigured => true
  | .online => true
  | .halted => true
  | .bypass => false
  | .faulted => false

/-- How many responses the queue holds at most (R109). -/
def responseRoom : Nat := 4

def State.countRefused (s : State) : State := s.count fun c => { c with refusedHere := satInc c.refusedHere }

/-- A request handed over by the delivery of R89: taken while the queue has room, else counted refused-here; nothing in a
state that takes no containers. -/
def State.deliver (s : State) (src : Station) (tag code : Byte) (run : State → Reply) : State :=
  if s.ctl.tapState.takesContainers then
    if s.mgmt.responses.length < responseRoom then s.takeRequest src tag code run else s.countRefused
  else s

/-! ### Reading the tap (R110 to R113, R54) -/

def runIdentify (s : State) : Reply :=
  s.answer (be16 Config.partIdentity ++ [stationByte s.rst.station, natByte s.ctl.tapState.code] ++ be16 s.mgmt.active.id)

def State.sessionCode (s : State) : Nat :=
  match s.mgmt.session with
  | none => 0
  | some x => if x.state.isOpened then 1 else 2

/-- The last header epoch as two bytes, 8000h for none (12.2), bits without a field zero (assumption log 40). -/
def State.epochWord (s : State) : Word :=
  match s.trk.lastEpoch with
  | some e => e.setWidth 16
  | none => 0x8000#16

/-- The close count of the pending restart, FFh when clear (12.2). -/
def State.pendingByte (s : State) : Byte :=
  match s.mgmt.pendingRestart with
  | some x => natByte x.closes
  | none => 0xFF#8

def runReadStatus (s : State) : Reply :=
  s.answer (((List.range 16).map s.statusWord).flatMap be16 ++ be16 s.epochWord ++
    [natByte s.sessionCode, natByte s.mgmt.responses.length, s.pendingByte, natByte s.mgmt.segTest.state.code])

/-- The counter groups (R111). -/
inductive Group where
  | port (p : Port)
  | train
  | ring
  | image
  | message
  deriving DecidableEq, Repr

def groupOf (b : Byte) : Option Group :=
  if b = 0 then some (.port .w)
  else if b = 1 then some (.port .e)
  else if b = 2 then some .train
  else if b = 3 then some .ring
  else if b = 4 then some .image
  else if b = 5 then some .message
  else none

def PortCounters.list (c : PortCounters) : List Word :=
  [c.frames, c.lineErrors, c.passedBad, c.unknownKind, c.downs, c.echoReplies]

/-- The counters of a group, in the order of R111. -/
def State.counters (s : State) : Group → List Word
  | .port p => (s.unit p).counters.list
  | .train => [s.ctr.cyclesMissed, s.ctr.discontinuities, s.ctr.trainsDefective, s.ctr.trainsAborted]
  | .ring => [s.ctr.wrapsEntered, s.ctr.overTurns, s.ctr.rollOverflows]
  | .image => [s.ctr.staleTransitions, s.ctr.fillFailures, s.ctr.publishLost]
  | .message =>
    [s.ctr.userFilled, s.ctr.delivered, s.ctr.refusedHere, s.ctr.orphanStripped, s.ctr.broadcastDropped, s.ctr.protocolErrors]

/-- A group's counters set to 0 (R111). -/
def State.clearGroup (s : State) : Group → State
  | .port p => s.modUnit p fun u => { u with counters := PortCounters.zero }
  | .train => s.count fun c => { c with cyclesMissed := 0, discontinuities := 0, trainsDefective := 0, trainsAborted := 0 }
  | .ring => s.count fun c => { c with wrapsEntered := 0, overTurns := 0, rollOverflows := 0 }
  | .image => s.count fun c => { c with staleTransitions := 0, fillFailures := 0, publishLost := 0 }
  | .message =>
    s.count fun c =>
      { c with
        userFilled := 0
        delivered := 0
        refusedHere := 0
        orphanStripped := 0
        broadcastDropped := 0
        protocolErrors := 0 }

def runReadCounters (group : Byte) (s : State) : Reply :=
  match groupOf group with
  | some g => s.answer ((s.counters g).flatMap be16)
  | none => s.refuse .badField

def runClearCounters (group : Byte) (s : State) : Reply :=
  match groupOf group with
  | some g => (s.clearGroup g).answer []
  | none => s.refuse .badField

/-- The checks of a run of `limit` places, in their order (R112, R54). The first is judged as a whole byte, a station too, whose bits
7:6 are thus not ignored (assumption log 41). -/
def runCheck (limit : Nat) (first count : Byte) : Option Status :=
  if limit ≤ first.toNat then some .badIndex
  else if count.toNat = 0 ∨ 8 < count.toNat then some .badField
  else if limit < first.toNat + count.toNat then some .badIndex
  else none

/-- Eight bytes of a census record (12.2), words 3 and 5 of the mirror the low ones of the two cycles (assumption log 35). -/
def CensusRecord.shortForm (r : CensusRecord) : List Byte :=
  be16 (r.wordAt 0) ++ be16 (r.wordAt 1) ++ be16 (r.wordAt 3) ++ be16 (r.wordAt 5)

/-- The results of READ CENSUS (R112, R134), the first station by its whole byte (assumption log 41). -/
def runReadCensus (first count : Byte) (s : State) : Reply :=
  match runCheck 63 first count with
  | some x => s.refuse x
  | none =>
    s.answer (([0, 1, 2].map s.censusHeadWord).flatMap be16 ++
      (List.range count.toNat).flatMap fun i => s.roll.census[Fin.ofNat 63 (first.toNat + i)].shortForm)

/-- Seven bytes of a subscription's runtime record; an entry that is not valid is given the reset values (R54, 12.2). The last
fresh cycle reads zero where it is absent (assumption log 25), and so do bits 7:6 of the flags byte (assumption log 40). -/
def State.subReport (s : State) (e : Fin 32) : List Byte :=
  let valid := s.mgmt.active.subs[e].valid
  let r := if valid then s.subs[e] else SubRecord.reset
  [natByte e.val,
    natByte (valid.toNat + 2 * r.freshness.code + 8 * r.lastFresh.isSome.toNat + 16 * r.captured.toNat +
      32 * r.freshNow.toNat), r.age] ++
    be32 (r.lastFresh.getD 0)

/-- The valid flag is a byte 01h for true and 00h for false (assumption log 39). -/
def runReadSubscriptionState (first count : Byte) (s : State) : Reply :=
  match runCheck 32 first count with
  | some x => s.refuse x
  | none =>
    s.answer (be32 s.trk.lastCycle ++ [natByte s.trk.valid.toNat] ++
      (List.range count.toNat).flatMap fun i => s.subReport (Fin.ofNat 32 (first.toNat + i)))

/-- The results of READ ENTRY (R113). -/
def TableSet.report (t : TableSet) (tab : Table) (i : Nat) : List Byte := be16 t.id ++ (t.entry tab i).encode.toList

def runReadEntry (set table index : Byte) (s : State) : Reply :=
  match setOf set, tableOf table with
  | some staged, some tab =>
    if tab.entries ≤ index.toNat then s.refuse .badIndex
    else if staged then
      match s.mgmt.session with
      | some x => s.answer (x.staged.report tab index.toNat)
      | none => s.refuse .noSession
    else s.answer (s.mgmt.active.report tab index.toNat)
  | _, _ => s.refuse .badField

/-! ### The edit session (R114 to R120) -/

def State.setSession (s : State) (x : Option Session) : State := s.modMgmt fun m => { m with session := x }

/-- A session opened by `src`: the staged set is a copy of the active set under the new set id (R114). -/
def State.openSession (s : State) (src : Station) (setId : Word) : State :=
  s.setSession (some ⟨src, .opened (s.now + idleTime), { s.mgmt.active with id := setId }⟩)

def runOpenEdit (src : Station) (setId : Word) (s : State) : Reply :=
  if setId = 0 then s.refuse .badField
  else
    match s.mgmt.session with
    | none => (s.openSession src setId).answer []
    | some x => if x.state.isOpened ∧ x.owner = src then (s.openSession src setId).answer [] else s.refuse .busy

/-- The first two checks of R115 and R117: the requester's own session, and that it is OPEN. -/
def State.openOwn (s : State) (src : Station) : Except Status Session :=
  match s.mgmt.session with
  | none => .error .noSession
  | some x => if x.owner ≠ src then .error .noSession else if x.state.isOpened then .ok x else .error .busy

def runStageEntry (src : Station) (table index : Byte) (entry : Vector Byte 8) (s : State) : Reply :=
  match s.openOwn src with
  | .error e => s.refuse e
  | .ok x =>
    match tableOf table with
    | none => s.refuse .badField
    | some tab =>
      if tab.entries ≤ index.toNat then s.refuse .badIndex
      else
        match decodeEntry tab entry with
        | none => s.refuse .badField
        | some e => (s.setSession (some { x with staged := x.staged.setEntry index.toNat e })).answer []

def runClearStaged (src : Station) (table : Byte) (s : State) : Reply :=
  match s.openOwn src with
  | .error e => s.refuse e
  | .ok x =>
    match tableOf table with
    | none => s.refuse .badField
    | some tab => (s.setSession (some { x with staged := x.staged.clearTable tab })).answer []

/-- A commit mode: NEXT_CYCLE is `none`, AT_EPOCH e is `some e` (12.2, R118). -/
def commitMode (mode epoch : Byte) : Option (Option Byte) :=
  if mode = 0 then some none else if mode = 1 then some (some epoch) else none

/-- The detail of INVALID_SET (12.2). -/
def Invalid.detail (x : Invalid) : List Byte := [natByte x.table.code, natByte x.index, natByte x.reason]

def runCommit (src : Station) (mode epoch : Byte) (s : State) : Reply :=
  match s.openOwn src with
  | .error e => s.refuse e
  | .ok x =>
    match commitMode mode epoch with
    | none => s.refuse .badField
    | some m =>
      match x.staged.firstInvalid with
      | some bad => ⟨s, .invalidSet, bad.detail, false⟩
      | none =>
        if m.isSome ∧ m = s.trk.lastEpoch then s.refuse .badEpoch
        else ⟨s.setSession (some { x with state := .commitPending m }), .scheduled, [], false⟩

def runAbandonEdit (src : Station) (s : State) : Reply :=
  match s.mgmt.session with
  | some x => if x.owner = src then (s.setSession none).answer [] else s.refuse .noSession
  | none => s.refuse .noSession

/-- The milliseconds in a number of microseconds; whether a part of a millisecond counts as one is free (assumption log 13). -/
def msRemaining (us : Nat) : Nat :=
  us / millisecond + (decide (us % millisecond ≠ 0) && Config.msRoundsUp us).toNat

/-- The mode, epoch and milliseconds remaining of a session; a field that is absent is 0 (assumption log 25). -/
def State.sessionFields (s : State) : SessionState → List Byte
  | .opened d => [0, 0] ++ be16 (BitVec.ofNat 16 (msRemaining (d - s.now)))
  | .commitPending none => [0, 0, 0, 0]
  | .commitPending (some e) => [1, e, 0, 0]

def State.sessionReport (s : State) : List Byte :=
  match s.mgmt.session with
  | none => [0, 0, 0, 0, 0, 0, 0, 0]
  | some x => [natByte s.sessionCode, stationByte x.owner] ++ be16 x.staged.id ++ s.sessionFields x.state

def runQueryEdit (s : State) : Reply :=
  s.answer (s.sessionReport ++ be16 s.mgmt.active.id ++ ([11, 12, 13, 14].map s.statusWord).flatMap be16)

/-- R116: the idle timer of an OPEN session expires. -/
def State.sessionIdleExpiry (s : State) : State :=
  match s.mgmt.session with
  | some x =>
    match x.state with
    | .opened d => (s.reach d).setSession none
    | .commitPending _ => s
  | none => s

def execSessionIdleExpiry (dt : Nat) (s : State) : Result := .next (s.elapse dt).sessionIdleExpiry

/-! ### Control (R121 to R124, R153) -/

def State.setCommandCause (s : State) (x : Bool) : State := { s with ctl := { s.ctl with commandCause := x } }

/-- The tap state as a result (12.2). -/
def State.answerState (s : State) : Reply := s.answer [natByte s.ctl.tapState.code]

def runHalt (s : State) : Reply :=
  match s.ctl.tapState with
  | .online => ((s.setCommandCause true).setTapState .halted).answerState
  | .halted => (s.setCommandCause true).answerState
  | .unconfigured => s.refuse .refusedState
  | .faulted => s.refuse .refusedState
  | .bypass => s.refuse .refusedState

def runResume (s : State) : Reply :=
  match s.ctl.tapState with
  | .online => (s.setCommandCause false).answerState
  | .halted =>
    if s.ctl.pinCause then (s.setCommandCause false).answerState
    else ((s.setCommandCause false).setTapState .online).answerState
  | .unconfigured => s.refuse .refusedState
  | .faulted => s.refuse .refusedState
  | .bypass => s.refuse .refusedState

def runReturnWrap (port : Byte) (s : State) : Reply :=
  match portOf port with
  | none => s.refuse .badField
  | some p =>
    if (s.unit p).returnReady then
      (s.modUnit p fun u => { u with returnAccepted := true }).answer [natByte s.wrapState.code]
    else s.refuse .refusedState

/-- The channel is driven high for 2 µs from now; if it was low, a rising edge (R153). -/
def State.pulse (s : State) (c : Fin 12) : State :=
  let s1 : State := { s with sig := { s.sig with pulses := upd s.sig.pulses c (some (s.now + pulseTime)) } }
  if s.sig.pulses[c].isSome then s1 else s1.edgeOn c

def runPulse (channel : Byte) (s : State) : Reply :=
  match below 12 channel with
  | none => s.refuse .badIndex
  | some c => if s.source c = .none then (s.pulse c).answer [] else s.refuse .badField

def runRestart (s : State) : Reply :=
  if s.mgmt.pendingRestart.isSome then s.refuse .busy
  else ⟨s.modMgmt fun m => { m with pendingRestart := some ⟨0, none, false⟩ }, .ok, [], true⟩

def runSegmentTestStart (port count : Byte) (s : State) : Reply :=
  match portOf port with
  | none => s.refuse .badField
  | some p =>
    if count = 0 then s.refuse .badField
    else if s.mgmt.segTest.state = .running then s.refuse .testBusy
    else if (s.unit p).monitor = .up then (s.setTest ⟨.running, p, count, 0, 0, 0, 0, 0, .prepared⟩).answer []
    else s.refuse .refusedState

def runSegmentTestResult (s : State) : Reply :=
  let t := s.mgmt.segTest
  s.answer [natByte t.state.code, natByte t.port.code, t.n, t.sent, t.good, t.bad, t.lost]

/-- What answers a payload that is no request (R106). -/
def runBadCommand (s : State) : Reply := s.refuse .badCommand

/-- The execution of a request from station `src`. -/
def runRequest (r : Request) (src : Station) (s : State) : Reply :=
  match r with
  | .identify => runIdentify s
  | .readStatus => runReadStatus s
  | .readCounters g => runReadCounters g s
  | .clearCounters g => runClearCounters g s
  | .readCensus f c => runReadCensus f c s
  | .readSubscriptionState f c => runReadSubscriptionState f c s
  | .readEntry a t i => runReadEntry a t i s
  | .openEdit id => runOpenEdit src id s
  | .stageEntry t i x => runStageEntry src t i x s
  | .clearStaged t => runClearStaged src t s
  | .commit m e => runCommit src m e s
  | .abandonEdit => runAbandonEdit src s
  | .queryEdit => runQueryEdit s
  | .halt => runHalt s
  | .resume => runResume s
  | .returnWrap p => runReturnWrap p s
  | .pulse c => runPulse c s
  | .restart => runRestart s
  | .segmentTestStart p n => runSegmentTestStart p n s
  | .segmentTestResult => runSegmentTestResult s

/-- A request taken from a container's payload (R106). One of length 0 has no code: every response to it, a NOT_PERMITTED one too,
carries 00h (12.2 gives it for BAD_COMMAND; assumption log 38). -/
def State.takePayload (s : State) (src : Station) (tag : Byte) (payload : List Byte) : State :=
  match Request.decode payload with
  | some r => s.takeRequest src tag r.code (runRequest r src)
  | none => s.takeRequest src tag (payload.headD 0) runBadCommand

/-! ### The rows of the requests -/

def execIdentify (dt : Nat) (src : Station) (tag : Byte) (s : State) : Result :=
  .next ((s.elapse dt).deliver src tag Request.identify.code runIdentify)

def execReadStatus (dt : Nat) (src : Station) (tag : Byte) (s : State) : Result :=
  .next ((s.elapse dt).deliver src tag Request.readStatus.code runReadStatus)

def execReadCounters (dt : Nat) (src : Station) (tag group : Byte) (s : State) : Result :=
  .next ((s.elapse dt).deliver src tag (Request.readCounters group).code (runReadCounters group))

def execClearCounters (dt : Nat) (src : Station) (tag group : Byte) (s : State) : Result :=
  .next ((s.elapse dt).deliver src tag (Request.clearCounters group).code (runClearCounters group))

def execReadCensus (dt : Nat) (src : Station) (tag first count : Byte) (s : State) : Result :=
  .next ((s.elapse dt).deliver src tag (Request.readCensus first count).code (runReadCensus first count))

def execReadSubscriptionState (dt : Nat) (src : Station) (tag first count : Byte) (s : State) : Result :=
  .next ((s.elapse dt).deliver src tag (Request.readSubscriptionState first count).code
    (runReadSubscriptionState first count))

def execReadEntry (dt : Nat) (src : Station) (tag set table index : Byte) (s : State) : Result :=
  .next ((s.elapse dt).deliver src tag (Request.readEntry set table index).code (runReadEntry set table index))

def execOpenEdit (dt : Nat) (src : Station) (tag : Byte) (setId : Word) (s : State) : Result :=
  .next ((s.elapse dt).deliver src tag (Request.openEdit setId).code (runOpenEdit src setId))

def execStageEntry (dt : Nat) (src : Station) (tag table index : Byte) (entry : Vector Byte 8) (s : State) : Result :=
  .next ((s.elapse dt).deliver src tag (Request.stageEntry table index entry).code (runStageEntry src table index entry))

def execClearStaged (dt : Nat) (src : Station) (tag table : Byte) (s : State) : Result :=
  .next ((s.elapse dt).deliver src tag (Request.clearStaged table).code (runClearStaged src table))

def execCommit (dt : Nat) (src : Station) (tag mode epoch : Byte) (s : State) : Result :=
  .next ((s.elapse dt).deliver src tag (Request.commit mode epoch).code (runCommit src mode epoch))

def execAbandonEdit (dt : Nat) (src : Station) (tag : Byte) (s : State) : Result :=
  .next ((s.elapse dt).deliver src tag Request.abandonEdit.code (runAbandonEdit src))

def execQueryEdit (dt : Nat) (src : Station) (tag : Byte) (s : State) : Result :=
  .next ((s.elapse dt).deliver src tag Request.queryEdit.code runQueryEdit)

def execHalt (dt : Nat) (src : Station) (tag : Byte) (s : State) : Result :=
  .next ((s.elapse dt).deliver src tag Request.halt.code runHalt)

def execResume (dt : Nat) (src : Station) (tag : Byte) (s : State) : Result :=
  .next ((s.elapse dt).deliver src tag Request.resume.code runResume)

def execReturnWrap (dt : Nat) (src : Station) (tag port : Byte) (s : State) : Result :=
  .next ((s.elapse dt).deliver src tag (Request.returnWrap port).code (runReturnWrap port))

def execPulse (dt : Nat) (src : Station) (tag channel : Byte) (s : State) : Result :=
  .next ((s.elapse dt).deliver src tag (Request.pulse channel).code (runPulse channel))

def execRestart (dt : Nat) (src : Station) (tag : Byte) (s : State) : Result :=
  .next ((s.elapse dt).deliver src tag Request.restart.code runRestart)

def execSegmentTestStart (dt : Nat) (src : Station) (tag port count : Byte) (s : State) : Result :=
  .next ((s.elapse dt).deliver src tag (Request.segmentTestStart port count).code (runSegmentTestStart port count))

def execSegmentTestResult (dt : Nat) (src : Station) (tag : Byte) (s : State) : Result :=
  .next ((s.elapse dt).deliver src tag Request.segmentTestResult.code runSegmentTestResult)

/-- R106: the response carries the code as received, 00h where the payload is empty, whatever its status (assumption log 38). -/
def execBadCommand (dt : Nat) (src : Station) (tag : Byte) (payload : List Byte) (s : State) : Result :=
  .next ((s.elapse dt).deliver src tag (payload.headD 0) runBadCommand)

end Sys2Proof.Machine
end

