-- ==== Sys2Proof/Machine/ContainerUnit.lean ====
section
/-! DEFINITION. The container unit's five steps on a container it acts on (R84): outcome (R86), strip (R88), delivery (R89),
broadcast (R90), fill (R91). Each step gives the tap and the container as it leaves the step. -/

namespace Sys2Proof.Machine

/-- The tap and a container in its hands. -/
structure Handled where
  state : State
  frame : ContainerFrame
  deriving DecidableEq, Repr

def State.handled (s : State) (f : ContainerFrame) : Handled := ⟨s, f⟩

def State.ownNumber (s : State) (b : Byte) : Bool := decide (stationOf b = s.rst.station)

/-! ### Outcome -/

/-- The due flight of a mailbox at an index (R86). -/
def Mailbox.dueAt (m : Mailbox) (index : Fin 8) : Option Flight :=
  match m.state with
  | .inFlight f true => if f.index = index then some f else none
  | _ => none

/-- The mailbox whose outcome is due at an index; two never record one index (R87). -/
def State.dueMailboxAt (s : State) (index : Fin 8) : Option (Fin 8) :=
  (List.finRange 8).find? fun m => ((s.mailbox m).dueAt index).isSome

/-- Whether a container matches a flight record (R86). -/
def State.matchesFlight (s : State) (f : ContainerFrame) (r : Flight) : Bool :=
  f.isFull && s.ownNumber f.source && decide (f.tag = r.tag) && decide (f.cls = 0x02#8)

/-- The outcome R86 gives, by the destination the mailbox records. -/
def outcomeOf (broadcast found refused : Bool) : MsgOutcome :=
  match broadcast, found, refused with
  | false, true, true => .refused
  | false, true, false => .undelivered
  | false, false, _ => .delivered
  | true, true, _ => .sent
  | true, false, _ => .unconfirmed

/-- The outcome step (R86). -/
def State.outcomeStep (s : State) (index : Fin 8) (f : ContainerFrame) : Handled :=
  match s.dueMailboxAt index with
  | none => s.handled f
  | some m =>
    match (s.mailbox m).dueAt index with
    | none => s.handled f
    | some r =>
      let found := s.matchesFlight f r
      (s.settle m (outcomeOf (decide (stationOf (s.mailbox m).dest = 63#6)) found f.isRefused)).handled
        (if found then f.emptied else f)

/-! ### Strip -/

/-- The strip step (R88). -/
def State.stripStep (s : State) (f : ContainerFrame) : Handled :=
  if f.isFull && s.ownNumber f.source then
    (s.count fun c => { c with orphanStripped := satInc c.orphanStripped }).handled f.emptied
  else s.handled f

/-! ### Delivery and broadcast -/

/-- How many records the inbound queue holds at most (R99). -/
def inboundRoom : Nat := 8

/-- A message joins the inbound queue (R99). -/
def State.joinInbound (s : State) (f : ContainerFrame) (broadcast : Bool) : State :=
  let r : InboundRecord := ⟨stationOf f.source, f.tag, f.length, f.payload, s.trk.lastCycle, broadcast⟩
  let s : State := { s with inbound := s.inbound ++ [r] }
  (s.count fun c => { c with delivered := satInc c.delivered }).raise .inboundArrival

def State.countProtocolError (s : State) : State := s.count fun c => { c with protocolErrors := satInc c.protocolErrors }

/-- Whether the delivery step takes a management request from the container (R89). -/
def State.takesRequest (s : State) (f : ContainerFrame) : Bool :=
  f.isFull && s.ownNumber f.dest && !f.isRefused && decide (f.cls = 0x00#8) &&
    decide (s.mgmt.responses.length < responseRoom)

/-- The delivery step (R89). -/
def State.deliveryStep (s : State) (f : ContainerFrame) : Handled :=
  if f.isFull && s.ownNumber f.dest && !f.isRefused then
    if f.cls = 0x00#8 then
      if s.mgmt.responses.length < responseRoom then
        (s.takePayload (stationOf f.source) f.tag f.message).handled f.emptied
      else s.countRefused.handled f.withRefused
    else if f.cls = 0x02#8 then
      if s.inbound.length < inboundRoom then (s.joinInbound f false).handled f.emptied
      else s.countRefused.handled f.withRefused
    else s.countProtocolError.handled f.emptied
  else s.handled f

/-- The broadcast step, which leaves the container as it is (R90). -/
def State.broadcastStep (s : State) (f : ContainerFrame) : State :=
  if f.isFull && decide (stationOf f.dest = 63#6) then
    if f.cls = 0x02#8 then
      if s.inbound.length < inboundRoom then s.joinInbound f true
      else s.count fun c => { c with broadcastDropped := satInc c.broadcastDropped }
    else s.countProtocolError
  else s

/-! ### The five steps -/

/-- A container the unit acts on, with its index and the tap state `t` sampled when it had been received (R84, R37). -/
def State.containerSteps (s : State) (t : TapState) (index : Fin 8) (f : ContainerFrame) : Handled :=
  let a := s.outcomeStep index f
  let b := a.state.stripStep a.frame
  let took := b.state.takesRequest b.frame
  let c := b.state.deliveryStep b.frame
  let d := c.state.broadcastStep c.frame
  if c.frame.isFull then d.handled c.frame
  else
    let r := d.fillStep t took index c.frame
    r.1.handled r.2

/-- A container at the expected index with a good check (R84, R8): a malformed one counts a protocol error; in a state that
takes no containers it passes. -/
def State.actOnContainer (s : State) (f : ContainerFrame) : Handled :=
  if f.malformed then s.countProtocolError.handled f
  else if s.ctl.tapState.takesContainers then s.containerSteps s.ctl.tapState (Fin.ofNat 8 f.index.toNat) f
  else s.handled f

end Sys2Proof.Machine
end

