-- ==== Sys2Proof/Machine/Frames.lean ====
section
/-! DEFINITION. The frames: what is decided as one begins to arrive, what its end does, and how it leaves (R2, R3, R10 to R13, R26 to
R30, R143, R144). -/

namespace Sys2Proof.Machine

/-! ### The beginning of a frame -/

/-- The tap turns what it receives at the port (R2, R143). -/
def State.turns (s : State) (p : Port) : Bool := decide (s.route p = some p)

/-- A HEADER that a turning tap discards, with every frame after it (R143). -/
def State.overTurns (s : State) (p : Port) (lead : Lead) : Bool :=
  (s.unit p).inService && s.turns p && decide (lead = .header 3#2)

/-- Whether a frame that begins falls in an over-turn discard: a HEADER is judged afresh, any other frame follows the header
before it (R143). -/
def State.discards (s : State) (p : Port) (lead : Lead) : Bool :=
  match lead with
  | .header _ => s.overTurns p lead
  | _ => (s.unit p).discard

/-- Whether the tracker sees the frame (R2, R4, R143). -/
def State.sees (s : State) (p : Port) (lead : Lead) : Bool :=
  (s.unit p).inService && !s.discards p lead && decide (lead ≠ .echo)

/-- Whether a BLOCK is handed to the publish and the capture unit (R26, R37, R43, R75). -/
def State.handsOn (s : State) (p : Port) (lead : Lead) : Bool :=
  match lead with
  | .block n =>
    s.sees p lead && decide (s.ctl.tapState = .online) && decide (s.trk.record = .inTrain p) &&
      decide (s.trk.expected = some (.block n.toNat))
  | _ => false

/-- The sample of a ROLL that the roll unit acts on: one of a first pass, in a train that has not closed (R125). -/
def State.rollTaken (s : State) (p : Port) (lead : Lead) (seen : Bool) : Option RollSample :=
  if lead = .roll ∧ seen = true ∧ s.trk.record = .inTrain p then some s.rollSample else none

/-- What is decided as a frame begins to arrive. A BLOCK's words are those of the LIVE buffers as its number arrives (assumption
log 37). -/
def State.arrivalOf (s : State) (p : Port) (lead : Lead) : Arriving where
  lead := lead
  seen := s.sees p lead
  out := if s.sees p lead then s.route p else none
  overTurn := s.overTurns p lead
  capture := s.handsOn p lead
  writes := match lead with
    | .block n => if s.handsOn p lead then s.publishWrites n else []
    | _ => []
  roll := s.rollTaken p lead (s.sees p lead)

/-- The over-turn discard after a frame has begun (R143). -/
def State.discardAfter (s : State) (p : Port) (lead : Lead) : Bool :=
  match lead with
  | .header _ => s.overTurns p lead
  | _ => (s.unit p).discard

/-- A frame begins to arrive (R30, R75, R143). -/
def State.beginArrival (s : State) (p : Port) (lead : Lead) : State :=
  let a := s.arrivalOf p lead
  let s1 := s.modUnit p fun u => { u with arriving := some a, discard := s.discardAfter p lead }
  if a.seen then s1.stopGap p else s1

/-- The open count of the ROLL arriving at the port arrives: the roll unit's sample is taken now (R125). -/
def State.openCountArrives (s : State) (p : Port) (a : Arriving) : State :=
  s.modUnit p fun u => { u with arriving := some { a with roll := s.rollTaken p a.lead a.seen } }

/-- FRAME_BEGINS_TO_ARRIVE (assumption log 4). Nothing in BYPASS (R144). A second beginning at the port changes nothing; an open
count with no ROLL arriving is a ROLL that has come so far. -/
def State.frameBegins (s : State) (p : Port) (lead : Lead) : State :=
  if s.inBypass then s
  else
    match (s.unit p).arriving with
    | none => s.beginArrival p (if lead = .openCount then .roll else lead)
    | some a => if lead = .openCount then s.openCountArrives p a else s

def execFrameBeginsToArrive (dt : Nat) (p : Port) (lead : Lead) (s : State) : Result :=
  .next ((s.elapse dt).frameBegins p lead)

/-- The tap and the decisions for a frame that ends: those made at its beginning, or made now where its beginning was no
command of its own (assumption log 4). -/
def State.arrived (s : State) (p : Port) (lead : Lead) : State × Arriving :=
  match (s.unit p).arriving with
  | some a => if a.lead = lead then (s, a) else (s.beginArrival p lead, s.arrivalOf p lead)
  | none => (s.beginArrival p lead, s.arrivalOf p lead)

/-! ### The end of a frame -/

/-- A frame in the tap's hands with the tap after the frame's own effect. -/
structure Passed where
  state : State
  frame : Frame
  deriving DecidableEq, Repr

/-- The check the frame leaves with (R13): the check over the outgoing contents, inverted where the incoming one was not
good. -/
def outgoingCheck (f : Frame) (check : Check) : Fcs := if check = .good then f.check else ~~~f.check

/-- How the frame leaves: whole, or closed at the point where it ended early (R3). -/
def outgoing (f : Frame) (check : Check) (fcs : Option Fcs) : SentContent :=
  match fcs with
  | some _ => .whole f (outgoingCheck f check)
  | none => .cut f.lead

def State.restartPlaced (s : State) : Bool :=
  match s.mgmt.pendingRestart with
  | some x => x.placed.isSome
  | none => false

/-- What a received frame counts at the port (R11, R12) and tap-wide (R143). -/
def State.countFrame (s : State) (p : Port) (a : Arriving) (check : Check) : State :=
  let s1 := s.countPort p fun c => c.received check (decide (a.lead = .unknown))
  if a.overTurn ∧ check = .good then s1.count fun c => { c with overTurns := satInc c.overTurns } else s1

/-- A BLOCK the publish unit wrote into, whose incoming check is not good and whose copy has not been cut short before (R78,
assumption log 37). -/
def State.countLost (s : State) (a : Arriving) (check : Check) : State :=
  if check ≠ .good ∧ a.writes ≠ [] ∧ a.out.isSome then s.countPublishLost else s

/-- The frame leaves by the port decided at its beginning, where its copy has not been cut short (R2, R13, R140). -/
def State.forward (s : State) (a : Arriving) (x : SentContent) (written restarts : Bool) : State :=
  match a.out with
  | some out => s.sendOut out ⟨x, written, restarts⟩
  | none => s

/-- The passive path of BYPASS (R144): the frame crosses to the other port as it came. -/
def State.bypassFrame (s : State) (p : Port) (f : Frame) (fcs : Option Fcs) : State :=
  s.emit p.other (match fcs with
    | some c => .whole f c
    | none => .cut f.lead)

/-- The end of a frame at a port: counting, the frame's own effect `act`, its leaving, and the error window (assumption log 9).
`act` is given the decisions made at the frame's beginning and the outcome of its check. -/
def State.receive (s : State) (p : Port) (f : Frame) (fcs : Option Fcs) (act : Arriving → Check → State → Passed) : State :=
  if s.inBypass then s.bypassFrame p f fcs
  else
    let check := f.outcome fcs
    let (s0, a) := s.arrived p f.lead
    let s1 := (s0.modUnit p fun u => { u with arriving := none }).countFrame p a check
    let r := act a check s1
    let s2 := r.state.countLost a check
    let s3 := s2.forward a (outgoing r.frame check fcs) (a.writes ≠ [] && check = .good)
      (!s1.restartPlaced && r.state.restartPlaced)
    s3.windowAdd p (check = .bad)

/-! ### HEADER -/

/-- R21 to R24, R143: the tracker takes the header; a turned one leaves with its count one higher. -/
def passHeader (p : Port) (f : HeaderFrame) (a : Arriving) (check : Check) (s : State) : Passed :=
  ⟨if a.seen then s.trackHeader p f check else s, .header (if a.out = some p then f.turned else f)⟩

def execHeader (dt : Nat) (p : Port) (f : HeaderFrame) (fcs : Option Fcs) (s : State) : Result :=
  .next ((s.elapse dt).receive p (.header f) fcs (passHeader p f))

/-! ### BLOCK -/

/-- A good BLOCK of the train in progress (R26, R29). -/
def State.goodBlock (s : State) (f : BlockFrame) (capture : Bool) : State :=
  let n := f.number.toNat
  match s.trk.expected with
  | some (.block k) =>
    if n = k then
      (if capture then s.captureBlock f else s).expect (afterBlock s.trk.blocks s.trk.containers k)
    else if k < n ∧ n < s.trk.blocks.toNat then s.orderDefect.expect (afterBlock s.trk.blocks s.trk.containers n)
    else s.orderDefect
  | some (.container _) => s.orderDefect
  | some .roll => s.orderDefect
  | some .unordered => s
  | none => s

/-- A BLOCK that the tracker sees (R26, R28, R29, R30); `f` is the frame as it leaves the publish unit. -/
def State.trackBlock (s : State) (p : Port) (f : BlockFrame) (capture : Bool) (check : Check) : State :=
  if s.trk.record = .inTrain p then (if check = .good then s.goodBlock f capture else s.badFrame).armGap p
  else s.armGap p

/-- The frame as it leaves the publish unit (R76). -/
def State.published (s : State) (f : BlockFrame) (writes : List SegWrite) : BlockFrame :=
  if writes.isEmpty then f else f.written s.rst.station writes

def passBlock (p : Port) (f : BlockFrame) (a : Arriving) (check : Check) (s : State) : Passed :=
  let f' := s.published f a.writes
  ⟨if a.seen then s.trackBlock p f' a.capture check else s, .block f'⟩

def execBlock (dt : Nat) (p : Port) (f : BlockFrame) (fcs : Option Fcs) (s : State) : Result :=
  .next ((s.elapse dt).receive p (.block f) fcs (passBlock p f))

/-! ### CONTAINER -/

/-- Whether CONTAINER i lies after an expected position (R27). -/
def Position.before (x : Position) (i : Nat) : Bool :=
  match x with
  | .block _ => true
  | .container j => decide (j < i)
  | .roll => false
  | .unordered => false

/-- A good CONTAINER of the train in progress (R27, R29). -/
def State.goodContainer (s : State) (f : ContainerFrame) : Handled :=
  let i := f.index.toNat
  match s.trk.expected with
  | some .unordered => s.handled f
  | none => s.handled f
  | some x =>
    if x = .container i then
      let r := s.actOnContainer f
      (r.state.expect (afterContainer r.state.trk.containers i)).handled r.frame
    else if i < s.trk.containers.toNat ∧ x.before i then
      (s.orderDefect.expect (afterContainer s.trk.containers i)).handled f
    else s.orderDefect.handled f

/-- A CONTAINER that the tracker sees (R27 to R30). -/
def State.trackContainer (s : State) (p : Port) (f : ContainerFrame) (check : Check) : Handled :=
  if s.trk.record = .inTrain p then
    if check = .good then
      let r := s.goodContainer f
      (r.state.armGap p).handled r.frame
    else (s.badFrame.armGap p).handled f
  else (s.armGap p).handled f

def passContainer (p : Port) (f : ContainerFrame) (a : Arriving) (check : Check) (s : State) : Passed :=
  if a.seen then
    let r := s.trackContainer p f check
    ⟨r.state, .container r.frame⟩
  else ⟨s, .container f⟩

def execContainer (dt : Nat) (p : Port) (f : ContainerFrame) (fcs : Option Fcs) (s : State) : Result :=
  .next ((s.elapse dt).receive p (.container f) fcs (passContainer p f))

/-! ### ROLL -/

/-- The kind of close a good, well-formed ROLL makes (R28, R29). -/
def State.rollClose (s : State) : CloseKind :=
  if s.trk.expected = some .roll ∧ s.trk.defect = false then .good else .defective

/-- The frame the roll unit sends (R126): with the tap's entry where the decision appends. -/
def rollOut (x : RollSample) (own : Station) (d : RollDecision) (f : RollFrame) : RollFrame :=
  if d.appends then appendEntry f (x.entry own d) else f

/-- The roll unit on a ROLL of which it has taken a sample (R125 to R128). The append is written before the check is known; the
decision counts only where it is good, and counts also where the train has closed meanwhile (assumption log 4). -/
def State.takeRoll (s : State) (sample : Option RollSample) (f : RollFrame) (check : Check) : State × RollFrame :=
  match sample with
  | none => (s, f)
  | some x =>
    if f.malformed then (s, f)
    else
      let d := rollDecision x.tapState s.rst.station f
      (if check = .good then s.rollEffect d f else s, rollOut x s.rst.station d f)

/-- A ROLL ends the train in progress (R28, R29, R131). -/
def State.endTrain (s : State) (f : RollFrame) (check : Check) : State :=
  if check = .good ∧ f.malformed = false then s.close s.rollClose (some f.closedRoll) else s.close .defective none

/-- What the ROLL does to the train record (R23, R28, R29). -/
def State.endAtRoll (s : State) (p : Port) (f : RollFrame) (check : Check) : State :=
  match s.trk.record with
  | .inTrain q => if q = p then s.endTrain f check else s
  | .passing q => if q = p then s.endRecord else s
  | .idle => s

/-- A ROLL that the tracker sees: the roll unit's own effect, then the record's. -/
def State.trackRoll (s : State) (p : Port) (sample : Option RollSample) (f : RollFrame) (check : Check) : State × RollFrame :=
  let r := s.takeRoll sample f check
  (r.1.endAtRoll p f check, r.2)

def passRoll (p : Port) (f : RollFrame) (a : Arriving) (check : Check) (s : State) : Passed :=
  if a.seen then
    let r := s.trackRoll p a.roll f check
    ⟨r.1, .roll r.2⟩
  else ⟨s, .roll f⟩

def execRoll (dt : Nat) (p : Port) (f : RollFrame) (fcs : Option Fcs) (s : State) : Result :=
  .next ((s.elapse dt).receive p (.roll f) fcs (passRoll p f))

/-! ### ECHO and unknown kinds -/

/-- R10, R146: the tracker does not see it, and it is not forwarded. -/
def passEcho (p : Port) (f : EchoFrame) (_ : Arriving) (check : Check) (s : State) : Passed :=
  ⟨s.receiveEcho p f check, .echo f⟩

def execEcho (dt : Nat) (p : Port) (f : EchoFrame) (fcs : Option Fcs) (s : State) : Result :=
  .next ((s.elapse dt).receive p (.echo f) fcs (passEcho p f))

/-- An unknown kind that the tracker sees: an order defect inside a train, with any check (R11, R28). -/
def State.trackUnknown (s : State) (p : Port) : State :=
  if s.trk.record = .inTrain p then s.orderDefect.armGap p else s.armGap p

def passUnknown (p : Port) (f : UnknownFrame) (a : Arriving) (_ : Check) (s : State) : Passed :=
  ⟨if a.seen then s.trackUnknown p else s, .unknown f⟩

def execUnknownKind (dt : Nat) (p : Port) (f : UnknownFrame) (fcs : Option Fcs) (s : State) : Result :=
  .next ((s.elapse dt).receive p (.unknown f) fcs (passUnknown p f))

end Sys2Proof.Machine
end

