-- ==== Sys2Proof/Machine/Restart.lean ====
section
/-! DEFINITION. The restarts (R165 to R168) and what each block takes at one (R20, R36, R42, R58, R67, R103, R104, R130, R135, R149,
R160, R161). -/

namespace Sys2Proof.Machine

/-- LOCAL and REMOTE keep the counters, the interval record and the words of the publish banks (R166). -/
def RestartKind.keeps : RestartKind → Bool
  | .powerOn => false
  | .pin => false
  | .local => true
  | .remote => true

/-- A publish bank after a restart (R67). -/
def PubBank.restarted (b : PubBank) (keep : Bool) : PubBank :=
  if keep then { b with pIsDraft := true, posted := false, postedNow := false } else PubBank.reset

/-- A port unit after a restart: only its counters may be kept (R135, R148, R149). What the unit was receiving, holding or sending,
an ECHO on its way out among it, is dropped and leaves nothing in `sent` (assumption log 29). -/
def PortUnit.restarted (u : PortUnit) (keep : Bool) : PortUnit :=
  { PortUnit.reset with counters := if keep then u.counters else PortCounters.zero }

/-- The transaction in progress serves nothing more, and its burst ends (R161). -/
def Txn.abandoned (t : Txn) : Txn := { t with kind := .dead, burst := none }

/-- The restart controller as a restart begins (R165, R166, R168). -/
def RestartCtl.restarted (r : RestartCtl) (kind : RestartKind) (now : Nat) : RestartCtl :=
  match kind with
  | .powerOn => ⟨.powerOn, false, 0, .waiting, 0, true, r.rstLow⟩
  | .pin => { r with cause := .pin, count := satInc r.count, hold := .waiting, rstLow := true }
  | .local => { r with cause := .local, count := satInc r.count, hold := .running (now + bypassHoldTime) }
  | .remote => { r with cause := .remote, count := satInc r.count, hold := .running (now + bypassHoldTime) }

/-- A restart begins (R166). Kept from before it: the clock, the queue and what has been sent (the model's own), the levels of
the pins outside (assumption log 18), and what `keeps` says. -/
def State.beginRestart (s : State) (kind : RestartKind) : State :=
  { State.reset with
    pending := s.pending
    now := s.now
    sent := s.sent
    ctl := ⟨.bypass, false, s.ctl.pinCause⟩
    trk := { Tracker.reset with interval := if kind.keeps then s.trk.interval else none }
    pub := s.pub.map fun b => b.restarted kind.keeps
    portW := s.portW.restarted kind.keeps
    portE := s.portE.restarted kind.keeps
    sig := { Signals.reset with trigIn := s.sig.trigIn }
    lsp := ⟨s.lsp.txn.map Txn.abandoned, .none, s.lsp.out⟩
    rst := s.rst.restarted kind s.now
    ctr := if kind.keeps then s.ctr else TapCounters.zero }

/-- The supply rises (R166). -/
def execPowerOn (dt : Nat) (s : State) : Result := .next ((s.elapse dt).beginRestart .powerOn)

/-- The hold begins to run where it waits for a cause of this kind (R166, assumption log 27). -/
def State.startHold (s : State) (kind : RestartKind) : State :=
  if s.rst.cause = kind ∧ s.rst.hold = .waiting then
    { s with rst := { s.rst with hold := .running (s.now + bypassHoldTime) } }
  else s

/-- The supply has settled (R166). -/
def State.powerSettled (s : State) : State :=
  if s.rst.supplySettling then ({ s with rst := { s.rst with supplySettling := false } } : State).startHold .powerOn else s

def execPowerSettled (dt : Nat) (s : State) : Result := .next (s.elapse dt).powerSettled

/-- RST_N goes low (R166); it is low already where a PIN cause lasts. -/
def State.rstNLow (s : State) : State := if s.rst.rstLow then s else s.beginRestart .pin

def execRstNLow (dt : Nat) (s : State) : Result := .next (s.elapse dt).rstNLow

/-- RST_N rises (R166). -/
def State.rstNHigh (s : State) : State :=
  if s.rst.rstLow then ({ s with rst := { s.rst with rstLow := false } } : State).startHold .pin else s

def execRstNHigh (dt : Nat) (s : State) : Result := .next (s.elapse dt).rstNHigh

/-- A pending remote restart is due: its response has left, or the second close has been reached (R124). -/
def State.remoteDue (s : State) : Bool :=
  match s.mgmt.pendingRestart with
  | some x => x.left || decide (2 ≤ x.closes)
  | none => false

/-- R124: the pending restart begins. -/
def execRemoteRestartBegin (dt : Nat) (s : State) : Result :=
  let s := s.elapse dt
  .next (if s.remoteDue then s.beginRestart .remote else s)

/-- A strap value that is a tap's number (R1, R167). -/
def validStrap (x : Station) : Bool := decide (1 ≤ x.toNat) && decide (x.toNat ≤ 62)

/-- The tap leaves bypass (R167, R135, R149): both down holds run. -/
def State.leaveBypass (s : State) : State :=
  let down := fun (u : PortUnit) =>
    { u with monitor := .down, cause := .none, hold := some (s.now + downHoldTime), qual := none, window := [], inService := false }
  ((s.modUnit .w down).modUnit .e down).setTapState .unconfigured

/-- R167: the bypass hold expires and the straps are sampled. -/
def State.bypassHoldExpiry (s : State) (straps : Station) : State :=
  match s.rst.hold with
  | .running t =>
    let s := s.reach t
    let s : State :=
      { s with rst := { s.rst with hold := .idle, station := straps, strapInvalid := !validStrap straps } }
    if validStrap straps then s.leaveBypass else s
  | .idle => s
  | .waiting => s

def execBypassHoldExpiry (dt : Nat) (straps : Station) (s : State) : Result := .next ((s.elapse dt).bypassHoldExpiry straps)

end Sys2Proof.Machine
end

