-- ==== Sys2Proof/Machine/LocalPort.lean ====
section
/-! DEFINITION. The local port: transactions and bursts (R161, R170), the writes of R162, and the local actions (R164). -/

namespace Sys2Proof.Machine

/-- A POWER-ON or PIN cause lasts, so the port serves nothing (R161). -/
def State.causeLasts (s : State) : Bool := s.rst.supplySettling || s.rst.rstLow

/-! ### Transactions -/

/-- The select is released: a read burst on a receive bank ends there (R63). -/
def State.endTransaction (s : State) : State :=
  match s.lsp.txn with
  | none => s
  | some t =>
    let s1 : State := { s with lsp := { s.lsp with txn := none } }
    match t.burst with
    | some (.read b) => { s1 with rx := upd s1.rx b s1.rx[b].endBurst }
    | some (.write _) => s1
    | none => s1

def readBurstOf (a : Word) : Option Burst :=
  match region a with
  | .rxWindow b _ => some (.read b)
  | _ => none

def writeBurstOf (a : Word) : Option Burst :=
  match region a with
  | .pubWindow p _ => some (.write p)
  | _ => none

def State.openTxn (s : State) (t : Txn) (out : List Word) : State := { s with lsp := { s.lsp with txn := some t, out := out } }

/-- R161, R170: the command byte and the address are complete; `words` words are clocked out at once. A transaction still open
is released first. While a POWER-ON or PIN cause lasts nothing is served, and a bad command byte sets no LOCAL_ERROR (R161 against
R170, assumption log 15). -/
def State.transactionStart (s : State) (command : Byte) (a : Word) (words : Nat) : State :=
  let s := s.endTransaction
  if s.causeLasts then s.openTxn ⟨.dead, none, a, false⟩ (List.replicate words 0)
  else if command = 0x01#8 then s.openTxn ⟨.read, readBurstOf a, addressAfter a words, false⟩ (s.burstWords a words)
  else if command = 0x02#8 then s.openTxn ⟨.write, writeBurstOf a, a, false⟩ []
  else s.localError.openTxn ⟨.dead, none, a, false⟩ (List.replicate words 0)

/-- The next words of the transaction in progress (R161). -/
def State.moreWords (s : State) (words : Nat) : List Word :=
  match s.lsp.txn with
  | none => []
  | some t =>
    match t.kind with
    | .read => s.burstWords t.address words
    | .write => []
    | .dead => List.replicate words 0

/-- A read moves on past the words clocked out (R161). -/
def Txn.clocked (t : Txn) (words : Nat) : Txn :=
  match t.kind with
  | .read => { t with address := addressAfter t.address words }
  | .write => t
  | .dead => t

/-- R161: `words` more words are clocked out of the transaction in progress, each from its address now. -/
def State.clockWords (s : State) (words : Nat) : State :=
  { s with lsp := { s.lsp with out := s.lsp.out ++ s.moreWords words, txn := s.lsp.txn.map fun t => t.clocked words } }

/-- A command byte begins a transaction; without one the select is held, and more words are clocked out (assumption log 15). -/
def execLspTransactionStart (dt : Nat) (command : Option Byte) (a : Word) (words : Nat) (s : State) : Result :=
  match command with
  | some x => .next ((s.elapse dt).transactionStart x a words)
  | none => .next ((s.elapse dt).clockWords words)

/-- R63, R161: `words` more words are clocked out and the select is released. -/
def State.selectRelease (s : State) (words : Nat) : State := (s.clockWords words).endTransaction

def execLspSelectRelease (dt : Nat) (words : Nat) (s : State) : Result := .next ((s.elapse dt).selectRelease words)

/-! ### Writes -/

/-- Whether a written word is served: in a WRITE transaction, or as a transaction of its own while no cause lasts (assumption
log 15). -/
def State.servesWrite (s : State) : Bool :=
  match s.lsp.txn with
  | some t => decide (t.kind = .write)
  | none => !s.causeLasts

/-- The address of the transaction in progress moves on past the word written at `a` (R161). -/
def State.moveOn (s : State) (a : Word) : State :=
  { s with lsp := { s.lsp with txn := s.lsp.txn.map fun t => { t with address := nextAddress a } } }

/-- A word written at `a`, with what it does where it is served. -/
def State.lspWrite (s : State) (a : Word) (act : State → State) : State := if s.servesWrite then (act s).moveOn a else s

/-- R68: word w of the DRAFT buffer. -/
def State.writeDraft (s : State) (p : Fin 4) (w : Fin 128) (value : Word) : State :=
  { s with pub := upd s.pub p (s.pub[p].setDraft (upd s.pub[p].draft w value)) }

def execPublishWindowWrite (dt : Nat) (p : Fin 4) (w : Fin 128) (value : Word) (s : State) : Result :=
  .next ((s.elapse dt).lspWrite (pubAddress p w) fun s => s.writeDraft p w value)

/-- R61: HOLD as the word says, in bit 0 (12.3), whatever the other bits (assumption log 40). -/
def State.writeHold (s : State) (b : Fin 8) (value : Word) : State :=
  { s with rx := upd s.rx b { s.rx[b] with hold := value.getLsbD 0 } }

def execBankControlWrite (dt : Nat) (b : Fin 8) (value : Word) (s : State) : Result :=
  .next ((s.elapse dt).lspWrite (controlAddress b) fun s => s.writeHold b value)

/-- R94: the message part of a FREE mailbox; otherwise ignored, a local port error. -/
def State.writeMessage (s : State) (m : Fin 8) (w : Fin 50) (value : Word) : State :=
  let x := s.sched.mailboxes[m]
  if x.state = .free then
    { s with sched := { s.sched with mailboxes := upd s.sched.mailboxes m { x with message := upd x.message w value } } }
  else s.localError

def execMailboxWrite (dt : Nat) (m : Fin 8) (w : Fin 50) (value : Word) (s : State) : Result :=
  .next ((s.elapse dt).lspWrite (mailboxAddress m w.val) fun s => s.writeMessage m w value)

/-- R159: the mask is replaced; bits 15:11 are ignored. -/
def State.writeMask (s : State) (value : Word) : State := { s with att := { s.att with mask := value.extractLsb' 0 11 } }

def execAttentionMaskWrite (dt : Nat) (value : Word) (s : State) : Result :=
  .next ((s.elapse dt).lspWrite maskAddress fun s => s.writeMask value)

/-- R162, R164: the word is ignored, a local port error. -/
def execLspIgnoredWrite (dt : Nat) (a : Word) (s : State) : Result :=
  .next ((s.elapse dt).lspWrite a State.localError)

/-! ### Local actions (R164) -/

/-- What an action leaves: the tap and the report. -/
structure Acted where
  state : State
  report : Report
  deriving DecidableEq, Repr

def State.reported (s : State) (r : Report) : Acted := ⟨s, r⟩

/-- A report that is a local port error. -/
def Report.isError : Report → Bool
  | .none => false
  | .accepted => false
  | .nothingNew => false
  | .refused => true
  | .badOperand => true
  | .badAction => true

/-- The report of an action in the action word; an error sets LOCAL_ERROR. -/
def Acted.finish (x : Acted) : State :=
  let s : State := { x.state with lsp := { x.state.lsp with report := x.report } }
  if x.report.isError then s.localError else s

/-- The transaction in progress has named its action; at the action word its address does not move on. -/
def State.markActed (s : State) : State :=
  { s with lsp := { s.lsp with txn := s.lsp.txn.map fun t => { t with acted := true, address := actionAddress } } }

/-- Whether the transaction in progress has named an action already. -/
def State.alreadyActed (s : State) : Bool :=
  match s.lsp.txn with
  | some t => t.acted
  | none => false

/-- A word written at the action word: it names the transaction's action, or is an extra word (R164). -/
def State.localAction (s : State) (act : State → State) : State :=
  if s.servesWrite then if s.alreadyActed then s.localError else act s.markActed else s

/-- R62: the TAKE action, which is never deferred. -/
def State.takeAction (s : State) (operand : BitVec 12) : Acted :=
  match actionOperand 8 operand with
  | none => s.reported .badOperand
  | some b =>
    if s.rx[b].readyNew then ({ s with rx := upd s.rx b s.rx[b].take } : State).reported .accepted
    else s.reported .nothingNew

def execTake (dt : Nat) (operand : BitVec 12) (s : State) : Result :=
  .next ((s.elapse dt).localAction fun s => (s.takeAction operand).finish)

/-- R69. -/
def State.postAction (s : State) (operand : BitVec 12) : Acted :=
  match actionOperand 4 operand with
  | none => s.reported .badOperand
  | some p => ({ s with pub := upd s.pub p { s.pub[p] with posted := true } } : State).reported .accepted

def execPost (dt : Nat) (operand : BitVec 12) (s : State) : Result :=
  .next ((s.elapse dt).localAction fun s => (s.postAction operand).finish)

/-- R95. -/
def State.sendAction (s : State) (operand : BitVec 12) : Acted :=
  match actionOperand 8 operand with
  | none => s.reported .badOperand
  | some m =>
    if (s.mailbox m).state = .free ∧ s.sendable (s.mailbox m) = true then (s.setMailbox m .waiting).reported .accepted
    else s.reported .refused

def execSend (dt : Nat) (operand : BitVec 12) (s : State) : Result :=
  .next ((s.elapse dt).localAction fun s => (s.sendAction operand).finish)

/-- R96. -/
def State.cancelAction (s : State) (operand : BitVec 12) : Acted :=
  match actionOperand 8 operand with
  | none => s.reported .badOperand
  | some m =>
    if (s.mailbox m).state = .waiting then (s.setMailbox m .free).reported .accepted else s.reported .refused

def execCancel (dt : Nat) (operand : BitVec 12) (s : State) : Result :=
  .next ((s.elapse dt).localAction fun s => (s.cancelAction operand).finish)

/-- R96. -/
def State.clearAction (s : State) (operand : BitVec 12) : Acted :=
  match actionOperand 8 operand with
  | none => s.reported .badOperand
  | some m => if (s.mailbox m).isDone then (s.setMailbox m .free).reported .accepted else s.reported .refused

def execClear (dt : Nat) (operand : BitVec 12) (s : State) : Result :=
  .next ((s.elapse dt).localAction fun s => (s.clearAction operand).finish)

/-- R100. -/
def State.releaseAction (s : State) : Acted :=
  match s.inbound with
  | [] => s.reported .refused
  | _ :: rest => ({ s with inbound := rest } : State).reported .accepted

def execRelease (dt : Nat) (s : State) : Result := .next ((s.elapse dt).localAction fun s => s.releaseAction.finish)

/-- R157. -/
def State.popAction (s : State) : Acted :=
  match s.sig.stamps with
  | [] => s.reported .refused
  | _ :: rest => ({ s with sig := { s.sig with stamps := rest, overflow := false } } : State).reported .accepted

def execPopStamp (dt : Nat) (s : State) : Result := .next ((s.elapse dt).localAction fun s => s.popAction.finish)

/-- R159. -/
def State.clearCausesAction (s : State) (operand : BitVec 12) : Acted :=
  ({ s with att := s.att.clearCauses operand } : State).reported .accepted

def execClearCauses (dt : Nat) (operand : BitVec 12) (s : State) : Result :=
  .next ((s.elapse dt).localAction fun s => (s.clearCausesAction operand).finish)

/-- R164, R166: the transaction that carries it is abandoned and its report is not seen. -/
def execLocalRestart (dt : Nat) (s : State) : Result := .next ((s.elapse dt).localAction fun s => s.beginRestart .local)

/-- R164: an action code that names no action. -/
def execBadAction (dt : Nat) (_code : BitVec 4) (s : State) : Result :=
  .next ((s.elapse dt).localAction fun s => (s.reported .badAction).finish)

end Sys2Proof.Machine
end

