-- ==== Sys2Proof/Machine/Pins.lean ====
section
/-! DEFINITION. The STOP pin (R36), the trigger pins (R152, R154) and the end of a PULSE (R153). -/

namespace Sys2Proof.Machine

def State.setPinCause (s : State) (x : Bool) : State := { s with ctl := { s.ctl with pinCause := x } }

/-- STOP rises (R36): an ONLINE tap becomes HALTED. -/
def State.stopRise (s : State) : State :=
  let s := s.setPinCause true
  if s.ctl.tapState = .online then s.setTapState .halted else s

def execStopRise (dt : Nat) (s : State) : Result := .next (s.elapse dt).stopRise

/-- STOP falls (R36): a HALTED tap whose command cause is clear becomes ONLINE. -/
def State.stopFall (s : State) : State :=
  let s := s.setPinCause false
  if s.ctl.tapState = .halted ∧ s.ctl.commandCause = false then s.setTapState .online else s

def execStopFall (dt : Nat) (s : State) : Result := .next (s.elapse dt).stopFall

/-- An input pin's sampled level changes (R152); an output is not sampled. -/
def State.pinChange (s : State) (k : Fin 8) (level : Bool) : State :=
  if s.pinIsOutput k = false ∧ s.sig.trigIn[k] ≠ level then
    let s1 : State := { s with sig := { s.sig with trigIn := upd s.sig.trigIn k level } }
    if level then s1.raise (.triggerIn k) else s1
  else s

def execTriggerPinChange (dt : Nat) (k : Fin 8) (level : Bool) (s : State) : Result := .next ((s.elapse dt).pinChange k level)

/-- The time at which an output pin may fall: 1 µs after the latest rising edge, and at once where it has had none (R154, R160). -/
def OutPin.earliest (x : OutPin) : Nat :=
  match x.edge with
  | some t => t + stretchTime
  | none => 0

/-- An output pin falls where its channel is low (R154). -/
def State.trigOutFall (s : State) (k : Fin 8) : State :=
  match s.follows (trigUser k) with
  | none => s
  | some c =>
    let x := s.sig.pins[k]
    if x.high = true ∧ s.channelLevel c = false then
      let s := s.reach x.earliest
      { s with sig := { s.sig with pins := upd s.sig.pins k { x with high := false } } }
    else s

def execTrigOutFall (dt : Nat) (k : Fin 8) (s : State) : Result := .next ((s.elapse dt).trigOutFall k)

/-- The 2 µs high of a PULSE ends (R153). -/
def State.pulseEnd (s : State) (c : Fin 12) : State :=
  match s.sig.pulses[c] with
  | some t =>
    let s := s.reach t
    { s with sig := { s.sig with pulses := upd s.sig.pulses c none } }
  | none => s

def execPulseEnd (dt : Nat) (c : Fin 12) (s : State) : Result := .next ((s.elapse dt).pulseEnd c)

end Sys2Proof.Machine
end

