-- ==== Sys2Proof/Machine/Dispatch.lean ====
section
/-! DEFINITION. The meaning of every command. -/

namespace Sys2Proof.Machine

def exec (i : Instr) (s : State) : Host.Outcome State Fault Refusal :=
  match i with
  | .header dt p f fcs => Sys2Proof.Machine.execHeader dt p f fcs s
  | .block dt p f fcs => Sys2Proof.Machine.execBlock dt p f fcs s
  | .container dt p f fcs => Sys2Proof.Machine.execContainer dt p f fcs s
  | .roll dt p f fcs => Sys2Proof.Machine.execRoll dt p f fcs s
  | .echo dt p f fcs => Sys2Proof.Machine.execEcho dt p f fcs s
  | .unknownKind dt p f fcs => Sys2Proof.Machine.execUnknownKind dt p f fcs s
  | .gapTimerExpiry dt => Sys2Proof.Machine.execGapTimerExpiry dt s
  | .trainTimerExpiry dt => Sys2Proof.Machine.execTrainTimerExpiry dt s
  | .lockLost dt p => Sys2Proof.Machine.execLockLost dt p s
  | .lockGained dt p => Sys2Proof.Machine.execLockGained dt p s
  | .farEndRecognised dt p sig => Sys2Proof.Machine.execFarEndRecognised dt p sig s
  | .downHoldExpiry dt p => Sys2Proof.Machine.execDownHoldExpiry dt p s
  | .qualificationComplete dt p => Sys2Proof.Machine.execQualificationComplete dt p s
  | .returnToService dt p => Sys2Proof.Machine.execReturnToService dt p s
  | .echoTransmitStart dt p => Sys2Proof.Machine.execEchoTransmitStart dt p s
  | .echoReplySent dt p => Sys2Proof.Machine.execEchoReplySent dt p s
  | .echoRequestSent dt p => Sys2Proof.Machine.execEchoRequestSent dt p s
  | .echoWaitExpiry dt => Sys2Proof.Machine.execEchoWaitExpiry dt s
  | .sessionIdleExpiry dt => Sys2Proof.Machine.execSessionIdleExpiry dt s
  | .stopRise dt => Sys2Proof.Machine.execStopRise dt s
  | .stopFall dt => Sys2Proof.Machine.execStopFall dt s
  | .triggerPinChange dt k level => Sys2Proof.Machine.execTriggerPinChange dt k level s
  | .trigOutFall dt k => Sys2Proof.Machine.execTrigOutFall dt k s
  | .pulseEnd dt c => Sys2Proof.Machine.execPulseEnd dt c s
  | .powerOn dt => Sys2Proof.Machine.execPowerOn dt s
  | .powerSettled dt => Sys2Proof.Machine.execPowerSettled dt s
  | .rstNLow dt => Sys2Proof.Machine.execRstNLow dt s
  | .rstNHigh dt => Sys2Proof.Machine.execRstNHigh dt s
  | .remoteRestartBegin dt => Sys2Proof.Machine.execRemoteRestartBegin dt s
  | .bypassHoldExpiry dt straps => Sys2Proof.Machine.execBypassHoldExpiry dt straps s
  | .lspTransactionStart dt command address words => Sys2Proof.Machine.execLspTransactionStart dt command address words s
  | .lspSelectRelease dt words => Sys2Proof.Machine.execLspSelectRelease dt words s
  | .publishWindowWrite dt p w value => Sys2Proof.Machine.execPublishWindowWrite dt p w value s
  | .bankControlWrite dt b value => Sys2Proof.Machine.execBankControlWrite dt b value s
  | .mailboxWrite dt m w value => Sys2Proof.Machine.execMailboxWrite dt m w value s
  | .attentionMaskWrite dt value => Sys2Proof.Machine.execAttentionMaskWrite dt value s
  | .lspIgnoredWrite dt address => Sys2Proof.Machine.execLspIgnoredWrite dt address s
  | .take dt operand => Sys2Proof.Machine.execTake dt operand s
  | .post dt operand => Sys2Proof.Machine.execPost dt operand s
  | .send dt operand => Sys2Proof.Machine.execSend dt operand s
  | .cancel dt operand => Sys2Proof.Machine.execCancel dt operand s
  | .clear dt operand => Sys2Proof.Machine.execClear dt operand s
  | .release dt => Sys2Proof.Machine.execRelease dt s
  | .popStamp dt => Sys2Proof.Machine.execPopStamp dt s
  | .clearCauses dt operand => Sys2Proof.Machine.execClearCauses dt operand s
  | .localRestart dt => Sys2Proof.Machine.execLocalRestart dt s
  | .badAction dt code => Sys2Proof.Machine.execBadAction dt code s
  | .identify dt source tag => Sys2Proof.Machine.execIdentify dt source tag s
  | .readStatus dt source tag => Sys2Proof.Machine.execReadStatus dt source tag s
  | .readCounters dt source tag group => Sys2Proof.Machine.execReadCounters dt source tag group s
  | .clearCounters dt source tag group => Sys2Proof.Machine.execClearCounters dt source tag group s
  | .readCensus dt source tag first count => Sys2Proof.Machine.execReadCensus dt source tag first count s
  | .readSubscriptionState dt source tag first count => Sys2Proof.Machine.execReadSubscriptionState dt source tag first count s
  | .readEntry dt source tag set table index => Sys2Proof.Machine.execReadEntry dt source tag set table index s
  | .openEdit dt source tag setId => Sys2Proof.Machine.execOpenEdit dt source tag setId s
  | .stageEntry dt source tag table index entry => Sys2Proof.Machine.execStageEntry dt source tag table index entry s
  | .clearStaged dt source tag table => Sys2Proof.Machine.execClearStaged dt source tag table s
  | .commit dt source tag mode epoch => Sys2Proof.Machine.execCommit dt source tag mode epoch s
  | .abandonEdit dt source tag => Sys2Proof.Machine.execAbandonEdit dt source tag s
  | .queryEdit dt source tag => Sys2Proof.Machine.execQueryEdit dt source tag s
  | .halt dt source tag => Sys2Proof.Machine.execHalt dt source tag s
  | .resume dt source tag => Sys2Proof.Machine.execResume dt source tag s
  | .returnWrap dt source tag port => Sys2Proof.Machine.execReturnWrap dt source tag port s
  | .pulse dt source tag channel => Sys2Proof.Machine.execPulse dt source tag channel s
  | .restart dt source tag => Sys2Proof.Machine.execRestart dt source tag s
  | .segmentTestStart dt source tag port count => Sys2Proof.Machine.execSegmentTestStart dt source tag port count s
  | .segmentTestResult dt source tag => Sys2Proof.Machine.execSegmentTestResult dt source tag s
  | .badCommand dt source tag payload => Sys2Proof.Machine.execBadCommand dt source tag payload s
  | .frameBeginsToArrive dt p lead => Sys2Proof.Machine.execFrameBeginsToArrive dt p lead s

end Sys2Proof.Machine
end

