-- ==== Sys2Proof/Machine/Step.lean ====
section
/-! DEFINITION. One step: the command at the front of the queue (assumption log 3). -/

namespace Sys2Proof.Machine

/-- The front command runs on the state with the queue's rest; on an empty queue the tap is unchanged. -/
def step (s : State) : Host.Outcome State Fault Refusal :=
  match s.pending with
  | [] => .next s
  | c :: rest => exec c { s with pending := rest }

/-- A command at the front of the queue. -/
def State.withCommand (s : State) (c : Instr) : State := { s with pending := c :: s.pending }

/-- The command a word spells, at the front of the queue; no word spells one. -/
def State.withFetchWord (s : State) (nbits w : Nat) : State :=
  match decodeTableWord nbits w with
  | some c => s.withCommand c
  | none => s

end Sys2Proof.Machine
end

