-- ==== Sys2Proof/WellFormed.lean ====
section
/-! DEFINITION. Which terms of `Instr` are commands of the part. Ranges that a type states (a bank, a pin, a channel) need
no check; these are the others. A meaning does not rest on them: it is total. -/

namespace Sys2Proof

/-- A ROLL whose closed count locates its entries holds that many (R9, 12.1). -/
def RollFrame.wellFormed (f : RollFrame) : Bool :=
  decide (f.closedCount.toNat ≤ 63 → f.closed.length = f.closedCount.toNat)

/-- An unknown kind is none of the five (R11). -/
def UnknownFrame.wellFormed (f : UnknownFrame) : Bool :=
  decide (f.kind ≠ 0x01#8 ∧ f.kind ≠ 0x02#8 ∧ f.kind ≠ 0x03#8 ∧ f.kind ≠ 0x04#8 ∧ f.kind ≠ 0x05#8)

def Frame.wellFormed : Frame → Bool
  | .header _ => true
  | .block _ => true
  | .container _ => true
  | .roll f => f.wellFormed
  | .echo _ => true
  | .unknown f => f.wellFormed

/-- LSP_IGNORED_WRITE is a write at an address that ignores writes, or an extra word at the action word (R162, R164);
BAD_ACTION carries a code that names no action (R164); BAD_COMMAND carries a payload that is no request, and not more than
a container holds (R106, R8). -/
def Instr.wellFormed : Instr → Bool
  | .roll _ _ f _ => f.wellFormed
  | .unknownKind _ _ f _ => f.wellFormed
  | .lspIgnoredWrite _ a => Machine.ignoresWrites a || decide (Machine.region a = .action)
  | .badAction _ code => decide (code = 0#4 ∨ 10 ≤ code.toNat)
  | .badCommand _ _ _ payload => decide (payload.length ≤ 96) && (Request.decode payload).isNone
  | .header .. | .block .. | .container .. | .echo .. | .gapTimerExpiry .. | .trainTimerExpiry .. => true
  | .lockLost .. | .lockGained .. | .farEndRecognised .. | .downHoldExpiry .. | .qualificationComplete .. => true
  | .returnToService .. | .echoTransmitStart .. | .echoReplySent .. | .echoRequestSent .. | .echoWaitExpiry .. => true
  | .sessionIdleExpiry .. | .stopRise .. | .stopFall .. | .triggerPinChange .. | .trigOutFall .. | .pulseEnd .. => true
  | .powerOn .. | .powerSettled .. | .rstNLow .. | .rstNHigh .. | .remoteRestartBegin .. | .bypassHoldExpiry .. => true
  | .lspTransactionStart .. | .lspSelectRelease .. | .publishWindowWrite .. | .bankControlWrite .. => true
  | .mailboxWrite .. | .attentionMaskWrite .. | .take .. | .post .. | .send .. | .cancel .. | .clear .. => true
  | .release .. | .popStamp .. | .clearCauses .. | .localRestart .. | .identify .. | .readStatus .. => true
  | .readCounters .. | .clearCounters .. | .readCensus .. | .readSubscriptionState .. | .readEntry .. => true
  | .openEdit .. | .stageEntry .. | .clearStaged .. | .commit .. | .abandonEdit .. | .queryEdit .. => true
  | .halt .. | .resume .. | .returnWrap .. | .pulse .. | .restart .. | .segmentTestStart .. => true
  | .segmentTestResult .. | .frameBeginsToArrive .. => true

end Sys2Proof
end

