-- ==== Sys2Proof/Safety.lean ====
section
/-! DEFINITION. The terms claims are made in: what it is for a request to be taken, the laws of the state that every step keeps,
the entries a table may hold, and the ways of saying that a command changes nothing else. -/

namespace Sys2Proof.Machine

/-! ### Requests -/

/-- The row of a request (spec/opcode_table.json, families "management requests"). -/
def requestRow (r : Request) (dt : Nat) (src : Station) (tag : Byte) : Instr :=
  match r with
  | .identify => .identify dt src tag
  | .readStatus => .readStatus dt src tag
  | .readCounters g => .readCounters dt src tag g
  | .clearCounters g => .clearCounters dt src tag g
  | .readCensus f c => .readCensus dt src tag f c
  | .readSubscriptionState f c => .readSubscriptionState dt src tag f c
  | .readEntry a t i => .readEntry dt src tag a t i
  | .openEdit id => .openEdit dt src tag id
  | .stageEntry t i x => .stageEntry dt src tag t i x
  | .clearStaged t => .clearStaged dt src tag t
  | .commit m e => .commit dt src tag m e
  | .abandonEdit => .abandonEdit dt src tag
  | .queryEdit => .queryEdit dt src tag
  | .halt => .halt dt src tag
  | .resume => .resume dt src tag
  | .returnWrap p => .returnWrap dt src tag p
  | .pulse c => .pulse dt src tag c
  | .restart => .restart dt src tag
  | .segmentTestStart p n => .segmentTestStart dt src tag p n
  | .segmentTestResult => .segmentTestResult dt src tag

/-- The conditions on which a request is taken (R84, R89): the tap takes containers and the response queue has room. -/
def State.hasRoom (s : State) : Prop :=
  (s.ctl.tapState = .unconfigured ∨ s.ctl.tapState = .online ∨ s.ctl.tapState = .halted) ∧ s.mgmt.responses.length < 4

/-- Some slot of the active manager set holds the station (R105). -/
def State.manages (s : State) (src : Station) : Prop := ∃ i : Fin 4, ∃ m : Fin 63, s.mgmt.active.managers[i] = some m ∧ m.val = src.toNat

/-- The conditions on which a request is executed (R107, R108): taken, from a manager, under a tag that is not the last. -/
def State.executes (s : State) (src : Station) (tag : Byte) : Prop :=
  s.hasRoom ∧ s.manages src ∧ ∀ c, s.cached src = some c → c.tag ≠ tag

/-- The tap a request from `src` is executed in: the time has passed and the owner's idle timer has restarted (R116). -/
def State.asked (s : State) (dt : Nat) (src : Station) : State := (s.elapse dt).touchSession src

/-- The tap after a response: it is the newest in the queue and, from a manager, its station's cache record (R106, R108). -/
def State.replied (s : State) (src : Station) (tag : Byte) (payload : List Byte) (restarts : Bool) : State :=
  (s.respond ⟨src, tag, payload, restarts⟩).remember src ⟨tag, payload⟩

/-! ### Nothing else changes -/

/-- Only what a rising edge moves, and the fields named by `keep`, may differ: `t` is `s` with those replaced. A rising edge moves
the publish banks' posted flags, the receive banks' roles, the pins and the stamps (R154 to R156). -/
def EdgeOnly (s t : State) : Prop := t = { s with pub := t.pub, rx := t.rx, sig := t.sig }

/-! ### Laws -/

/-- R58: in each receive bank the three roles are held by three buffers. -/
def State.RolesLaw (s : State) : Prop := ∀ b : Fin 8, s.rx[b].rolesDistinct = true

/-- R99, R109, R156, R137, R104: how much each queue holds. -/
def State.QueueLaw (s : State) : Prop :=
  s.mgmt.responses.length ≤ 4 ∧ s.inbound.length ≤ 8 ∧ s.sig.stamps.length ≤ 4 ∧ s.portW.window.length ≤ 64 ∧
    s.portE.window.length ≤ 64

/-- R2: a port whose receive monitor is not UP is never in service. -/
def State.ServiceLaw (s : State) : Prop := ∀ p : Port, (s.unit p).inService = true → (s.unit p).monitor = .up

/-- R50: a FRESH or UNSEEN entry's age is at most its limit, a STALE entry's above it. -/
def State.FreshnessLaw (s : State) : Prop :=
  ∀ e : Fin 32, s.mgmt.active.subs[e].valid = true →
    (s.subs[e].freshness = .stale ↔ s.mgmt.active.subs[e].ageLimit < s.subs[e].age)

/-- R105, R117: the active set passes the validation of COMMIT, and so does a staged set whose commit is pending. -/
def State.TablesLaw (s : State) : Prop :=
  s.mgmt.active.firstInvalid = none ∧
    ∀ x, s.mgmt.session = some x → x.state.isOpened = false → x.staged.firstInvalid = none

/-! ### Entries a table may hold -/

/-- The ranges of R40. -/
def SubEntry.inRange (e : SubEntry) : Prop :=
  1 ≤ e.count.val ∧ e.first.val + e.count.val ≤ 4 ∧ e.ageLimit ≠ 0 ∧ e.ageLimit ≠ 255

/-- The ranges of R73. -/
def PubEntry.inRange (e : PubEntry) : Prop := 1 ≤ e.count.val ∧ e.first.val + e.count.val ≤ 4

/-- The ranges of R105. -/
def Params.inRange (x : Params) : Prop :=
  1 ≤ x.qualification.toNat ∧ 1 ≤ x.lostThreshold.toNat ∧ 1 ≤ x.fillQuota.toNat ∧ x.fillQuota.toNat ≤ 4 ∧
    1 ≤ x.cycleLoss.toNat ∧ x.cycleLoss.toNat ≤ 15

/-- Ranges that the entry's type does not state already. -/
def Entry.inRange : Entry → Prop
  | .sub x => x.inRange
  | .pub x => x.inRange
  | .channel _ => True
  | .user _ => True
  | .manager _ => True
  | .params x => x.inRange

/-- The table an entry belongs to. -/
def Entry.table : Entry → Table
  | .sub _ => .subscription
  | .pub _ => .publish
  | .channel _ => .channel
  | .user _ => .user
  | .manager _ => .manager
  | .params _ => .parameters

/-! ### Frames met on the way -/

/-- The port takes part in the train and the frame is not arriving yet: the common premise of the statements about frames. -/
def State.listens (s : State) (p : Port) : Prop :=
  s.ctl.tapState ≠ .bypass ∧ (s.unit p).inService = true ∧ (s.unit p).arriving = none ∧ (s.unit p).discard = false

/-- The frame leaves at once: no ECHO is being sent at the port it leaves by. -/
def State.lineFree (s : State) (p : Port) : Prop := ∀ out, s.route p = some out → (s.unit out).tx = none

/-- What the tap decides of a frame that begins at a listening port: where it leaves (R2), for a BLOCK whether it is handed to the
capture unit and what is published into it (R26, R37, R43, R75; assumption log 37), and for a ROLL of the train in progress the
sample (R125). -/
def State.decides (s : State) (p : Port) (lead : Lead) : Arriving :=
  let inPlace (n : Byte) : Bool :=
    decide (s.trk.record = .inTrain p) && decide (s.trk.expected = some (.block n.toNat)) && decide (s.ctl.tapState = .online)
  { lead := lead
    seen := true
    out := s.route p
    overTurn := false
    capture :=
      match lead with
      | .block n => inPlace n
      | _ => false
    writes :=
      match lead with
      | .block n => if inPlace n = true then s.publishWrites n else []
      | _ => []
    roll :=
      if lead = .roll ∧ s.trk.record = .inTrain p then
        some ⟨s.ctl.tapState, decide (s.portW.monitor = .up), decide (s.portE.monitor = .up),
          s.portW.inService != s.portE.inService⟩
      else none }

/-- A frame that the tracker sees ends at the port with the decisions `a`: its beginning was a command of its own and they were made
then, or one command is the whole frame, at a listening port and not over-turned (R143), and they are made now. -/
def State.meets (s : State) (p : Port) (lead : Lead) (a : Arriving) : Prop :=
  s.ctl.tapState ≠ .bypass ∧ a.lead = lead ∧ a.seen = true ∧ a.overTurn = false ∧
    ((∀ n, lead ≠ .block n) → a.writes = []) ∧
    ((s.unit p).arriving = some a ∨
      s.listens p ∧ (lead ≠ .header 3#2 ∨ s.route p ≠ some p) ∧ a = s.decides p lead)

/-- The premises on which a good HEADER begins a first pass (R21): the tracker sees it, its copy leaves by the port's present route,
which is free, no train is in progress, and its cycle is new. -/
def State.meetsFirstPass (s : State) (p : Port) (f : HeaderFrame) : Prop :=
  (∃ a, s.meets p (.header (f.turn.extractLsb' 0 2)) a ∧ a.out = s.route p) ∧ s.lineFree p ∧
    (∀ q, s.trk.record ≠ .inTrain q) ∧ (s.trk.valid = false ∨ f.cycle ≠ s.trk.lastCycle)

/-- A frame that the tracker does not see ends at the port, and `discard` is the port's over-turn discard then: its beginning was a
command of its own, or one command is the whole frame, and `whole` says why it is not seen. -/
def State.passesBy (s : State) (p : Port) (lead : Lead) (whole : Prop) : Prop :=
  s.ctl.tapState ≠ .bypass ∧
    ((s.unit p).arriving = some ⟨lead, false, none, false, false, [], none⟩ ∨ (s.unit p).arriving = none ∧ whole)

/-- What a frame leaves by `out`, if by any port: `x` has left, or, while an ECHO is being sent there, waits in the elastic buffer
behind what waits there already (R145). `written`: its loss there would count one publish lost (R78, R140). `restarts`: it carries
the response of a RESTART, whose mark it leaves as it goes (R124). -/
def State.leaves (s : State) (out : Option Port) (x : SentContent) (written restarts : Bool) : State :=
  match out with
  | none => s
  | some q =>
    if (s.unit q).tx.isSome = true then s.modUnit q fun u => { u with elastic := u.elastic ++ [⟨x, written, restarts⟩] }
    else
      { s with
        sent := s.sent ++ [⟨q, x⟩]
        mgmt := { s.mgmt with
          pendingRestart :=
            if restarts = true then s.mgmt.pendingRestart.map fun y => { y with left := true } else s.mgmt.pendingRestart } }

/-- The end of frame `f` at port `p`, `dt` after `s`: it is counted at the port (R11, R12) and, where it was `written` and proves
bad, as one publish lost (R78); it leaves by `out`, if at all, as `g`, whole with a correct check where the incoming one was good
and else stomped (R2, R13), or closed stomped where it ended early (R3); and its outcome joins the port's error window last, which
may take the port DOWN (R137, assumption log 9). -/
def State.frameEnds (s : State) (dt : Nat) (p : Port) (f g : Frame) (fcs : Option Fcs) (out : Option Port) (written : Bool) :
    State :=
  let check := f.outcome fcs
  let content : SentContent :=
    match fcs with
    | some _ => .whole g (if check = .good then g.check else ~~~g.check)
    | none => .cut g.lead
  let lost : Bool := written && decide (check ≠ .good) && out.isSome
  let counted : State :=
    State.modUnit
      { s with
        now := s.now + dt
        ctr := { s.ctr with publishLost := if lost = true then satInc s.ctr.publishLost else s.ctr.publishLost } } p fun u =>
      { u with
        arriving := none
        counters :=
          { u.counters with
            frames := satInc u.counters.frames
            lineErrors := if check = .bad then satInc u.counters.lineErrors else u.counters.lineErrors
            passedBad := if check = .stomped then satInc u.counters.passedBad else u.counters.passedBad
            unknownKind := if f.lead = .unknown then satInc u.counters.unknownKind else u.counters.unknownKind } }
  State.windowAdd (counted.leaves out content (written && decide (check = .good)) false) p (decide (check = .bad))

/-- R28: frame `f`, whose check is stomped or bad, ends at the port of the train in progress with the decisions `a`, and `r` is what
its command answers. It is an order defect and takes the place of the expected frame: the position moves on past that frame's,
or, where the ROLL was expected, the train closes DEFECTIVE; no unit acts on it, and it leaves as `g`. -/
def State.takesPlace (s : State) (dt : Nat) (p : Port) (f g : Frame) (fcs : Option Fcs) (a : Arriving) (r : Result) : Prop :=
  let ends (t : State) (dt : Nat) : Result := .next (t.frameEnds dt p f g fcs a.out (!a.writes.isEmpty))
  let armed : Tracker := { s.trk with defect := true, gapTimer := some (s.now + dt + 100) }
  (∀ k, s.trk.expected = some (.block k) →
    r = ends
      { s with
        trk :=
          { armed with
            expected := some
              (if k + 1 < s.trk.blocks.toNat then .block (k + 1) else if s.trk.containers ≠ 0 then .container 0 else .roll) } }
      dt) ∧
    (∀ k, s.trk.expected = some (.container k) →
      r = ends
        { s with
          trk := { armed with expected := some (if k + 1 < s.trk.containers.toNat then .container (k + 1) else .roll) } } dt) ∧
    (s.trk.expected = some .unordered → r = ends { s with trk := armed } dt) ∧
    (s.trk.expected = some .roll →
      r = ends (State.close { s with now := s.now + dt, trk := { s.trk with defect := true } } .defective none) 0)

/-- A commit is due at a header with this epoch (R118, R119). -/
def State.commitDue (s : State) (x : Session) (epoch : Byte) : Prop :=
  s.mgmt.session = some x ∧ (x.state = .commitPending none ∨ x.state = .commitPending (some epoch))

end Sys2Proof.Machine
end

