-- ==== Sys2Proof/Certificates/Slice0/Obligations.lean ====
section
/-! DEFINITION. The statements for the provers. Where one says "by the model's choice", the log entry it names fixes what the spec
leaves open. Everywhere `now` (log 1), `sent` (log 6), `pending` (log 3), `lsp.out` and the record of a transaction (log 15) are the
model's own, and a frame's copy has left, or waits whole in the elastic buffer, when the frame ends (log 5). -/

open Sys2Proof Sys2Proof.Machine

/-! ### The machine -/

/-- A step runs the command at the front of the queue on the state with the queue's rest; on an empty queue it changes nothing,
by the model's choice (log 3). -/
def Obligations.StepRunsTheFrontCommand : Prop :=
  (∀ (c : Instr) (rest : List Instr) (s : State), step { s with pending := c :: rest } = exec c { s with pending := rest }) ∧
    ∀ s : State, s.pending = [] → step s = .next s

/-- Every command answers a next state in every state: nothing stops the tap, by the model's reading (log 32). It leaves the queue
alone, time does not run back, and what has left the tap stays as it was. -/
def Obligations.EveryCommandAnswers : Prop :=
  ∀ (c : Instr) (s : State), ∃ (t : State) (l : List Sent),
    exec c s = .next t ∧ t.pending = s.pending ∧ s.now ≤ t.now ∧ t.sent = s.sent ++ l

/-! ### Encodings -/

/-- A frame's bytes spell that frame (12.1, R169). The three outcomes of a received check (R12), and the check a frame leaves with:
the next station finds it good where it was good, and stomped where it was not (R13). -/
def Obligations.FrameBytesSpellTheFrame : Prop :=
  (∀ f : Frame, f.wellFormed = true → Frame.parse f.bytes = some f) ∧
  (∀ f : Frame,
    f.outcome (some f.check) = .good ∧ f.outcome (some (~~~f.check)) = .stomped ∧ f.outcome none = .bad ∧
      (∀ c : Fcs, c ≠ f.check → c ≠ ~~~f.check → f.outcome (some c) = .bad) ∧
      f.outcome (some (outgoingCheck f .good)) = .good ∧ f.outcome (some (outgoingCheck f .stomped)) = .stomped ∧
      f.outcome (some (outgoingCheck f .bad)) = .stomped)

/-- A request's payload spells that request, bytes beyond its operands ignored, and no other payload does (12.2, R106); that COMMIT
carries its epoch byte in either mode is by the model's reading (log 12). An entry's eight bytes spell that entry (12.2), a valid
byte with its other bits 0 by the model's choice (log 40). -/
def Obligations.RequestPayloadSpellsTheRequest : Prop :=
  (∀ (l : List Byte) (r : Request), Request.decode l = some r ↔ ∃ extra, l = r.payload ++ extra) ∧
  (∀ x : Entry, x.inRange → decodeEntry x.table x.encode = some x)

/-! ### Laws every step keeps -/

/-- The laws hold at reset. -/
def Obligations.LawsHoldAtReset : Prop :=
  State.reset.RolesLaw ∧ State.reset.QueueLaw ∧ State.reset.ServiceLaw ∧ State.reset.FreshnessLaw ∧ State.reset.TablesLaw

/-- Every step keeps one buffer for each role of each receive bank (R58). -/
def Obligations.StepKeepsRolesLaw : Prop := ∀ s t : State, s.RolesLaw → step s = .next t → t.RolesLaw

/-- Every step keeps the response queue within 4 (R109), the inbound queue within 8 (R99), the stamp FIFO within 4 (R156) and
each error window within 64 (R137). -/
def Obligations.StepKeepsQueueLaw : Prop := ∀ s t : State, s.QueueLaw → step s = .next t → t.QueueLaw

/-- Every step keeps a port whose monitor is not UP out of service (R2). -/
def Obligations.StepKeepsServiceLaw : Prop := ∀ s t : State, s.ServiceLaw → step s = .next t → t.ServiceLaw

/-- Every step keeps the law of freshness and age (R50). -/
def Obligations.StepKeepsFreshnessLaw : Prop := ∀ s t : State, s.FreshnessLaw → step s = .next t → t.FreshnessLaw

/-- Every step keeps the active set, and a staged set whose commit is pending, sound by the validation of COMMIT (R117). -/
def Obligations.StepKeepsTablesLaw : Prop := ∀ s t : State, s.TablesLaw → step s = .next t → t.TablesLaw

/-! ### HEADER -/

/-- A good HEADER of a new cycle at a port in service, with no train in progress and no over-turn, whether it is one command or its
beginning was one of its own (State.meetsFirstPass; log 4), begins a first pass: what the tracker records (R6, R21, R25, R34), the
stamp reference (R156), the USER fill count (R92), and the header leaving, turned where the tap turns (R13, R143). Inbound queue,
roll unit, restart controller and local port are as before. The order of the effects (log 7), and that R6 decides what enters the
interval record at a header whose period it substitutes and R25 at every other (log 36), are by the model's choice. -/
def Obligations.HeaderBeginsFirstPass : Prop :=
  ∀ (dt : Nat) (p : Port) (f : HeaderFrame) (s : State), s.meetsFirstPass p f →
    ∃ t : State,
      exec (.header dt p f (some (Frame.check (.header f)))) s = .next t ∧
        t.trk =
          { s.trk with
            lastCycle := f.cycle
            valid := true
            record := .inTrain p
            expected := some
              (if 64 < f.blocks.toNat ∨ 8 < f.containers.toNat then .unordered
                else if f.blocks ≠ 0 then .block 0
                else if f.containers ≠ 0 then .container 0
                else .roll)
            defect := decide (64 < f.blocks.toNat ∨ 8 < f.containers.toNat)
            blocks := f.blocks
            containers := f.containers
            lastPeriod := some (max 50 (min 20000 f.period.toNat))
            trainTimer := some (s.now + dt + max 50 (min 20000 f.period.toNat) + 100)
            gapTimer := some (s.now + dt + 100)
            missed := 0
            cycleState := .running
            lastEpoch := some f.epoch
            interval := t.trk.interval
            lastHeader := some (s.now + dt)
            beganOnline := decide (t.ctl.tapState = .online) } ∧
        (let outside : Prop := f.period.toNat < 50 ∨ 20000 < f.period.toNat
        let enters (x : Word) : Prop :=
          (s.trk.interval = none → t.trk.interval = some ⟨x, x, x⟩) ∧
            ∀ r, s.trk.interval = some r →
              t.trk.interval =
                some ⟨x, if x < r.minimum then x else r.minimum, if r.maximum < x then x else r.maximum⟩
        (outside → enters (if f.period.toNat < 50 then 50 else 20000)) ∧
          (¬outside → s.trk.lastHeader = none → t.trk.interval = s.trk.interval) ∧
          (¬outside → ∀ u, s.trk.lastHeader = some u → enters (BitVec.ofNat 16 (min 65535 (s.now + dt - u))))) ∧
        t.ctr =
          { s.ctr with
            discontinuities :=
              if s.trk.valid = true ∧ f.cycle ≠ s.trk.lastCycle + 1 then satInc s.ctr.discontinuities
              else s.ctr.discontinuities } ∧
        t.sig.ref = some ⟨f.cycle, s.now + dt⟩ ∧ t.sched.fills = 0 ∧
        (t.unit p).counters = { (s.unit p).counters with frames := satInc (s.unit p).counters.frames } ∧
        (∀ out, s.route p = some out →
          t.sent = s.sent ++ [⟨out, .whole (.header (if out = p then f.turned else f))
            (Frame.check (.header (if out = p then f.turned else f)))⟩]) ∧
        t.inbound = s.inbound ∧ t.roll = s.roll ∧ t.rst = s.rst ∧ t.lsp = s.lsp

/-- The activation at a first-pass header (State.meetsFirstPass; log 4) at which a commit is due, and none at any other (R118,
R119): the staged set is active, the session gone, the activation recorded and the cache pruned (R108); the tap leaves UNCONFIGURED
(R35); every runtime record is reset (R52) and every receive bank cleared but for HOLD (R66); channels and pins take the new
bindings (R153, R160) and the TABLES event reaches them; the ports take the new policy and qualification time (R136, R142). The
order of the effects is by the model's choice (log 7), the level of a pin that becomes an output by its reading (log 18). -/
def Obligations.ActivationAtAHeader : Prop :=
  ∀ (dt : Nat) (p : Port) (f : HeaderFrame) (s : State), s.meetsFirstPass p f →
    ∃ t : State,
      exec (.header dt p f (some (Frame.check (.header f)))) s = .next t ∧
        ((∀ x, ¬s.commitDue x f.epoch) → t.mgmt = s.mgmt ∧ t.ctl = s.ctl ∧ t.subs = s.subs) ∧
        ∀ x, s.commitDue x f.epoch →
          let old := s.mgmt.active
          let new := x.staged
          t.mgmt =
              { s.mgmt with
                active := new, session := none, activation := some ⟨new.id, f.cycle⟩, cache := t.mgmt.cache } ∧
            (∀ i : Fin 63,
              ((∃ j : Fin 4, new.managers[j] = some i) → t.mgmt.cache[i] = s.mgmt.cache[i]) ∧
                ((∀ j : Fin 4, new.managers[j] ≠ some i) → t.mgmt.cache[i] = none)) ∧
            t.ctl =
              { s.ctl with
                tapState :=
                  if s.ctl.tapState = .unconfigured then
                    if s.ctl.commandCause = true ∨ s.ctl.pinCause = true then .halted else .online
                  else s.ctl.tapState } ∧
            (s.ctl.tapState = .unconfigured → t.att.state = true) ∧ t.att.tables = true ∧
            (∀ e : Fin 32, t.subs[e] = ⟨.unseen, 0, none, false, false⟩) ∧
            (∀ b : Fin 8,
              t.rx[b] =
                  ⟨Vector.replicate 128 0, Vector.replicate 128 0, Vector.replicate 128 0, .x, .y, .z, false, s.rx[b].hold, 0,
                    0, t.rx[b].takePending⟩ ∧
                (s.readBurst b = false → t.rx[b].takePending = false)) ∧
            ((∀ c : Fin 12,
              t.sig.pulses[c] = if old.channels[c] = .none ∧ new.channels[c] = .none then s.sig.pulses[c] else none) ∧
              (∀ k : Fin 8, t.sig.trigIn[k] = (s.sig.trigIn[k] && new.users[trigUser k].isNone)) ∧
              (∀ k : Fin 8, new.users[trigUser k] = none → t.sig.pins[k] = ⟨false, none⟩) ∧
              (∀ (k : Fin 8) (c : Fin 12), new.users[trigUser k] = some c → new.channels[c] = .tables →
                t.sig.pins[k] = ⟨true, some (s.now + dt)⟩) ∧
              ∀ (k : Fin 8) (c : Fin 12), new.users[trigUser k] = some c → new.channels[c] = .none →
                t.sig.pins[k] =
                  if old.users[trigUser k] = some c ∧ old.channels[c] = .none then s.sig.pins[k]
                  else ⟨decide (old.channels[c] = .none) && s.sig.pulses[c].isSome, none⟩) ∧
            (new.params.returnPolicy = .auto → ∀ q, (t.unit q).returnReady = false ∧ (t.unit q).returnAccepted = false) ∧
            (new.params.returnPolicy = .manual → old.params.returnPolicy = .auto → ∀ q, (s.unit q).monitor = .up →
              (s.unit q).farEnd = some .idle → (s.unit q).inService = false → (t.unit q).returnReady = true) ∧
            ∀ q d, (s.unit q).monitor = .qualifying → (s.unit q).qual = some d →
              (t.unit q).monitor =
                if d + 1000 * new.params.qualification.toNat ≤ s.now + dt then .up else .qualifying

/-- What a first-pass header (State.meetsFirstPass; log 4) does for the train it begins: the USER fill count and the mailboxes due
(R85, R92), and CYCLE_START (R22, R151). Where it activates nothing: the publish banks swap but under a write burst and in FAULTED
(R70, R71), every FILL buffer starts from the newest complete data (R59), a discontinuity sets CYCLE (R25), and a STAMP user's
record of CYCLE_START has offset 0 (R156). The order of the effects is by the model's choice (log 7). -/
def Obligations.FirstPassPreparesTheTrain : Prop :=
  ∀ (dt : Nat) (p : Port) (f : HeaderFrame) (s : State), s.meetsFirstPass p f →
    let jump : Prop := s.trk.valid = true ∧ f.cycle ≠ s.trk.lastCycle + 1
    let swaps (q : Fin 4) : Prop := s.ctl.tapState ≠ .faulted ∧ s.pub[q].posted = true ∧ s.writeBurst q = false
    ∃ t : State,
      exec (.header dt p f (some (Frame.check (.header f)))) s = .next t ∧
        t.sched = { s.sched with mailboxes := t.sched.mailboxes, fills := 0 } ∧
        (∀ m : Fin 8,
          t.sched.mailboxes[m] =
            match s.sched.mailboxes[m].state with
            | .inFlight r _ =>
              { s.sched.mailboxes[m] with
                state :=
                  if f.cycle ≠ r.cycle + 1 ∨ 64 < f.blocks.toNat ∨ 8 < f.containers.toNat ∨ f.containers.toNat ≤ r.index.val
                  then .done .unconfirmed (some r)
                  else .inFlight r true }
            | _ => s.sched.mailboxes[m]) ∧
        (∀ k : Fin 8, t.bound .cycleStart (trigUser k) = true → t.sig.pins[k] = ⟨true, some (s.now + dt)⟩) ∧
        ((∀ x, ¬s.commitDue x f.epoch) →
          (∀ q : Fin 4,
            (swaps q →
              t.pub[q].draft = s.pub[q].draft ∧ t.pub[q].live = s.pub[q].draft ∧ t.pub[q].pIsDraft = !s.pub[q].pIsDraft ∧
                t.pub[q].postedNow = true ∧
                (s.mgmt.active.users[postUser q] = none → t.pub[q].posted = false) ∧
                ∀ k : Fin 8, s.bound (.postTaken q) (trigUser k) = true → t.sig.pins[k] = ⟨true, some (s.now + dt)⟩) ∧
              (¬swaps q →
                t.pub[q] =
                    { s.pub[q] with
                      posted := t.pub[q].posted
                      postedNow := if s.ctl.tapState = .faulted then s.pub[q].postedNow else false } ∧
                  (s.mgmt.active.users[postUser q] = none → t.pub[q].posted = s.pub[q].posted))) ∧
            (∀ b : Fin 8,
              t.rx[b].fill = s.rx[b].fill ∧
                t.rx[b].buf s.rx[b].fill = s.rx[b].buf (if s.rx[b].readyNew = true then s.rx[b].ready else s.rx[b].front) ∧
                ∀ n, n ≠ s.rx[b].fill → t.rx[b].buf n = s.rx[b].buf n) ∧
            (jump → t.att = { s.att with cycle := true }) ∧ (¬jump → t.att = s.att) ∧
            ∀ c : Fin 12, s.mgmt.active.users[stampUser] = some c → s.mgmt.active.channels[c] = .cycleStart →
              s.sig.stamps.length < 4 → t.sig.stamps = s.sig.stamps ++ [⟨c, f.cycle, 0⟩])

/-- With no train in progress, a good HEADER of the last processed cycle begins a PASSING record and nothing else (R22, R23); one
with a stomped or bad check leaves stomped and begins nothing, and in a PASSING record at its port only arms the gap timer anew, as
every frame there does (R6, R12, R24, R30; log 22). A HEADER whose turn count reads 3 at a turning tap begins a discard: it is not
tracked and not sent, and counts one over-turn where its check is good (R143). Any other HEADER that meets a discard ends it and is
judged afresh (R143). Each whether the header is one command or its beginning was one of its own, and whether or not an ECHO is
being sent where it leaves (R145; State.meets, State.frameEnds). That the PASSING record holds the header's counts is by the
model's reading (log 21), that a beginning is a command (log 4), that a copy has left, or waits whole, when its frame ends (log 5)
and that a frame's outcome joins the error window last (log 9) by its choice. -/
def Obligations.HeadersThatBeginNoFirstPass : Prop :=
  (∀ (dt : Nat) (p : Port) (f : HeaderFrame) (a : Arriving) (s : State),
    s.meets p (.header (f.turn.extractLsb' 0 2)) a → (∀ q, s.trk.record ≠ .inTrain q) →
    let ends (t : State) (fcs : Option Fcs) : Result :=
      .next (t.frameEnds dt p (.header f) (.header (if a.out = some p then f.turned else f)) fcs a.out false)
    (s.trk.valid = true → f.cycle = s.trk.lastCycle →
      exec (.header dt p f (some (Frame.check (.header f)))) s =
        ends
          { s with
            trk :=
              { s.trk with
                record := .passing p
                expected := none
                defect := false
                blocks := f.blocks
                containers := f.containers
                gapTimer := some (s.now + dt + 100) } }
          (some (Frame.check (.header f)))) ∧
      ∀ fcs : Option Fcs, Frame.outcome (.header f) fcs ≠ .good →
        (s.trk.record ≠ .passing p → exec (.header dt p f fcs) s = ends s fcs) ∧
          (s.trk.record = .passing p →
            exec (.header dt p f fcs) s = ends { s with trk := { s.trk with gapTimer := some (s.now + dt + 100) } } fcs)) ∧
  ∀ (dt : Nat) (p : Port) (f : HeaderFrame) (fcs : Option Fcs) (s : State), s.ctl.tapState ≠ .bypass →
    let overTurned (t : State) : Result :=
      .next
        (State.frameEnds
          { t with
            ctr := if Frame.outcome (.header f) fcs = .good then { t.ctr with overTurns := satInc t.ctr.overTurns } else t.ctr }
          dt p (.header f) (.header f) fcs none false)
    ((s.unit p).arriving = none → (s.unit p).inService = true →
      (f.turn.extractLsb' 0 2 = 3#2 → s.route p = some p →
        exec (.header dt p f fcs) s = overTurned (s.modUnit p fun u => { u with discard := true })) ∧
        (f.turn.extractLsb' 0 2 ≠ 3#2 ∨ s.route p ≠ some p →
          exec (.header dt p f fcs) s = exec (.header dt p f fcs) (s.modUnit p fun u => { u with discard := false }))) ∧
      ((s.unit p).arriving = some ⟨.header (f.turn.extractLsb' 0 2), false, none, true, false, [], none⟩ →
        exec (.header dt p f fcs) s = overTurned s)

/-- R24, a HEADER while a train is IN_TRAIN, whether it is one command or its beginning was one of its own (State.meets; log 4). A
good one at the train's port, or of a new cycle at the other port, does what it would do after an ABORTED close. A good one of the
last processed cycle at the other port, and a stomped or bad one there, is only forwarded, behind an ECHO where one is being sent
(R145). A stomped or bad one at the train's port is an order defect that takes the place of the expected frame (R28). That the
defect is cleared where the record ends is by the model's reading (log 21), that a copy has left, or waits whole, when its frame
ends (log 5) and that a frame's outcome joins the error window last (log 9) by its choice. -/
def Obligations.HeaderInsideATrain : Prop :=
  (∀ (dt : Nat) (p q : Port) (f : HeaderFrame) (a : Arriving) (s : State),
    s.meets p (.header (f.turn.extractLsb' 0 2)) a → s.trk.record = .inTrain q →
    (q = p ∨ s.trk.valid = false ∨ f.cycle ≠ s.trk.lastCycle) →
    exec (.header dt p f (some (Frame.check (.header f)))) s =
      exec (.header 0 p f (some (Frame.check (.header f)))) (State.close (s.elapse dt) .aborted none)) ∧
  ∀ (dt : Nat) (p q : Port) (f : HeaderFrame) (fcs : Option Fcs) (a : Arriving) (s : State),
    s.meets p (.header (f.turn.extractLsb' 0 2)) a → s.trk.record = .inTrain q →
    let turned : Frame := .header (if a.out = some p then f.turned else f)
    (q ≠ p → (Frame.outcome (.header f) fcs ≠ .good ∨ s.trk.valid = true ∧ f.cycle = s.trk.lastCycle) →
      exec (.header dt p f fcs) s = .next (s.frameEnds dt p (.header f) turned fcs a.out false)) ∧
      (q = p → Frame.outcome (.header f) fcs ≠ .good →
        s.takesPlace dt p (.header f) turned fcs a (exec (.header dt p f fcs) s))

/-! ### BLOCK -/

/-- A good BLOCK at the expected position of the train, handed to the capture unit as its number arrived in ONLINE (R26, R43, R44,
R46, R65, R75, R76), whether it is one command or its beginning was one of its own (State.meets; log 4): it leaves as the publish
unit wrote it by what was decided then (R76; its words by log 37), behind an ECHO where one is being sent (R145); every valid entry
on it is captured, fresh by its write maps. In each receive bank the words of those entries' ranges stand in the FILL buffer, as
the frame left the publish unit; every other word of every buffer, FRONT and READY among them, the roles, flags and stamps are as
before. R41: in a set that passed validation no two entries of one bank share a word, so each entry's range stands whole. The rest
of the tap is as the end of the frame leaves it (State.frameEnds; by the model's choice its copy has left, or waits whole, then,
log 5, and the error window is last, log 9). The second clause is one entry's capture. -/
def Obligations.ExpectedBlockIsPublishedAndCaptured : Prop :=
  (∀ (dt : Nat) (p : Port) (f : BlockFrame) (a : Arriving) (s : State),
    s.meets p (.block f.number) a → s.trk.record = .inTrain p → s.trk.expected = some (.block f.number.toNat) →
    a.capture = true →
    let g := s.published f a.writes
    let sub (e : Fin 32) : SubEntry := s.mgmt.active.subs[e]
    let on (e : Fin 32) : Prop := (sub e).valid = true ∧ (sub e).block.val = f.number.toNat
    let holds (e : Fin 32) (i : Fin 128) : Prop :=
      8 * (sub e).slot.val ≤ i.val ∧ i.val < 8 * (sub e).slot.val + 8 * (sub e).count.val
    let trk : Tracker :=
      { s.trk with
        expected := some
          (if f.number.toNat + 1 < s.trk.blocks.toNat then .block (f.number.toNat + 1)
            else if s.trk.containers ≠ 0 then .container 0
            else .roll)
        gapTimer := some (s.now + dt + 100) }
    ∃ (subs : Vector SubRecord 32) (rx : Vector RxBank 8),
      exec (.block dt p f (some (Frame.check (.block f)))) s =
          .next
            (State.frameEnds { s with trk := trk, subs := subs, rx := rx } dt p (.block f) (.block g)
              (some (Frame.check (.block f))) a.out (!a.writes.isEmpty)) ∧
        (∀ e : Fin 32,
          subs[e] =
            if s.mgmt.active.subs[e].valid = true ∧ s.mgmt.active.subs[e].block.val = f.number.toNat then
              { s.subs[e] with captured := true, freshNow := freshIn g s.mgmt.active.subs[e].publisher }
            else s.subs[e]) ∧
        (∀ b : Fin 8,
          rx[b] = { s.rx[b] with x := rx[b].x, y := rx[b].y, z := rx[b].z } ∧
            (∀ n, n ≠ s.rx[b].fill → rx[b].buf n = s.rx[b].buf n) ∧
            ∀ i : Fin 128, (∀ e, on e → (sub e).bank = b → ¬holds e i) →
              (rx[b].buf s.rx[b].fill)[i] = (s.rx[b].buf s.rx[b].fill)[i]) ∧
        (∀ (e : Fin 32) (i : Fin 128), on e → holds e i →
          (∀ d, d ≠ e → on d → (sub d).bank = (sub e).bank → ¬holds d i) →
          (rx[(sub e).bank].buf s.rx[(sub e).bank].fill)[i] =
            g.word (8 * (sub e).first.val + (i.val - 8 * (sub e).slot.val))) ∧
        (s.TablesLaw → ∀ (e d : Fin 32) (i : Fin 128), on e → on d → d ≠ e → (sub d).bank = (sub e).bank → holds e i →
          ¬holds d i)) ∧
  ∀ (s : State) (f : BlockFrame) (e : Fin 32) (i : Fin 128),
    s.mgmt.active.subs[e].valid = true → s.mgmt.active.subs[e].block.val = f.number.toNat →
    let x := s.mgmt.active.subs[e]
    let t := State.captureEntry f s e
    (t.rx[x.bank].buf t.rx[x.bank].fill)[i] =
        (if 8 * x.slot.val ≤ i.val ∧ i.val < 8 * x.slot.val + 8 * x.count.val then
          f.word (8 * x.first.val + (i.val - 8 * x.slot.val))
        else (s.rx[x.bank].buf s.rx[x.bank].fill)[i]) ∧
      (∀ b : Fin 8, b ≠ x.bank → t.rx[b] = s.rx[b]) ∧
      ∀ n : BufName, n ≠ s.rx[x.bank].fill → t.rx[x.bank].buf n = s.rx[x.bank].buf n

/-- R75: as a BLOCK's number arrives at the expected position of an ONLINE tap, the writes are those of the valid entries on the block
that are CONTINUOUS or whose bank swapped at this train's header; at any other BLOCK there are none. R76: a written frame has
the tap's own flag set in its this-cycle map, the segments named replaced by their words of LIVE, and nothing else changed. That
the words are those of LIVE as the number arrives is by the model's choice (log 37). -/
def Obligations.PublishUnitWrites : Prop :=
  (∀ (dt : Nat) (p : Port) (n : Byte) (s : State), s.listens p →
    ∃ (t : State) (a : Arriving),
      exec (.frameBeginsToArrive dt p (.block n)) s = .next t ∧ (t.unit p).arriving = some a ∧
        (s.trk.record = .inTrain p ∧ s.trk.expected = some (.block n.toNat) ∧ s.ctl.tapState = .online →
          a.capture = true ∧ a.writes = s.publishWrites n) ∧
        (¬(s.trk.record = .inTrain p ∧ s.trk.expected = some (.block n.toNat) ∧ s.ctl.tapState = .online) →
          a.capture = false ∧ a.writes = [])) ∧
  (∀ (s : State) (n : Byte) (w : SegWrite), w ∈ s.publishWrites n ↔
    ∃ i : Fin 16,
      let e := s.mgmt.active.pubs[i]
      e.valid = true ∧ e.block.val = n.toNat ∧ (e.mode = .continuous ∨ s.pub[e.bank].postedNow = true) ∧
        ∃ j, j < e.count.val ∧ w.segment = e.first.val + j ∧
          ∀ k : Fin 8,
            w.words[k] =
              (if s.pub[e.bank].pIsDraft = true then s.pub[e.bank].q else s.pub[e.bank].p).toList.getD
                (8 * e.slot.val + 8 * j + k.val) 0) ∧
  ∀ (s : State) (f : BlockFrame) (ws : List SegWrite),
    let g := s.published f ws
    (ws = [] → g = f) ∧
      (ws ≠ [] →
        g.number = f.number ∧ g.lastMap = f.lastMap ∧
          (∀ i : Nat, i < 64 → g.thisMap.getLsbD i = (f.thisMap.getLsbD i || decide (i = s.rst.station.toNat))) ∧
          ∀ i : Fin 32,
            ((∀ w ∈ ws, w.segment ≠ i.val / 8) → g.words[i] = f.words[i]) ∧
              ((∃ w ∈ ws, w.segment = i.val / 8) →
                ∃ w ∈ ws, w.segment = i.val / 8 ∧ g.words[i] = w.words[Fin.ofNat 8 i.val]))

/-- R46: as a good BLOCK is captured, an entry on it is fresh this cycle where its publisher's flag, or for ANY some flag, is set in
either write map as the frame leaves the publish unit, the tap's own flag included where it has been set there. An entry that
is not captured is not judged, and a BLOCK that proves stomped makes none fresh. -/
def Obligations.FreshnessFromWriteMaps : Prop :=
  ∀ (dt : Nat) (p : Port) (f : BlockFrame) (s : State),
    s.listens p → s.lineFree p → s.trk.record = .inTrain p → s.trk.expected = some (.block f.number.toNat) →
    s.ctl.tapState = .online →
    let own (i : Nat) : Prop := i = s.rst.station.toNat ∧ s.publishWrites f.number ≠ []
    (∃ t : State,
      exec (.block dt p f (some (Frame.check (.block f)))) s = .next t ∧
        ∀ e : Fin 32,
          let x := s.mgmt.active.subs[e]
          (x.valid = true ∧ x.block.val = f.number.toNat →
            t.subs[e].captured = true ∧
              (x.publisher.toNat ≤ 62 →
                (t.subs[e].freshNow = true ↔
                  f.thisMap.getLsbD x.publisher.toNat = true ∨ f.lastMap.getLsbD x.publisher.toNat = true ∨
                    own x.publisher.toNat)) ∧
              (x.publisher.toNat = 63 →
                (t.subs[e].freshNow = true ↔
                  ∃ i : Fin 64, f.thisMap.getLsbD i.val = true ∨ f.lastMap.getLsbD i.val = true ∨ own i.val))) ∧
            (¬(x.valid = true ∧ x.block.val = f.number.toNat) → t.subs[e] = s.subs[e])) ∧
      ∃ t : State, exec (.block dt p f (some (~~~(Frame.check (.block f))))) s = .next t ∧ t.subs = s.subs

/-- R28: a BLOCK or a CONTAINER with a stomped or bad check, or one that ends early, at the train's port takes the place of the
expected frame, whichever that is (State.takesPlace, R12): the train is defective, nothing is captured, no container step is taken,
and the frame leaves with the contents it holds, stomped (R13), behind an ECHO where one is being sent (R145). Each whether the
frame is one command or its beginning was one of its own (State.meets; log 4). What the publish unit writes into the BLOCK was
decided as its number arrived (R75), and one publish lost is counted where that is anything and its copy has not been cut short
before (R78; that the decision to write counts as written is by the model's choice, log 37). A frame of unknown kind inside a
train, with any check, is a defect that takes no place; it is counted, and leaves as it came where its check is good and else
stomped (R11). That a copy has left, or waits whole, when its frame ends (log 5), that a frame's outcome joins the error window
last (log 9), and that a cut frame is listed by its lead (log 6), is by the model's choice. -/
def Obligations.DefectsInsideATrain : Prop :=
  ∀ (dt : Nat) (p : Port) (fcs : Option Fcs) (a : Arriving) (s : State), s.trk.record = .inTrain p →
    (∀ f : BlockFrame, s.meets p (.block f.number) a → Frame.outcome (.block f) fcs ≠ .good →
      s.takesPlace dt p (.block f) (.block (s.published f a.writes)) fcs a (exec (.block dt p f fcs) s)) ∧
      (∀ f : ContainerFrame, s.meets p .container a → Frame.outcome (.container f) fcs ≠ .good →
        s.takesPlace dt p (.container f) (.container f) fcs a (exec (.container dt p f fcs) s)) ∧
      ∀ f : UnknownFrame, s.meets p .unknown a →
        exec (.unknownKind dt p f fcs) s =
          .next
            (State.frameEnds { s with trk := { s.trk with defect := true, gapTimer := some (s.now + dt + 100) } } dt p
              (.unknown f) (.unknown f) fcs a.out false)

/-- Frames that are not acted on; each is counted, and forwarded as it came, or for a BLOCK as the publish unit wrote it, stomped
where its check is not good, and changes nothing else (R12, R13); each whether the frame is one command or its beginning was one of
its own (State.meets; log 4), and behind an ECHO where one is being sent (R145). R26, R27: inside a train, a good BLOCK or
CONTAINER after the expected position and within the train's counts is an order defect and the position moves on past it; one
before it, or beyond the counts, is an order defect that moves nothing. R6, R29: where the counts are out of range no order is
judged. R37, R43, R75: a BLOCK in its place that was not handed to the capture unit, as the tap was not ONLINE, moves the position
on, with nothing captured. R23: in a PASSING record every frame at its port, with any check, arms the gap timer anew, and a ROLL
ends the record without a close or an append. R11, R29: frames other than HEADER are forwarded only while the record is IDLE or
belongs to the other port. R143: inside an over-turn discard they are counted, not tracked and not sent. R2, R139: so is every
frame but ECHO at a port that is not in service. That a copy has left, or waits whole, when its frame ends (log 5), that a frame's
outcome joins the error window last (log 9), and that a cut frame is listed by its lead (log 6), is by the model's choice. -/
def Obligations.FramesOutOfPlace : Prop :=
  (∀ (dt : Nat) (p : Port) (a : Arriving) (s : State),
    let passes (command : Option Fcs → Instr) (f g : Frame) (fcs : Option Fcs) (trk : Tracker) : Prop :=
      s.meets p f.lead a →
        exec (command fcs) s = .next (State.frameEnds { s with trk := trk } dt p f g fcs a.out (!a.writes.isEmpty))
    let block (f : BlockFrame) : Option Fcs → Tracker → Prop :=
      passes (.block dt p f) (.block f) (.block (s.published f a.writes))
    let container (f : ContainerFrame) : Option Fcs → Tracker → Prop := passes (.container dt p f) (.container f) (.container f)
    let roll (f : RollFrame) (fcs : Option Fcs) (trk : Tracker) : Prop :=
      a.roll = none → passes (.roll dt p f) (.roll f) (.roll f) fcs trk
    let unknown (f : UnknownFrame) : Option Fcs → Tracker → Prop := passes (.unknownKind dt p f) (.unknown f) (.unknown f)
    let armed : Tracker := { s.trk with gapTimer := some (s.now + dt + 100) }
    let afterBlock (k : Nat) : Position :=
      if k + 1 < s.trk.blocks.toNat then .block (k + 1) else if s.trk.containers ≠ 0 then .container 0 else .roll
    let afterContainer (k : Nat) : Position := if k + 1 < s.trk.containers.toNat then .container (k + 1) else .roll
    (s.trk.record = .inTrain p →
      (∀ (f : BlockFrame) (x : Position), s.trk.expected = some x →
        let n := f.number.toNat
        let ends : Tracker → Prop := block f (some (Frame.check (.block f)))
        (∀ k, x = .block k → k < n → n < s.trk.blocks.toNat →
          ends { armed with defect := true, expected := some (afterBlock n) }) ∧
          (∀ k, x = .block k → (n < k ∨ k < n ∧ s.trk.blocks.toNat ≤ n) → ends { armed with defect := true }) ∧
          (∀ k, x = .container k → ends { armed with defect := true }) ∧
          (x = .roll → ends { armed with defect := true }) ∧ (x = .unordered → ends armed) ∧
          (x = .block n → a.capture = false → ends { armed with expected := some (afterBlock n) })) ∧
        ∀ (f : ContainerFrame) (x : Position), s.trk.expected = some x →
          let i := f.index.toNat
          let ends : Tracker → Prop := container f (some (Frame.check (.container f)))
          (∀ k, x = .block k → i < s.trk.containers.toNat →
            ends { armed with defect := true, expected := some (afterContainer i) }) ∧
            (∀ k, x = .block k → s.trk.containers.toNat ≤ i → ends { armed with defect := true }) ∧
            (∀ k, x = .container k → k < i → i < s.trk.containers.toNat →
              ends { armed with defect := true, expected := some (afterContainer i) }) ∧
            (∀ k, x = .container k → (i < k ∨ k < i ∧ s.trk.containers.toNat ≤ i) → ends { armed with defect := true }) ∧
            (x = .roll → ends { armed with defect := true }) ∧ (x = .unordered → ends armed)) ∧
      (s.trk.record = .passing p → ∀ fcs : Option Fcs,
        (∀ f, block f fcs armed) ∧ (∀ f, container f fcs armed) ∧ (∀ f, unknown f fcs armed) ∧
          ∀ f, roll f fcs { s.trk with record := .idle, expected := none, defect := false, gapTimer := none }) ∧
      (s.trk.record.port ≠ some p → ∀ fcs : Option Fcs,
        (∀ f, block f fcs s.trk) ∧ (∀ f, container f fcs s.trk) ∧ (∀ f, roll f fcs s.trk) ∧ ∀ f, unknown f fcs s.trk)) ∧
  ∀ (dt : Nat) (p : Port) (fcs : Option Fcs) (s : State),
    let unseen : Prop := (s.unit p).inService = true ∧ (s.unit p).discard = true ∨ (s.unit p).inService = false
    let dropped (command : Instr) (f : Frame) : Prop :=
      s.passesBy p f.lead unseen → exec command s = .next (s.frameEnds dt p f f fcs none false)
    ((∀ f, dropped (.block dt p f fcs) (.block f)) ∧ (∀ f, dropped (.container dt p f fcs) (.container f)) ∧
      (∀ f, dropped (.roll dt p f fcs) (.roll f)) ∧ ∀ f, dropped (.unknownKind dt p f fcs) (.unknown f)) ∧
      ∀ f : HeaderFrame, s.passesBy p (.header (f.turn.extractLsb' 0 2)) ((s.unit p).inService = false) →
        exec (.header dt p f fcs) s =
          .next
            (State.frameEnds
              (s.modUnit p fun u => { u with discard := if u.arriving = none then false else u.discard }) dt p (.header f)
              (.header f) fcs none false)

/-! ### CONTAINER -/

/-- R84: a good, well-formed CONTAINER at its expected index, in a state that takes containers (R37), goes through the outcome,
strip, delivery and broadcast steps in this order, each on what the step before it left, and where it is then EMPTY through the
fill step; it leaves as the last step left it, and the next container, or the ROLL, is expected (R27). The port has counted the
frame before (R12). It is one command, or its beginning was one of its own (State.meets; log 4), and it leaves behind an ECHO where
one is being sent (R145, State.leaves). R124: a RESTART's response that this container takes is marked as it leaves (log 5). R8: a
malformed one counts one protocol error and passes. In FAULTED it passes. The steps are ContainerSteps, RequestsAreDelivered and
EmptyContainersAreFilled. That a frame acts before its outcome joins the error window (log 9), and that it has left, or waits
whole, when it ends (log 5), is by the model's choice. -/
def Obligations.ContainersPassThroughTheSteps : Prop :=
  ∀ (dt : Nat) (p : Port) (f : ContainerFrame) (a : Arriving) (i : Fin 8) (s : State),
    s.meets p .container a → s.trk.record = .inTrain p → s.trk.expected = some (.container i.val) → f.index.toNat = i.val →
    let s0 : State :=
      State.modUnit
        { s with
          now := s.now + dt
          trk := { s.trk with gapTimer := if (s.unit p).arriving = none then none else s.trk.gapTimer } } p fun u =>
        { u with arriving := none, counters := { u.counters with frames := satInc u.counters.frames } }
    let o := s0.outcomeStep i f
    let b := o.state.stripStep o.frame
    let took : Bool :=
      b.frame.isFull && decide (stationOf b.frame.dest = b.state.rst.station) && !b.frame.isRefused &&
        decide (b.frame.cls = 0x00#8) && decide (b.state.mgmt.responses.length < 4)
    let c := b.state.deliveryStep b.frame
    let d := c.state.broadcastStep c.frame
    let e : State × ContainerFrame :=
      if c.frame.isFull = true then (d, c.frame) else d.fillStep s.ctl.tapState took i c.frame
    let placed (t : State) : Bool := (t.mgmt.pendingRestart.bind fun y => y.placed).isSome
    let passes (t : State) (g : ContainerFrame) (restarts : Bool) : Prop :=
      exec (.container dt p f (some (Frame.check (.container f)))) s =
        .next
          (State.windowAdd
            (State.leaves
              { t with
                trk :=
                  { t.trk with
                    expected := some (if i.val + 1 < t.trk.containers.toNat then .container (i.val + 1) else .roll)
                    gapTimer := some (s.now + dt + 100) } }
              a.out (.whole (.container g) (Frame.check (.container g))) false restarts) p false)
    (f.malformed = false → (s.ctl.tapState = .unconfigured ∨ s.ctl.tapState = .online ∨ s.ctl.tapState = .halted) →
      passes e.1 e.2 (!placed s && placed e.1)) ∧
      (f.malformed = true → passes { s0 with ctr := { s.ctr with protocolErrors := satInc s.ctr.protocolErrors } } f false) ∧
      (f.malformed = false → s.ctl.tapState = .faulted → passes s0 f false)

/-- A good unicast USER container for this tap at its expected index, with room in the inbound queue and nothing to fill it again
with, enters the queue and leaves empty (R84, R89, R99); that its record holds all 96 payload bytes as received is by the model's
reading (log 30). A good EMPTY one, with no response waiting, is filled from the lowest WAITING mailbox under the fixed order
with no urgent mailbox (R91 to R93): the mailbox is IN_FLIGHT with index, cycle and tag, the fill is counted, the tag counter
moves on, and the container leaves with the message. In either case the next container, or the ROLL, is expected (R27). -/
def Obligations.ContainersAreTakenAndFilled : Prop :=
  (∀ (dt : Nat) (p : Port) (f : ContainerFrame) (s : State),
    s.listens p → s.lineFree p → s.trk.record = .inTrain p → s.trk.expected = some (.container f.index.toNat) →
    (s.ctl.tapState = .unconfigured ∨ s.ctl.tapState = .online ∨ s.ctl.tapState = .halted) →
    f.malformed = false → f.isFull = true → stationOf f.dest = s.rst.station → stationOf f.dest ≠ 63#6 →
    stationOf f.source ≠ s.rst.station → f.isRefused = false → f.cls = 0x02#8 → s.inbound.length < 8 →
    (∀ m : Fin 8, s.sched.mailboxes[m].state = .free) → s.mgmt.responses = [] →
    ∃ t : State,
      exec (.container dt p f (some (Frame.check (.container f)))) s = .next t ∧
        EdgeOnly
          { s with
            now := s.now + dt, trk := t.trk, inbound := t.inbound, ctr := t.ctr, sent := t.sent, portW := t.portW,
            portE := t.portE } t ∧
        t.inbound = s.inbound ++ [⟨stationOf f.source, f.tag, f.length, f.payload, s.trk.lastCycle, false⟩] ∧
        t.ctr = { s.ctr with delivered := satInc s.ctr.delivered } ∧
        t.trk =
          { s.trk with
            expected := some
              (if f.index.toNat + 1 < s.trk.containers.toNat then .container (f.index.toNat + 1) else .roll)
            gapTimer := some (s.now + dt + 100) } ∧
        ∀ out, s.route p = some out →
          t.sent = s.sent ++ [⟨out, .whole (.container f.emptied) (Frame.check (.container f.emptied))⟩]) ∧
  ∀ (dt : Nat) (p : Port) (f : ContainerFrame) (i m : Fin 8) (s : State),
    s.listens p → s.lineFree p → s.trk.record = .inTrain p → s.trk.expected = some (.container i.val) →
    (s.ctl.tapState = .online ∨ s.ctl.tapState = .halted) → f.index.toNat = i.val → f.isFull = false →
    s.mgmt.responses = [] → s.sched.fills < s.mgmt.active.params.fillQuota.toNat →
    s.mgmt.active.params.order = .fixed → s.mgmt.active.params.urgent = none → s.sched.mailboxes[m].state = .waiting →
    (∀ n : Fin 8, n.val < m.val → s.sched.mailboxes[n].state ≠ .waiting) →
    (∀ n : Fin 8, s.sched.mailboxes[n].dueAt i = none) →
    let box := s.sched.mailboxes[m]
    let g : ContainerFrame :=
      ⟨f.index, stationByte (stationOf box.dest), 1, 0, 0, stationByte s.rst.station, 0x02#8, s.sched.tagCounter,
        box.length.setWidth 8, Vector.ofFn fun k => if k.val < box.length.toNat then box.payloadByte k.val else 0⟩
    ∃ t : State,
      exec (.container dt p f (some (Frame.check (.container f)))) s = .next t ∧
        t = { s with
          now := s.now + dt, trk := t.trk, sched := t.sched, ctr := t.ctr, sent := t.sent, portW := t.portW,
          portE := t.portE } ∧
        t.sched =
          { s.sched with
            mailboxes := upd s.sched.mailboxes m
              { box with state := .inFlight ⟨i, s.trk.lastCycle, s.sched.tagCounter⟩ false }
            fills := s.sched.fills + 1
            tagCounter := s.sched.tagCounter + 1 } ∧
        t.ctr = { s.ctr with userFilled := satInc s.ctr.userFilled } ∧
        t.trk =
          { s.trk with
            expected := some (if i.val + 1 < s.trk.containers.toNat then .container (i.val + 1) else .roll)
            gapTimer := some (s.now + dt + 100) } ∧
        ∀ out, s.route p = some out →
          t.sent = s.sent ++ [⟨out, .whole (.container g) (Frame.check (.container g))⟩]

/-- R91 to R93 for an EMPTY container. The oldest waiting response fills it first, unless it answers a request just taken from this
container. Else, in ONLINE or HALTED and below the quota, the urgent mailbox where it is WAITING; else the lowest WAITING one
under FIXED, the next after the pointer under ROTATING, which alone moves the pointer. R124: the response of a RESTART marks
its container as placed, and once that container has left in full, as left. That a frame has left when it ends is by the model's
choice (log 5). -/
def Obligations.EmptyContainersAreFilled : Prop :=
  (∀ (s : State) (t : TapState) (took : Bool) (index : Fin 8) (f : ContainerFrame),
    let own := stationByte s.rst.station
    let free : Prop := s.mgmt.responses = [] ∨ ∃ r, s.mgmt.responses = [r] ∧ took = true
    let allowed : Prop := (t = .online ∨ t = .halted) ∧ s.sched.fills < s.mgmt.active.params.fillQuota.toNat
    let waits (m : Fin 8) : Prop := s.sched.mailboxes[m].state = .waiting
    let noUrgent : Prop := ∀ u, s.mgmt.active.params.urgent = some u → ¬waits u
    let filled (m pointer : Fin 8) : State × ContainerFrame :=
      let box := s.sched.mailboxes[m]
      ({ s with
          sched :=
            ⟨upd s.sched.mailboxes m { box with state := .inFlight ⟨index, s.trk.lastCycle, s.sched.tagCounter⟩ false },
              s.sched.fills + 1, pointer, s.sched.tagCounter + 1⟩
          ctr := { s.ctr with userFilled := satInc s.ctr.userFilled } },
        ⟨f.index, stationByte (stationOf box.dest), 1, 0, 0, own, 0x02#8, s.sched.tagCounter, box.length.setWidth 8,
          Vector.ofFn fun k => if k.val < box.length.toNat then box.payloadByte k.val else 0⟩)
    (∀ r rest, s.mgmt.responses = r :: rest → (took = false ∨ rest ≠ []) →
      s.fillStep t took index f =
        ({ s with
            mgmt := { s.mgmt with
              responses := rest
              pendingRestart :=
                if r.restarts = true then s.mgmt.pendingRestart.map fun x => { x with placed := some index }
                else s.mgmt.pendingRestart } },
          ⟨f.index, stationByte r.dest, 1, 0, 0, own, 0x01#8, r.tag, BitVec.ofNat 8 r.payload.length,
            Vector.ofFn fun k => r.payload.getD k.val 0⟩)) ∧
      (free → (¬allowed ∨ ∀ m, ¬waits m) → s.fillStep t took index f = (s, f)) ∧
      (free → allowed →
        (∀ u, s.mgmt.active.params.urgent = some u → waits u → s.fillStep t took index f = filled u s.sched.pointer) ∧
          (noUrgent → s.mgmt.active.params.order = .fixed → ∀ m, waits m → (∀ n, n.val < m.val → ¬waits n) →
            s.fillStep t took index f = filled m s.sched.pointer) ∧
          (noUrgent → s.mgmt.active.params.order = .rotating → ∀ i, i < 8 → waits (Fin.ofNat 8 (s.sched.pointer.val + 1 + i)) →
            (∀ j, j < i → ¬waits (Fin.ofNat 8 (s.sched.pointer.val + 1 + j))) →
            s.fillStep t took index f =
              filled (Fin.ofNat 8 (s.sched.pointer.val + 1 + i)) (Fin.ofNat 8 (s.sched.pointer.val + 1 + i))))) ∧
  ∀ (dt : Nat) (p : Port) (f : ContainerFrame) (i : Fin 8) (r : Response) (rest : List Response) (s : State),
    s.listens p → s.lineFree p → s.trk.record = .inTrain p → s.trk.expected = some (.container i.val) →
    (s.ctl.tapState = .unconfigured ∨ s.ctl.tapState = .online ∨ s.ctl.tapState = .halted) → f.index.toNat = i.val →
    f.isFull = false → s.mgmt.responses = r :: rest → (∀ n : Fin 8, s.sched.mailboxes[n].dueAt i = none) →
    let g : ContainerFrame :=
      ⟨f.index, stationByte r.dest, 1, 0, 0, stationByte s.rst.station, 0x01#8, r.tag, BitVec.ofNat 8 r.payload.length,
        Vector.ofFn fun k => r.payload.getD k.val 0⟩
    ∃ t : State,
      exec (.container dt p f (some (Frame.check (.container f)))) s = .next t ∧
        t = { s with
          now := s.now + dt, trk := t.trk, mgmt := t.mgmt, sent := t.sent, portW := t.portW, portE := t.portE } ∧
        t.mgmt = { s.mgmt with responses := rest, pendingRestart := t.mgmt.pendingRestart } ∧
        (r.restarts = false → t.mgmt.pendingRestart = s.mgmt.pendingRestart) ∧
        (∀ x, r.restarts = true → s.mgmt.pendingRestart = some x → x.placed = none → s.route p ≠ none →
          t.mgmt.pendingRestart = some { x with placed := some i, left := true }) ∧
        ∀ out, s.route p = some out →
          t.sent = s.sent ++ [⟨out, .whole (.container g) (Frame.check (.container g))⟩]

/-- The container unit's first four steps. R86: the outcome of a due mailbox by its destination and what its container shows, with
its OUTCOME event, whether the container is emptied, and the flight record kept (R97). R88: the strip. R89: the delivery. R90: the
broadcast, which leaves the container alone. R99: a message that joins the inbound queue. Where a step has nothing to do it
changes nothing. That an inbound record holds all 96 payload bytes as received is by the model's reading (log 30); a request's own
effect is RequestsAreDelivered. -/
def Obligations.ContainerSteps : Prop :=
  let emptied (f : ContainerFrame) : ContainerFrame := ⟨f.index, 0, 0, 0, 0, 0, 0, 0, 0, Vector.replicate 96 0⟩
  let joined (s : State) (f : ContainerFrame) (broadcast : Bool) : State :=
    State.raise
      { s with
        inbound := s.inbound ++ [⟨stationOf f.source, f.tag, f.length, f.payload, s.trk.lastCycle, broadcast⟩]
        ctr := { s.ctr with delivered := satInc s.ctr.delivered } } .inboundArrival
  let protocolError (s : State) : State := { s with ctr := { s.ctr with protocolErrors := satInc s.ctr.protocolErrors } }
  (∀ (s : State) (index : Fin 8) (f : ContainerFrame),
    ((∀ m : Fin 8, s.sched.mailboxes[m].dueAt index = none) → s.outcomeStep index f = ⟨s, f⟩) ∧
      ∀ (m : Fin 8) (r : Flight), s.sched.mailboxes[m].state = .inFlight r true → r.index = index →
        (∀ n : Fin 8, n < m → s.sched.mailboxes[n].dueAt index = none) →
        let found := f.isFull = true ∧ stationOf f.source = s.rst.station ∧ f.tag = r.tag ∧ f.cls = 0x02#8
        let unicast := stationOf s.sched.mailboxes[m].dest ≠ 63#6
        let settles (o : MsgOutcome) : Prop :=
          s.outcomeStep index f =
            ⟨State.raise
              { s with sched := { s.sched with
                mailboxes := upd s.sched.mailboxes m { s.sched.mailboxes[m] with state := .done o (some r) } } } (.outcome m),
              if found then emptied f else f⟩
        (unicast → found → f.isRefused = true → settles .refused) ∧
          (unicast → found → f.isRefused = false → settles .undelivered) ∧ (unicast → ¬found → settles .delivered) ∧
          (¬unicast → found → settles .sent) ∧ (¬unicast → ¬found → settles .unconfirmed)) ∧
  (∀ (s : State) (f : ContainerFrame),
    (f.isFull = true → stationOf f.source = s.rst.station →
      s.stripStep f = ⟨{ s with ctr := { s.ctr with orphanStripped := satInc s.ctr.orphanStripped } }, emptied f⟩) ∧
      ((f.isFull = false ∨ stationOf f.source ≠ s.rst.station) → s.stripStep f = ⟨s, f⟩)) ∧
  (∀ (s : State) (f : ContainerFrame),
    let here := f.isFull = true ∧ stationOf f.dest = s.rst.station ∧ f.isRefused = false
    let refused : Handled :=
      ⟨{ s with ctr := { s.ctr with refusedHere := satInc s.ctr.refusedHere } },
        { f with
          state := 1, refused := 1, dest := stationByte (stationOf f.dest), source := stationByte (stationOf f.source) }⟩
    (¬here → s.deliveryStep f = ⟨s, f⟩) ∧
      (here → f.cls = 0x00#8 → s.mgmt.responses.length < 4 → (s.deliveryStep f).frame = emptied f) ∧
      (here → f.cls = 0x00#8 → 4 ≤ s.mgmt.responses.length → s.deliveryStep f = refused) ∧
      (here → f.cls = 0x02#8 → s.inbound.length < 8 → s.deliveryStep f = ⟨joined s f false, emptied f⟩) ∧
      (here → f.cls = 0x02#8 → 8 ≤ s.inbound.length → s.deliveryStep f = refused) ∧
      (here → f.cls ≠ 0x00#8 → f.cls ≠ 0x02#8 → s.deliveryStep f = ⟨protocolError s, emptied f⟩)) ∧
  ∀ (s : State) (f : ContainerFrame),
    let broadcast := f.isFull = true ∧ stationOf f.dest = 63#6
    (¬broadcast → s.broadcastStep f = s) ∧
      (broadcast → f.cls = 0x02#8 → s.inbound.length < 8 → s.broadcastStep f = joined s f true) ∧
      (broadcast → f.cls = 0x02#8 → 8 ≤ s.inbound.length →
        s.broadcastStep f = { s with ctr := { s.ctr with broadcastDropped := satInc s.ctr.broadcastDropped } }) ∧
      (broadcast → f.cls ≠ 0x02#8 → s.broadcastStep f = protocolError s)

/-- A management request found in a container is the request's own row: the delivery step on a container for this tap with the
request as its message leaves the tap as the row's command leaves it (R89, R106; the row by log 11), and so does BAD_COMMAND for a
message that spells no request. R89, R107, R108: a request is
refused here where the response queue is full; from a station outside the manager set it is answered NOT_PERMITTED and not
cached; under its station's last tag it is answered from the cache. None of these is executed. That the idle timer restarts
first is by the model's reading (log 14). -/
def Obligations.RequestsAreDelivered : Prop :=
  (∀ (r : Request) (s : State) (f : ContainerFrame),
    (s.ctl.tapState = .unconfigured ∨ s.ctl.tapState = .online ∨ s.ctl.tapState = .halted) →
    f.isFull = true → stationOf f.dest = s.rst.station → f.isRefused = false → f.cls = 0x00#8 →
    (∃ extra, f.message = r.payload ++ extra) →
    exec (requestRow r 0 (stationOf f.source) f.tag) s = .next (s.deliveryStep f).state) ∧
  (∀ (s : State) (f : ContainerFrame),
    (s.ctl.tapState = .unconfigured ∨ s.ctl.tapState = .online ∨ s.ctl.tapState = .halted) →
    f.isFull = true → stationOf f.dest = s.rst.station → f.isRefused = false → f.cls = 0x00#8 →
    (∀ (r : Request) (extra : List Byte), f.message ≠ r.payload ++ extra) →
    exec (.badCommand 0 (stationOf f.source) f.tag f.message) s = .next (s.deliveryStep f).state) ∧
  (∀ (r : Request) (dt : Nat) (src : Station) (tag : Byte) (s : State),
    ((s.ctl.tapState = .unconfigured ∨ s.ctl.tapState = .online ∨ s.ctl.tapState = .halted) → 4 ≤ s.mgmt.responses.length →
      exec (requestRow r dt src tag) s =
        .next { s with now := s.now + dt, ctr := { s.ctr with refusedHere := satInc s.ctr.refusedHere } }) ∧
      (s.hasRoom → ¬s.manages src →
        exec (requestRow r dt src tag) s = .next ((s.asked dt src).respond ⟨src, tag, [r.code, 0x09#8], false⟩)) ∧
      (s.hasRoom → s.manages src → ∀ c, s.cached src = some c → c.tag = tag →
        exec (requestRow r dt src tag) s = .next ((s.asked dt src).respond ⟨src, tag, c.payload, false⟩)))

/-! ### The close of a cycle -/

/-- What a close of any kind does (R33, R47). R48: it judges the banks of a train that began ONLINE where it is GOOD or DEFECTIVE,
and counts the incomplete ones. R49, R50: every valid entry ages, with its events. R131: the census from a closed roll. R87: the
mailboxes left UNCONFIRMED. R124: the pending restart's count. The events it raises, TRAIN_GOOD or TRAIN_BAD among them, reach
their pins and POST users, and their TAKE users take (R62), put off under a read burst (R63), after the bank's own completion
(R60) but where the event is the BANK_READY of a bank judged before it; nothing else changes. The order of the effects is by the
model's choice (log 8), the items cleared with the record by its reading (log 21). -/
def Obligations.CloseOfACycle : Prop :=
  ∀ (s : State) (k : CloseKind) (closed : Option (List RollEntry)),
    let t := s.close k closed
    let judged : Bool := (decide (k = .good) || decide (k = .defective)) && s.trk.beganOnline
    let names (e : Fin 32) (b : Fin 8) : Bool := s.mgmt.active.subs[e].valid && decide (s.mgmt.active.subs[e].bank = b)
    let owed (b : Fin 8) : Bool := judged && (List.finRange 32).any fun e => names e b
    let all (b : Fin 8) : Bool := (List.finRange 32).all fun e => !names e b || s.subs[e].captured
    let stales (e : Fin 32) : Bool :=
      s.mgmt.active.subs[e].valid && !s.subs[e].freshNow && decide (s.subs[e].freshness ≠ .stale) &&
        decide (s.mgmt.active.subs[e].ageLimit < satInc s.subs[e].age)
    let raised (x : Source) : Prop :=
      match x with
      | .bankReady b => owed b = true ∧ all b = true
      | .subFresh e => s.mgmt.active.subs[e].valid = true ∧ s.subs[e].freshNow = true ∧ s.subs[e].freshness ≠ .fresh
      | .subStale e => stales e = true
      | .censusChange =>
        ∃ l, closed = some l ∧ ∃ st : Fin 63,
          (s.roll.census[st].update l st s.trk.lastCycle s.mgmt.active.params.lostThreshold).presence ≠
            s.roll.census[st].presence
      | .outcome m => ∃ r due, s.sched.mailboxes[m].state = .inFlight r due ∧ (due = true ∨ k = .missed)
      | .trainGood => k = .good
      | .trainBad => k = .defective ∨ k = .aborted
      | _ => False
    let reaches (u : Fin 21) : Prop := ∃ x, raised x ∧ s.bound x u = true
    t = { s with
        trk := t.trk, mgmt := t.mgmt, subs := t.subs, rx := t.rx, pub := t.pub, sched := t.sched, roll := t.roll,
        sig := t.sig, att := t.att, ctr := t.ctr } ∧
      (t.trk = if k = .missed then s.trk else { s.trk with record := .idle, expected := none, defect := false, gapTimer := none }) ∧
      t.ctr =
        { s.ctr with
          trainsDefective := if k = .defective then satInc s.ctr.trainsDefective else s.ctr.trainsDefective
          trainsAborted := if k = .aborted then satInc s.ctr.trainsAborted else s.ctr.trainsAborted
          cyclesMissed := if k = .missed then satInc s.ctr.cyclesMissed else s.ctr.cyclesMissed
          fillFailures :=
            BitVec.ofNat 16 (min 65535 (s.ctr.fillFailures.toNat + (List.finRange 8).countP fun b => owed b && !all b))
          staleTransitions :=
            BitVec.ofNat 16 (min 65535 (s.ctr.staleTransitions.toNat + (List.finRange 32).countP stales)) } ∧
      ((∀ b : Fin 8,
        let asked (x : RxBank) : RxBank :=
          if s.readBurst b = true then { x with takePending := true }
          else if x.readyNew = true then
            { x with
              front := x.ready, ready := x.front, frontStamp := x.readyStamp, readyStamp := x.frontStamp, readyNew := false }
          else x
        let completed (x : RxBank) : RxBank :=
          let c : RxBank := { x with ready := x.fill, fill := x.ready, readyStamp := s.trk.lastCycle, readyNew := true }
          if c.hold = true then c else asked c
        let judgedBank (x : RxBank) : RxBank := if (owed b && all b) = true then completed x else x
        let early : Prop :=
          ∃ c : Fin 8, c < b ∧ owed c = true ∧ all c = true ∧ s.bound (.bankReady c) (takeUser b) = true
        (¬reaches (takeUser b) → t.rx[b] = judgedBank s.rx[b]) ∧
          (reaches (takeUser b) → ¬early → t.rx[b] = asked (judgedBank s.rx[b])) ∧
          (early → t.rx[b] = judgedBank (asked s.rx[b]))) ∧
        (∀ p : Fin 4,
          t.pub[p] = { s.pub[p] with posted := t.pub[p].posted } ∧
            (t.pub[p].posted = true ↔ s.pub[p].posted = true ∨ reaches (postUser p)))) ∧
      (∀ e : Fin 32,
        t.subs[e] =
          if s.mgmt.active.subs[e].valid = true then
            if s.subs[e].freshNow = true then ⟨.fresh, 0, some s.trk.lastCycle, false, false⟩
            else
              ⟨if s.mgmt.active.subs[e].ageLimit < satInc s.subs[e].age then .stale else s.subs[e].freshness,
                satInc s.subs[e].age, s.subs[e].lastFresh, false, false⟩
          else { s.subs[e] with captured := false, freshNow := false }) ∧
      (t.att = { s.att with stale := s.att.stale || (List.finRange 32).any stales }) ∧
      ((closed = none → t.roll = s.roll) ∧
        ∀ l, closed = some l →
          t.roll =
              { s.roll with
                census := t.roll.census, anonymous := anonymousCount l, censusCycle := some s.trk.lastCycle } ∧
            ∀ st : Fin 63,
              t.roll.census[st] =
                s.roll.census[st].update l st s.trk.lastCycle s.mgmt.active.params.lostThreshold) ∧
      (t.sched = { s.sched with mailboxes := t.sched.mailboxes } ∧
        ∀ m : Fin 8,
          t.sched.mailboxes[m] =
            match s.sched.mailboxes[m].state with
            | .inFlight r due =>
              if due = true ∨ k = .missed then { s.sched.mailboxes[m] with state := .done .unconfirmed (some r) }
              else s.sched.mailboxes[m]
            | _ => s.sched.mailboxes[m]) ∧
      (t.mgmt =
        { s.mgmt with pendingRestart := s.mgmt.pendingRestart.map fun x => { x with closes := min 2 (x.closes + 1) } }) ∧
      t.sig = { s.sig with pins := t.sig.pins, stamps := t.sig.stamps, overflow := t.sig.overflow } ∧
      ∀ j : Fin 8,
        (reaches (trigUser j) → t.sig.pins[j] = ⟨true, some s.now⟩) ∧
          (¬reaches (trigUser j) → t.sig.pins[j] = s.sig.pins[j])

/-- R60: a bank that a close finds complete. FILL and READY exchange their buffers, the READY stamp and ready-new are set and BANK_READY is
raised, and then, where HOLD is clear, the bank is taken (R61), put off under a read burst (R63). FRONT and its stamp change
by a take alone, and no other bank changes but by its own TAKE user. -/
def Obligations.CompletionOfABank : Prop :=
  ∀ (s : State) (b : Fin 8), s.owed b = true → s.allCaptured b = true →
    let done : RxBank :=
      { s.rx[b] with ready := s.rx[b].fill, fill := s.rx[b].ready, readyStamp := s.trk.lastCycle, readyNew := true }
    let ready : State := State.raise { s with rx := upd s.rx b done } (.bankReady b)
    let t := s.judgeBank b
    (s.rx[b].hold = true → t = ready) ∧
      (s.rx[b].hold = false →
        (s.readBurst b = false →
          t = { ready with
            rx := upd ready.rx b
              { done with
                front := s.rx[b].fill
                ready := s.rx[b].front
                frontStamp := s.trk.lastCycle
                readyStamp := s.rx[b].frontStamp
                readyNew := false } }) ∧
          (s.readBurst b = true → t = { ready with rx := upd ready.rx b { done with takePending := true } })) ∧
      (s.bound (.bankReady b) (takeUser b) = false → ready.rx[b] = done) ∧
      ∀ c : Fin 8, c ≠ b → s.bound (.bankReady b) (takeUser c) = false → t.rx[c] = s.rx[c]

/-- R131: the record of a station that the closed roll lists takes its first entry's status, lane health and slot, is PRESENT with
missing count 0, and keeps its first seen cycle and times lost. R132: the table for a station it does not list. R130: the
anonymous count. -/
def Obligations.CensusRecords : Prop :=
  (∀ (r : CensusRecord) (closed : List RollEntry) (st : Fin 63) (cycle : Cycle) (threshold : Byte) (i : Nat) (x : RollEntry),
    i < 63 → closed[i]? = some x → (stationOf x.station).toNat = st.val →
    (∀ (j : Nat) (y : RollEntry), j < i → closed[j]? = some y → (stationOf y.station).toNat ≠ st.val) →
    ∃ l : Listing,
      r.update closed st cycle threshold = ⟨.present, some l, 0, r.timesLost⟩ ∧
        (x.code = 0 → l.status = .unconfigured) ∧ (x.code = 1 → l.status = .online) ∧ (x.code = 2 → l.status = .halted) ∧
        (x.code = 3 → l.status = .faulted) ∧ l.portWUp = x.status.getLsbD 4 ∧ l.portEUp = x.status.getLsbD 5 ∧
        l.wrapped = x.status.getLsbD 6 ∧ l.position.val = i ∧ l.lastSeen = cycle ∧
        (r.listing = none → l.firstSeen = cycle) ∧ ∀ old, r.listing = some old → l.firstSeen = old.firstSeen) ∧
  (∀ (r : CensusRecord) (closed : List RollEntry) (st : Fin 63) (cycle : Cycle) (threshold : Byte),
    (∀ x ∈ closed, (stationOf x.station).toNat ≠ st.val) →
    (r.presence = .neverSeen ∨ r.presence = .lost → r.update closed st cycle threshold = r) ∧
      (r.presence = .present ∨ r.presence = .missing →
        (threshold ≤ satInc r.missing →
          r.update closed st cycle threshold = ⟨.lost, r.listing, satInc r.missing, satInc r.timesLost⟩) ∧
          (¬threshold ≤ satInc r.missing →
            r.update closed st cycle threshold = ⟨.missing, r.listing, satInc r.missing, r.timesLost⟩))) ∧
  ∀ closed : List RollEntry, closed.length ≤ 63 →
    (anonymousCount closed).toNat = (closed.filter fun x => decide (stationOf x.station = 63#6)).length

/-- R133: a census update sets the census cycle to the last processed cycle; it raises one CENSUS_CHANGE event, after all the records of
the update have changed, where the presence of some record changed, and none where no presence changed. -/
def Obligations.CensusUpdateRaisesOneEvent : Prop :=
  ∀ (s : State) (closed : List RollEntry),
    (∀ st : Fin 63, (s.updateCensus closed).roll.census[st] =
      s.roll.census[st].update closed st s.trk.lastCycle s.mgmt.active.params.lostThreshold) ∧
      (s.updateCensus closed).roll.censusCycle = some s.trk.lastCycle ∧
      ((∃ st : Fin 63, (s.updateCensus closed).roll.census[st].presence ≠ s.roll.census[st].presence) →
        s.updateCensus closed = State.raise { s with roll := (s.updateCensus closed).roll } .censusChange) ∧
      ((∀ st : Fin 63, (s.updateCensus closed).roll.census[st].presence = s.roll.census[st].presence) →
        s.updateCensus closed = { s with roll := (s.updateCensus closed).roll })

/-! ### ROLL, ECHO -/

/-- A good ROLL that ends a train without defect (R28, R126, R127, R129, R131, R132, R47): the own entry is appended, with the
sample's status and lane health, the upstream neighbour taken, the census updated and the record ended, with no bad train counted;
the whole is a GOOD close of the tap with its upstream neighbour. By the model's choice: the order of the effects (log 8); by its
reading: the expected position and the defect cleared with the record (log 21), the fields of the other entries leaving as they
came and the bits outside them as zero (log 23). -/
def Obligations.RollClosesGood : Prop :=
  ∀ (dt : Nat) (p : Port) (f : RollFrame) (s : State),
    s.listens p → s.lineFree p → s.trk.record = .inTrain p → s.trk.expected = some .roll → s.trk.defect = false →
    (s.ctl.tapState = .unconfigured ∨ s.ctl.tapState = .online ∨ s.ctl.tapState = .halted) →
    f.malformed = false → f.openCount.toNat < 63 → (∀ x ∈ openEntries f, stationOf x.station ≠ s.rst.station) →
    let upstream := (openEntries f).getLast?.map (fun x => stationOf x.station)
    ∃ t : State,
      exec (.roll dt p f (some (Frame.check (.roll f)))) s = .next t ∧
        t =
          { State.close { s.elapse dt with roll := { s.roll with upstream := upstream } } .good (some f.closedRoll) with
            sent := t.sent, portW := t.portW, portE := t.portE } ∧
        t.trk = { s.trk with record := .idle, expected := none, defect := false, gapTimer := none } ∧
        t.ctl = s.ctl ∧ t.ctr.trainsDefective = s.ctr.trainsDefective ∧ t.ctr.trainsAborted = s.ctr.trainsAborted ∧
        t.roll.upstream = upstream ∧
        (∀ st : Fin 63,
          t.roll.census[st] =
            s.roll.census[st].update f.closedRoll st s.trk.lastCycle s.mgmt.active.params.lostThreshold) ∧
        t.roll.censusCycle = some s.trk.lastCycle ∧
        (∀ e : Fin 32, t.subs[e].captured = false ∧ t.subs[e].freshNow = false) ∧
        (∀ out, s.route p = some out → ∃ g : RollFrame,
          t.sent = s.sent ++ [⟨out, .whole (.roll g) (Frame.check (.roll g))⟩] ∧ g.openCount = f.openCount + 1 ∧
            g.closedCount = f.closedCount ∧ g.closed = f.closed.map RollEntry.cleaned ∧
            (∀ i : Fin 63, i.val ≠ f.openCount.toNat → g.slots[i] = f.slots[i].cleaned) ∧
            ∀ i : Fin 63, i.val = f.openCount.toNat →
              g.slots[i].station = stationByte s.rst.station ∧
                g.slots[i].code.toNat =
                  (if s.ctl.tapState = .unconfigured then 0 else if s.ctl.tapState = .online then 1 else 2) ∧
                g.slots[i].status.getLsbD 4 = decide (s.portW.monitor = .up) ∧
                g.slots[i].status.getLsbD 5 = decide (s.portE.monitor = .up) ∧
                g.slots[i].status.getLsbD 6 = (s.portW.inService != s.portE.inService)) ∧
        t.inbound = s.inbound ∧ t.rst = s.rst ∧ t.lsp = s.lsp

/-- The table of R126, in the tap state sampled as the open count arrived (R125): the duplicate test before the overflow test, which
entry is appended, and what it holds (R9, 12.1). R129: the number the upstream neighbour takes. R169: what an entry's bits
outside its fields leave as in a changed frame, by the model's reading (log 23). -/
def Obligations.RollDecisions : Prop :=
  (∀ (x : RollSample) (own : Station) (f : RollFrame),
    let k := f.openCount.toNat
    let held : Prop := ∃ e ∈ openEntries f, stationOf e.station = own
    let d := rollDecision x.tapState own f
    (x.tapState = .unconfigured ∨ x.tapState = .online ∨ x.tapState = .halted →
      (held → d = .duplicate) ∧ (¬held → 63 ≤ k → d = .overflow) ∧ (¬held → k < 63 → d = .ownAppend)) ∧
      (x.tapState = .faulted → (63 ≤ k → d = .overflow) ∧ (k < 63 → d = .anonymousAppend)) ∧
      (x.entry own .ownAppend).station = stationByte own ∧
      (x.entry own .ownAppend).code.toNat =
        (match x.tapState with
          | .bypass => 0
          | .unconfigured => 0
          | .online => 1
          | .halted => 2
          | .faulted => 3) ∧
      (x.entry own .anonymousAppend).station = 63 ∧ (x.entry own .anonymousAppend).code.toNat = 3 ∧
      ∀ c : RollDecision,
        (x.entry own c).status.getLsbD 3 = false ∧ (x.entry own c).status.getLsbD 4 = x.portWUp ∧
          (x.entry own c).status.getLsbD 5 = x.portEUp ∧ (x.entry own c).status.getLsbD 6 = x.wrapped ∧
          (x.entry own c).status.getLsbD 7 = false) ∧
  (∀ f : RollFrame, f.openCount = 0 → upstreamOf f = none) ∧
  (∀ (f : RollFrame) (i : Fin 63), f.openCount.toNat = i.val + 1 → upstreamOf f = some (stationOf f.slots[i].station)) ∧
  ∀ x : RollEntry,
    stationOf x.cleaned.station = stationOf x.station ∧ x.cleaned.station.toNat < 64 ∧ x.cleaned.code = x.code ∧
      (∀ i, 4 ≤ i → i ≤ 6 → x.cleaned.status.getLsbD i = x.status.getLsbD i) ∧ x.cleaned.status.getLsbD 3 = false ∧
      x.cleaned.status.getLsbD 7 = false

/-- Every ROLL that ends the train in progress (R28, R29, R125 to R127, R131), by the sample taken as its open count arrived,
whether it is one command or its beginning was one of its own (State.meets). Its entry is written before the check is known. Good
and well formed: the decision takes effect and the train closes GOOD, or DEFECTIVE where it had a defect or another frame was
expected, with the census update. Malformed, with a stomped or bad check, or ended early: a DEFECTIVE close with no decision taken
and no census update. The frame leaves as it came where it is malformed, else with the entry; with a correct check where its own is
good, else stomped, or cut (R13), behind an ECHO where one is being sent (R145); the rest is as the end of a frame leaves it
(State.frameEnds), the port taken DOWN among it (R137). By the model's choice: the moment of the sample where one command is the
whole frame (log 4), the copy that has left, or waits whole, when its frame ends (log 5), a frame of it that is cut (log 6), the
order of the effects (log 8) with the error window last (log 9); by its reading: the bits outside fields (log 23). -/
def Obligations.RollEndsTheTrain : Prop :=
  ∀ (dt : Nat) (p : Port) (f : RollFrame) (a : Arriving) (x : RollSample) (s : State),
    s.meets p .roll a → a.roll = some x → s.trk.record = .inTrain p →
    let d := rollDecision x.tapState s.rst.station f
    let g : RollFrame :=
      if f.malformed = false ∧ (d = .ownAppend ∨ d = .anonymousAppend) then
        { f with
          closed := f.closed.map RollEntry.cleaned
          openCount := f.openCount + 1
          slots := Vector.ofFn fun i => if i.val = f.openCount.toNat then x.entry s.rst.station d else f.slots[i].cleaned }
      else f
    let decided : State :=
      match d with
      | .nothing => s.elapse dt
      | .duplicate => (s.elapse dt).enterFaulted
      | .overflow => { s.elapse dt with ctr := { s.ctr with rollOverflows := satInc s.ctr.rollOverflows } }
      | .ownAppend | .anonymousAppend => { s.elapse dt with roll := { s.roll with upstream := upstreamOf f } }
    let kind : CloseKind := if s.trk.expected = some .roll ∧ s.trk.defect = false then .good else .defective
    let ends (fcs : Option Fcs) (g : RollFrame) (closed : State) : Prop :=
      exec (.roll dt p f fcs) s = .next (closed.frameEnds 0 p (.roll f) (.roll g) fcs a.out false)
    let bad : State := (s.elapse dt).close .defective none
    (f.malformed = false → ends (some (Frame.check (.roll f))) g (decided.close kind (some f.closedRoll))) ∧
      (f.malformed = true → ends (some (Frame.check (.roll f))) f bad) ∧
      ∀ fcs : Option Fcs, Frame.outcome (.roll f) fcs ≠ .good → ends fcs g bad

/-- A good ROLL that already holds the tap's number puts the tap into FAULTED, abandons its WAITING and IN_FLIGHT mailboxes and
leaves unchanged (R35, R126, R128, R98). The order of the effects is by the model's choice (log 8). -/
def Obligations.DuplicateNumberFaults : Prop :=
  ∀ (dt : Nat) (p : Port) (f : RollFrame) (s : State),
    s.listens p → s.lineFree p → s.trk.record = .inTrain p →
    (s.ctl.tapState = .unconfigured ∨ s.ctl.tapState = .online ∨ s.ctl.tapState = .halted) →
    f.malformed = false → (∃ x ∈ openEntries f, stationOf x.station = s.rst.station) →
    ∃ t : State,
      exec (.roll dt p f (some (Frame.check (.roll f)))) s = .next t ∧ t.ctl = { s.ctl with tapState := .faulted } ∧
        t.att.state = true ∧ t.trk.record = .idle ∧ t.roll.upstream = s.roll.upstream ∧
        (∀ m : Fin 8,
          t.sched.mailboxes[m] =
            match s.sched.mailboxes[m].state with
            | .waiting => { s.sched.mailboxes[m] with state := .done .abandoned none }
            | .inFlight r _ => { s.sched.mailboxes[m] with state := .done .abandoned (some r) }
            | _ => s.sched.mailboxes[m]) ∧
        ∀ out, s.route p = some out → t.sent = s.sent ++ [⟨out, .whole (.roll f) (Frame.check (.roll f))⟩]

/-- A good ECHO REQUEST at a port that is UP waits as its reply, with its sequence number and pattern, replacing a reply that
waits; it is counted and not forwarded (R10, R12, R137, R145). That one command is the whole frame is by the model's choice (log
4). In a gap, with no forwarded frame being sent and the elastic buffer empty, a waiting reply starts; with none waiting, the
prepared request of a test on the port, with the sequence number and pattern of R146. Outside a gap nothing starts (R145); a
CONTAINER still arriving is not being sent, as it is sent only when it is whole (R3). An ECHO sent in full leaves with a correct
check, and behind it, in their order, the frames that have waited in the elastic buffer (R145); a reply is counted, a request
begins the wait of 200 µs. By the model's choice (log 5): the elastic buffer holds whole frames and empties in the step in which
the ECHO ends, a RESTART's response among them is marked there as left (R124 has its container sent in full first), and a gap is
judged with no copy still on its way out. What a frame does that leaves while an ECHO is being sent is State.leaves. -/
def Obligations.EchoTransmission : Prop :=
  (∀ (dt : Nat) (p : Port) (f : EchoFrame) (s : State),
    s.ctl.tapState ≠ .bypass → (s.unit p).arriving = none → (s.unit p).monitor = .up → f.direction = 0x00#8 →
    exec (.echo dt p f (some (Frame.check (.echo f)))) s =
      .next ((s.elapse dt).modUnit p fun u =>
        { u with
          arriving := none
          waitingReply := some ⟨0x01#8, f.seq, f.pattern⟩
          window := windowPush u.window false
          counters := { u.counters with frames := satInc u.counters.frames } })) ∧
  ((∀ (dt : Nat) (p : Port) (s : State), s.ctl.tapState ≠ .bypass → (s.unit p).monitor = .up → (s.unit p).tx = none →
    let gap : Prop :=
      (s.unit p).elastic = [] ∧ ∀ q a, (s.unit q).arriving = some a → a.out = some p → a.lead = .container
    (gap → ∀ f, (s.unit p).waitingReply = some f →
      exec (.echoTransmitStart dt p) s =
        .next ((s.elapse dt).modUnit p fun u => { u with tx := some (.reply f), waitingReply := none })) ∧
      (gap → (s.unit p).waitingReply = none → s.mgmt.segTest.state = .running → s.mgmt.segTest.port = p →
        s.mgmt.segTest.phase = .prepared →
        exec (.echoTransmitStart dt p) s =
          .next
            { (s.elapse dt).modUnit p fun u =>
                { u with
                  tx := some (.request ⟨0x00#8, BitVec.ofNat 8 s.mgmt.segTest.request,
                    Vector.ofFn fun j => BitVec.ofNat 8 (s.mgmt.segTest.request + j.val)⟩) } with
              mgmt := { s.mgmt with segTest := { s.mgmt.segTest with phase := .sending } } }) ∧
      (¬gap → exec (.echoTransmitStart dt p) s = .next (s.elapse dt))) ∧
  ∀ (dt : Nat) (p : Port) (f : EchoFrame) (s : State),
    let held := (s.unit p).elastic
    let left : List Sent := ⟨p, .whole (.echo f) (Frame.check (.echo f))⟩ :: held.map fun h => ⟨p, h.content⟩
    let restart : Option PendingRestart :=
      if held.any (fun h => h.restarts) = true then s.mgmt.pendingRestart.map fun x => { x with left := true }
      else s.mgmt.pendingRestart
    ((s.unit p).tx = some (.reply f) →
      exec (.echoReplySent dt p) s =
        .next (State.modUnit
          { s.elapse dt with sent := s.sent ++ left, mgmt := { s.mgmt with pendingRestart := restart } } p fun u =>
          { u with
            tx := none, elastic := [], counters := { u.counters with echoReplies := satInc u.counters.echoReplies } })) ∧
      ((s.unit p).tx = some (.request f) →
        exec (.echoRequestSent dt p) s =
          .next (State.modUnit
            { s.elapse dt with
              sent := s.sent ++ left
              mgmt := { s.mgmt with
                pendingRestart := restart
                segTest := { s.mgmt.segTest with
                  sent := s.mgmt.segTest.sent + 1
                  phase := .waiting (s.now + dt + 200) } } } p fun u => { u with tx := none, elastic := [] })))

/-- The table of R146 for an ECHO REPLY in the wait of the running test at its port: a good one by its sequence number and
pattern, and one with a stomped or bad check, which counts as bad and decides the request; a wait that ends without a deciding
reply counts one lost; then the next request is prepared, or the test is DONE. A bad reply is known by its direction byte by the
model's reading (log 33); that a frame's outcome joins the error window last is by its choice (log 9). -/
def Obligations.SegmentTestDecides : Prop :=
  (∀ (dt : Nat) (p : Port) (f : EchoFrame) (fcs : Option Fcs) (d : Nat) (s : State),
    s.ctl.tapState ≠ .bypass → (s.unit p).arriving = none → (s.unit p).monitor = .up → f.direction = 0x01#8 →
    s.mgmt.segTest.state = .running → s.mgmt.segTest.port = p → s.mgmt.segTest.phase = .waiting d →
    let x := s.mgmt.segTest
    let answer (y : SegTest) : Prop :=
      exec (.echo dt p f fcs) s =
        .next (State.frameEnds { s with mgmt := { s.mgmt with segTest := y } } dt p (.echo f) (.echo f) fcs none false)
    let decides (y : SegTest) : Prop :=
      answer (if x.request + 1 = x.n.toNat then { y with state := .done }
        else { y with request := x.request + 1, phase := .prepared })
    let good : Prop := Frame.outcome (.echo f) fcs = .good
    (¬good → decides { x with bad := x.bad + 1 }) ∧
      (good → f.seq = BitVec.ofNat 8 x.request → f.pattern ≠ echoPattern x.request → decides { x with bad := x.bad + 1 }) ∧
      (good → f.seq = BitVec.ofNat 8 x.request → f.pattern = echoPattern x.request → decides { x with good := x.good + 1 }) ∧
      (good → f.seq ≠ BitVec.ofNat 8 x.request → answer x)) ∧
  (∀ (dt d : Nat) (s : State), s.mgmt.segTest.state = .running → s.mgmt.segTest.phase = .waiting d →
    exec (.echoWaitExpiry dt) s =
      .next
        { s with
          now := max (s.now + dt) d
          mgmt := { s.mgmt with
            segTest :=
              if s.mgmt.segTest.request + 1 = s.mgmt.segTest.n.toNat then
                { s.mgmt.segTest with lost := s.mgmt.segTest.lost + 1, state := .done }
              else
                { s.mgmt.segTest with
                  lost := s.mgmt.segTest.lost + 1
                  request := s.mgmt.segTest.request + 1
                  phase := .prepared } } })

/-! ### The tracker's timers -/

/-- R30: the beginning of a frame of the train at its port stops the gap timer, leaves at the port what is decided of the frame
(State.decides) and changes nothing else; the timer's expiry closes an IN_TRAIN train ABORTED, and ends a PASSING record without a
close. A frame of any kind that ends with nothing between its beginning and its end leaves what it leaves as one command. R125:
the open count of a ROLL of the train takes the roll unit's sample anew. R31, R34: the train timer's expiry makes a MISSED close
while no train is in progress, and takes the cycle state to SILENT where it brings the count to the limit, with CYCLE_SILENT
raised and CYCLE set; during a train it only arms the timer again. That the beginning and the open count are commands of their own
(log 4) and that an expiry reaches its own moment (log 1) is by the model's choice, what ends with the record (log 21) by its
reading. -/
def Obligations.TrackerTimers : Prop :=
  ((∀ (dt : Nat) (p : Port) (lead : Lead) (s : State),
    s.listens p → s.trk.record.port = some p → lead ≠ .echo → lead ≠ .openCount →
    (lead ≠ .header 3#2 ∨ s.route p ≠ some p) →
    ∃ t : State,
      exec (.frameBeginsToArrive dt p lead) s = .next t ∧
        t = { s with now := s.now + dt, trk := { s.trk with gapTimer := none }, portW := t.portW, portE := t.portE } ∧
        t.unit p.other = s.unit p.other ∧ t.unit p = { s.unit p with arriving := some (s.decides p lead) }) ∧
  (∀ (d dt : Nat) (p : Port) (fcs : Option Fcs) (s t : State), s.ctl.tapState ≠ .bypass → (s.unit p).arriving = none →
    let began (f : Frame) : Prop := exec (.frameBeginsToArrive d p f.lead) s = .next t
    (∀ f, began (.header f) → exec (.header dt p f fcs) t = exec (.header (d + dt) p f fcs) s) ∧
      (∀ f, began (.block f) → exec (.block dt p f fcs) t = exec (.block (d + dt) p f fcs) s) ∧
      (∀ f, began (.container f) → exec (.container dt p f fcs) t = exec (.container (d + dt) p f fcs) s) ∧
      (∀ f, began (.roll f) → exec (.roll dt p f fcs) t = exec (.roll (d + dt) p f fcs) s) ∧
      (∀ f, began (.echo f) → exec (.echo dt p f fcs) t = exec (.echo (d + dt) p f fcs) s) ∧
      ∀ f, began (.unknown f) → exec (.unknownKind dt p f fcs) t = exec (.unknownKind (d + dt) p f fcs) s) ∧
  (∀ (dt : Nat) (p : Port) (s : State), s.ctl.tapState ≠ .bypass → s.trk.record = .inTrain p →
    let sample : RollSample :=
      ⟨s.ctl.tapState, decide (s.portW.monitor = .up), decide (s.portE.monitor = .up), s.portW.inService != s.portE.inService⟩
    (∀ a, (s.unit p).arriving = some a → a.lead = .roll → a.seen = true →
      exec (.frameBeginsToArrive dt p .openCount) s =
        .next ((s.elapse dt).modUnit p fun u => { u with arriving := some { a with roll := some sample } })) ∧
      ((s.unit p).arriving = none →
        exec (.frameBeginsToArrive dt p .openCount) s = exec (.frameBeginsToArrive dt p .roll) s)) ∧
  ((∀ (dt d : Nat) (p : Port) (s : State), s.trk.gapTimer = some d → s.trk.record = .inTrain p →
    ∃ t : State,
      exec (.gapTimerExpiry dt) s = .next t ∧ t = State.close { s with now := max (s.now + dt) d } .aborted none ∧
        t.now = max (s.now + dt) d ∧
        t.trk = { s.trk with record := .idle, expected := none, defect := false, gapTimer := none } ∧
        t.ctr.trainsAborted = satInc s.ctr.trainsAborted ∧ t.ctr.fillFailures = s.ctr.fillFailures ∧
        (∀ e : Fin 32, t.subs[e].captured = false ∧ t.subs[e].freshNow = false) ∧ t.roll = s.roll ∧ t.ctl = s.ctl ∧
        t.portW = s.portW ∧ t.portE = s.portE ∧ t.sent = s.sent) ∧
    ∀ (dt d : Nat) (p : Port) (s : State), s.trk.gapTimer = some d → s.trk.record = .passing p →
      exec (.gapTimerExpiry dt) s =
        .next
          { s with
            now := max (s.now + dt) d
            trk := { s.trk with record := .idle, expected := none, defect := false, gapTimer := none } })) ∧
  ((∀ (dt d period : Nat) (s : State), s.trk.trainTimer = some d → s.trk.lastPeriod = some period →
    (∀ q, s.trk.record ≠ .inTrain q) →
    let closed := State.close { s with now := max (s.now + dt) d } .missed none
    let silent : Prop := satInc s.trk.missed = s.mgmt.active.params.cycleLoss ∧ s.trk.cycleState ≠ .silent
    ∃ t : State,
      exec (.trainTimerExpiry dt) s = .next t ∧ (¬silent → t = { closed with trk := t.trk }) ∧
        (silent →
          t = State.raise { closed with trk := t.trk, att := { closed.att with cycle := true } } .cycleSilent) ∧
        t.ctr.cyclesMissed = satInc s.ctr.cyclesMissed ∧
        t.trk =
          { s.trk with
            missed := satInc s.trk.missed
            trainTimer := some (max (s.now + dt) d + period + 100)
            cycleState :=
              if satInc s.trk.missed = s.mgmt.active.params.cycleLoss then .silent else s.trk.cycleState
            valid :=
              if satInc s.trk.missed = s.mgmt.active.params.cycleLoss ∧ s.trk.cycleState ≠ .silent then false
              else s.trk.valid } ∧
        t.roll = s.roll ∧ t.ctl = s.ctl ∧ t.portW = s.portW ∧ t.portE = s.portE ∧ t.sent = s.sent) ∧
    ∀ (dt d period : Nat) (p : Port) (s : State), s.trk.trainTimer = some d → s.trk.lastPeriod = some period →
      s.trk.record = .inTrain p →
      exec (.trainTimerExpiry dt) s =
        .next
          { s with
            now := max (s.now + dt) d
            trk := { s.trk with trainTimer := some (max (s.now + dt) d + period + 100) } })

/-! ### Port units and lane switch -/

/-- R136, R139, R140, R145, R147, R32: lock lost at a port that is UP, with RING_CHANGE raised and its cause set. R3, R140: the
copy of the frame arriving there ends with it, the copy of a frame from the other port that is leaving here is cut short, and so is
an ECHO being sent; each is closed stomped; what waits in the elastic buffer is gone. R78: one publish lost for each of these that
the publish unit had written into. By the model's choice: the order of the effects (log 34), a cut frame listed by its lead (log
6), whole frames in the elastic buffer and no copy still on its way out once its frame has ended (log 5), and that the decision to
write counts as written (log 37); by its reading: the whole of a container waiting for its end (log 24). -/
def Obligations.LockLostLeavesUp : Prop :=
  ∀ (dt : Nat) (p : Port) (s : State), s.ctl.tapState ≠ .bypass → (s.unit p).monitor = .up →
    ∃ t : State,
      exec (.lockLost dt p) s = .next t ∧ t.now = s.now + dt ∧ (t.unit p).monitor = .down ∧ (t.unit p).cause = .loss ∧
        (t.unit p).hold = some (s.now + dt + 1000) ∧ (t.unit p).qual = none ∧ (t.unit p).lock = false ∧
        (t.unit p).farEnd = none ∧ (t.unit p).inService = false ∧ (t.unit p).counters.downs = satInc (s.unit p).counters.downs ∧
        (t.unit p).waitingReply = none ∧ (t.unit p).tx = none ∧ (t.unit p).elastic = [] ∧ (t.unit p).arriving = none ∧
        (t.unit p).discard = false ∧ t.att.ring = true ∧
        (∀ k : Fin 8, s.bound .ringChange (trigUser k) = true → t.sig.pins[k] = ⟨true, some (s.now + dt)⟩) ∧
        (t.ctr.wrapsEntered =
          if s.portW.inService = true ∧ s.portE.inService = true then satInc s.ctr.wrapsEntered else s.ctr.wrapsEntered) ∧
        (s.trk.record = .inTrain p → t.ctr.trainsAborted = satInc s.ctr.trainsAborted) ∧
        (s.trk.record.port = some p → t.trk.record = .idle ∧ t.trk.gapTimer = none) ∧
        (s.trk.record.port ≠ some p → t.trk = s.trk ∧ t.ctr.trainsAborted = s.ctr.trainsAborted) ∧
        (s.mgmt.segTest.state = .running → s.mgmt.segTest.port = p → t.mgmt.segTest.state = .aborted) ∧
        (t.unit p.other).monitor = (s.unit p.other).monitor ∧ (t.unit p.other).inService = (s.unit p.other).inService ∧
        (let here := (s.unit p).arriving
        let there := (s.unit p.other).arriving
        let busy (q : Port) : Bool := (s.unit q).tx.isSome
        let leavesBy (a : Option Arriving) (q : Port) : Bool := decide ((a.bind fun x => x.out) = some q)
        let written (a : Option Arriving) : Bool :=
          match a with
          | some x => decide (x.writes ≠ [])
          | none => false
        let cut (q : Port) (a : Option Arriving) : List Sent :=
          match a with
          | some x => [⟨q, .cut x.lead⟩]
          | none => []
        t.sent =
            s.sent ++ (if leavesBy here p && !busy p then cut p here else []) ++
              (if leavesBy here p.other && !busy p.other then cut p.other here else []) ++
              (if leavesBy there p && decide ((there.map fun x => x.lead) ≠ some .container) && !busy p then cut p there else []) ++
              (if busy p then [⟨p, .cut .echo⟩] else []) ∧
          t.ctr.publishLost =
            BitVec.ofNat 16
              (min 65535
                (s.ctr.publishLost.toNat + (written here && (here.bind fun x => x.out).isSome).toNat +
                  (written there && leavesBy there p).toNat + (s.unit p).elastic.countP fun h => h.written)) ∧
          (t.unit p.other).arriving =
            (if leavesBy there p then there.map fun x => { x with out := none } else there) ∧
          (t.unit p.other).elastic =
            (s.unit p.other).elastic ++
              (match here with
                | some x => if leavesBy here p.other && busy p.other then [⟨.cut x.lead, false, false⟩] else []
                | none => [])) ∧
        t.ctl = s.ctl ∧ t.rst = s.rst ∧ t.inbound = s.inbound

/-- R136: lock lost while QUALIFYING enters DOWN with cause LOSS, and FAULT with cause REMOTE, uncounted; while DOWN only the lock is
gone. At an UP port FAULT enters DOWN with cause REMOTE, and WAIT makes it unfit and withdraws an accepted return (R141, R142).
R137: an added outcome that brings the window to 8 line errors takes an UP port DOWN with cause ERRORS, its lock kept; another
only joins the window of the latest 64. That a frame acts before its outcome is added is by the model's choice (log 9). -/
def Obligations.MonitorLosesItsPlace : Prop :=
  ((∀ (dt : Nat) (p : Port) (s : State), s.ctl.tapState ≠ .bypass → (s.unit p).arriving = none →
    (s.unit p).monitor = .qualifying →
    exec (.lockLost dt p) s =
      .next ((s.elapse dt).modUnit p fun u =>
        { u with
          lock := false
          farEnd := none
          monitor := .down
          cause := .loss
          hold := some (s.now + dt + 1000)
          qual := none
          discard := false
          returnReady := false
          returnAccepted := false
          waitingReply := none })) ∧
    ∀ (dt : Nat) (p : Port) (s : State), s.ctl.tapState ≠ .bypass → (s.unit p).arriving = none → (s.unit p).monitor = .down →
      exec (.lockLost dt p) s =
        .next ((s.elapse dt).modUnit p fun u =>
          { u with lock := false, farEnd := none, returnReady := false, returnAccepted := false })) ∧
  (∀ (dt : Nat) (p : Port) (s : State), s.ctl.tapState ≠ .bypass → (s.unit p).monitor = .qualifying → (s.unit p).lock = true →
    exec (.farEndRecognised dt p .fault) s =
      .next ((s.elapse dt).modUnit p fun u =>
        { u with
          farEnd := some .fault
          monitor := .down
          cause := .remote
          hold := some (s.now + dt + 1000)
          qual := none
          discard := false
          returnReady := false
          returnAccepted := false
          waitingReply := none })) ∧
  (∀ (p : Port) (error : Bool) (s : State),
    let w := ((s.unit p).window ++ [error]).drop ((s.unit p).window.length - 63)
    ((s.unit p).monitor ≠ .up → s.windowAdd p error = s) ∧
      ((s.unit p).monitor = .up → (error = false ∨ w.countP id < 8) →
        s.windowAdd p error = s.modUnit p fun u => { u with window := w })) ∧
  (∀ (dt : Nat) (p : Port) (f : EchoFrame) (s : State), s.ctl.tapState ≠ .bypass → (s.unit p).arriving = none →
    (s.unit p).monitor = .up → 8 ≤ (((s.unit p).window ++ [true]).drop ((s.unit p).window.length - 63)).countP id →
    ∃ t : State,
      exec (.echo dt p f none) s = .next t ∧ (t.unit p).monitor = .down ∧ (t.unit p).cause = .errors ∧
        (t.unit p).hold = some (s.now + dt + 1000) ∧ (t.unit p).lock = (s.unit p).lock ∧ (t.unit p).inService = false ∧
        (t.unit p).counters.lineErrors = satInc (s.unit p).counters.lineErrors ∧
        (t.unit p).counters.downs = satInc (s.unit p).counters.downs ∧ t.att.ring = true) ∧
  ((∀ (dt : Nat) (p : Port) (s : State), s.ctl.tapState ≠ .bypass → (s.unit p).monitor = .up → (s.unit p).lock = true →
    ∃ t : State,
      exec (.farEndRecognised dt p .fault) s = .next t ∧ (t.unit p).monitor = .down ∧ (t.unit p).cause = .remote ∧
        (t.unit p).farEnd = some .fault ∧ (t.unit p).lock = true ∧ (t.unit p).hold = some (s.now + dt + 1000) ∧
        (t.unit p).inService = false ∧ (t.unit p).counters.downs = satInc (s.unit p).counters.downs) ∧
    ∀ (dt : Nat) (p : Port) (s : State), s.ctl.tapState ≠ .bypass → (s.unit p).monitor = .up → (s.unit p).lock = true →
      exec (.farEndRecognised dt p .wait) s =
        .next ((s.elapse dt).modUnit p fun u =>
          { u with farEnd := some .wait, returnReady := false, returnAccepted := false }))

/-- R136: a DOWN port begins to qualify at a lock gain, at the end of its hold, or at a change of what the far end sends, once it
holds lock, its hold has expired and the far end does not send FAULT. R138: what a port sends in place of idle fill. R136, R139,
R142: the end of qualification makes the port UP with an empty window and raises RING_CHANGE with its cause; a fit port out of
service under MANUAL gets its return-ready flag, then or as idle fill is recognised, and each setting of a flag raises RING_CHANGE
again. R141, R142: at a train gap, a fit port out of service returns, under AUTO or with an accepted RETURN WRAP, and raises
RING_CHANGE. That a train gap is judged with no copy still on its way out is by the model's choice (log 5). What a raised event
does is RisingEdgeReachesItsUsers. -/
def Obligations.QualificationAndReturn : Prop :=
  (((∀ (dt : Nat) (p : Port) (s : State), s.ctl.tapState ≠ .bypass → (s.unit p).monitor = .down → (s.unit p).hold = none →
    (s.unit p).farEnd ≠ some .fault →
    exec (.lockGained dt p) s =
      .next ((s.elapse dt).modUnit p fun u =>
        { u with lock := true, monitor := .qualifying, qual := some (s.now + dt) })) ∧
    (∀ (dt d : Nat) (p : Port) (s : State), s.ctl.tapState ≠ .bypass → (s.unit p).monitor = .down →
      (s.unit p).hold = some d → (s.unit p).lock = true → (s.unit p).farEnd ≠ some .fault →
      exec (.downHoldExpiry dt p) s =
        .next (((s.elapse dt).reach d).modUnit p fun u =>
          { u with hold := none, monitor := .qualifying, qual := some (max (s.now + dt) d) })) ∧
    (∀ (dt d : Nat) (p : Port) (s : State), s.ctl.tapState ≠ .bypass → (s.unit p).hold = some d → (s.unit p).lock = false →
      exec (.downHoldExpiry dt p) s = .next (((s.elapse dt).reach d).modUnit p fun u => { u with hold := none })) ∧
    ∀ (dt : Nat) (p : Port) (sig : FarSignal) (s : State), s.ctl.tapState ≠ .bypass → (s.unit p).monitor = .down →
      (s.unit p).hold = none → (s.unit p).lock = true → sig ≠ .fault →
      exec (.farEndRecognised dt p sig) s =
        .next ((s.elapse dt).modUnit p fun u =>
          { u with
            farEnd := some sig
            monitor := .qualifying
            qual := some (s.now + dt)
            returnReady := false
            returnAccepted := false })) ∧
  ∀ u : PortUnit,
    (u.monitor = .up → u.lineFill = .idle) ∧ (u.monitor = .qualifying → u.lineFill = .wait) ∧
      (u.monitor = .down →
        (u.lock = false → u.lineFill = .fault) ∧ (u.cause = .errors → u.hold ≠ none → u.lineFill = .fault) ∧
          (u.lock = true → (u.cause ≠ .errors ∨ u.hold = none) → u.lineFill = .wait))) ∧
  ((∀ (dt d : Nat) (p : Port) (s : State), s.ctl.tapState ≠ .bypass → (s.unit p).monitor = .qualifying →
    (s.unit p).qual = some d →
    let flags : Prop :=
      (s.unit p).farEnd = some .idle ∧ s.mgmt.active.params.returnPolicy = .manual ∧ (s.unit p).inService = false ∧
        (s.unit p).returnReady = false
    let fit : Prop := (s.unit p).farEnd = some .idle
    let up (ready accepted : Bool) : State :=
      State.modUnit
        { s with
          now := max (s.now + dt) (d + 1000 * s.mgmt.active.params.qualification.toNat), att := { s.att with ring := true } } p
        fun u => { u with monitor := .up, window := [], qual := none, returnReady := ready, returnAccepted := accepted }
    let answers (t : State) : Prop := exec (.qualificationComplete dt p) s = .next t
    (¬fit → answers ((up false false).raise .ringChange)) ∧
      (fit → ¬flags → answers ((up (s.unit p).returnReady (s.unit p).returnAccepted).raise .ringChange)) ∧
      (flags → answers (((up true (s.unit p).returnAccepted).raise .ringChange).raise .ringChange))) ∧
  (∀ (dt : Nat) (p : Port) (s : State), s.ctl.tapState ≠ .bypass → (s.unit p).monitor = .up → (s.unit p).lock = true →
    let told : State := (s.elapse dt).modUnit p fun u => { u with farEnd := some .idle }
    let flags : Prop :=
      s.mgmt.active.params.returnPolicy = .manual ∧ (s.unit p).inService = false ∧ (s.unit p).returnReady = false
    (flags →
      exec (.farEndRecognised dt p .idle) s =
        .next (State.raise (State.modUnit { told with att := { s.att with ring := true } } p fun u =>
          { u with returnReady := true }) .ringChange)) ∧
      (¬flags → exec (.farEndRecognised dt p .idle) s = .next told)) ∧
  (∀ (dt : Nat) (p : Port) (s : State), s.ctl.tapState ≠ .bypass → (s.unit p).monitor = .up → (s.unit p).farEnd = some .idle →
    (s.unit p).inService = false →
    (s.mgmt.active.params.returnPolicy = .auto ∨ (s.unit p).returnAccepted = true) → s.trk.record = .idle →
    (∀ q, (s.unit q).arriving = none ∧ (s.unit q).elastic = []) →
    exec (.returnToService dt p) s =
      .next (State.raise (State.modUnit { s with now := s.now + dt, att := { s.att with ring := true } } p fun u =>
        { u with inService := true, returnReady := false, returnAccepted := false }) .ringChange)))

/-! ### Pins and signals -/

/-- A rising edge of a source on the channels bound to it, and one on a channel of its own (R153 to R156): every POST user on such a
channel posts its bank, every TAKE user requests a take, every TRIG_OUT user's pin goes high, and the STAMP user's record, with the
cycle of the stamp reference and the time since it, joins the FIFO or, where it is full, sets the overflow flag. Nothing else
changes. -/
def Obligations.RisingEdgeReachesItsUsers : Prop :=
  ∀ s : State,
    let edge (on : Fin 12 → Prop) (t : State) : Prop :=
      let hit (u : Fin 21) : Prop := ∃ c : Fin 12, s.mgmt.active.users[u] = some c ∧ on c
      EdgeOnly s t ∧
        (∀ p : Fin 4,
          (hit (postUser p) → t.pub[p] = { s.pub[p] with posted := true }) ∧ (¬hit (postUser p) → t.pub[p] = s.pub[p])) ∧
        (∀ b : Fin 8,
          (hit (takeUser b) →
            t.rx[b] =
              if s.readBurst b = true then { s.rx[b] with takePending := true }
              else if s.rx[b].readyNew = true then
                { s.rx[b] with
                  front := s.rx[b].ready
                  ready := s.rx[b].front
                  frontStamp := s.rx[b].readyStamp
                  readyStamp := s.rx[b].frontStamp
                  readyNew := false }
              else s.rx[b]) ∧
            (¬hit (takeUser b) → t.rx[b] = s.rx[b])) ∧
        (∀ k : Fin 8,
          (hit (trigUser k) → t.sig.pins[k] = ⟨true, some s.now⟩) ∧ (¬hit (trigUser k) → t.sig.pins[k] = s.sig.pins[k])) ∧
        t.sig.trigIn = s.sig.trigIn ∧ t.sig.pulses = s.sig.pulses ∧ t.sig.ref = s.sig.ref ∧
        (¬hit stampUser → t.sig.stamps = s.sig.stamps ∧ t.sig.overflow = s.sig.overflow) ∧
        (∀ c : Fin 12, s.mgmt.active.users[stampUser] = some c → on c → s.sig.stamps.length < 4 →
          t.sig.stamps =
              s.sig.stamps ++
                [match s.sig.ref with
                  | some r => ⟨c, r.cycle, BitVec.ofNat 16 (min 65535 (s.now - r.time))⟩
                  | none => ⟨c, 0, 0⟩] ∧
            t.sig.overflow = s.sig.overflow) ∧
        (hit stampUser → 4 ≤ s.sig.stamps.length → t.sig.stamps = s.sig.stamps ∧ t.sig.overflow = true)
    (∀ x : Source, edge (fun c => s.mgmt.active.channels[c] = x) (s.raise x)) ∧
      (∀ c : Fin 12, edge (fun d => d = c) (s.edgeOn c)) ∧
      ∀ (x : Source) (u : Fin 21),
        s.bound x u = true ↔ ∃ c : Fin 12, s.mgmt.active.users[u] = some c ∧ s.mgmt.active.channels[c] = x

/-- R152 to R154: an input's change of level, the fall of an output pin and the end of a PULSE. R36: STOP sets and clears the pin
cause; a rise halts an ONLINE tap, a fall resumes a HALTED one whose command cause is clear, and each such change sets STATE
(R35). -/
def Obligations.PinsAndPulses : Prop :=
  ((∀ (dt : Nat) (k : Fin 8) (s : State), s.pinIsOutput k = false → s.sig.trigIn[k] = true →
    exec (.triggerPinChange dt k false) s =
      .next { s with now := s.now + dt, sig := { s.sig with trigIn := upd s.sig.trigIn k false } }) ∧
    (∀ (dt : Nat) (k : Fin 8) (s : State), s.pinIsOutput k = false → s.sig.trigIn[k] = false →
      exec (.triggerPinChange dt k true) s =
        .next (State.raise { s with now := s.now + dt, sig := { s.sig with trigIn := upd s.sig.trigIn k true } }
          (.triggerIn k))) ∧
    (∀ (dt d : Nat) (k : Fin 8) (c : Fin 12) (s : State), s.mgmt.active.users[trigUser k] = some c →
      s.sig.pins[k] = ⟨true, some d⟩ → s.channelLevel c = false →
      exec (.trigOutFall dt k) s =
        .next
          { s with
            now := max (s.now + dt) (d + 1), sig := { s.sig with pins := upd s.sig.pins k ⟨false, some d⟩ } }) ∧
    ∀ (dt d : Nat) (c : Fin 12) (s : State), s.sig.pulses[c] = some d →
      exec (.pulseEnd dt c) s =
        .next { s with now := max (s.now + dt) d, sig := { s.sig with pulses := upd s.sig.pulses c none } }) ∧
  (∀ (dt : Nat) (s : State),
    exec (.stopRise dt) s =
        .next
          (if s.ctl.tapState = .online then
            { s with
              now := s.now + dt, ctl := { s.ctl with pinCause := true, tapState := .halted },
              att := { s.att with state := true } }
          else { s with now := s.now + dt, ctl := { s.ctl with pinCause := true } }) ∧
      exec (.stopFall dt) s =
        .next
          (if s.ctl.tapState = .halted ∧ s.ctl.commandCause = false then
            { s with
              now := s.now + dt, ctl := { s.ctl with pinCause := false, tapState := .online },
              att := { s.att with state := true } }
          else { s with now := s.now + dt, ctl := { s.ctl with pinCause := false } }))

/-! ### Restarts -/

/-- R168: at the start of each restart the kind is the cause; the count is 0 after POWER-ON and otherwise rises by one, stopping at
65535; the STRAP_INVALID mark keeps its value but for POWER-ON (R165). By the model's reading: a PIN restart begins where RST_N is
not low already (log 27); by its choice: a REMOTE one by its own command where it is pending and due (log 10), and a LOCAL one by
the action word, which outside a transaction is one of its own (log 15). Each leaves what RestartValues says of a restart of its
kind. -/
def Obligations.RestartCauseAndCount : Prop :=
  ∀ (dt : Nat) (s : State),
    (∃ t : State,
      exec (.powerOn dt) s = .next t ∧ t = State.beginRestart { s with now := s.now + dt } .powerOn ∧
      t.rst.cause = .powerOn ∧ t.rst.count = 0 ∧ t.rst.strapInvalid = false ∧
      t.rst.station = 0 ∧ t.rst.hold = .waiting ∧ t.ctr = TapCounters.zero ∧ t.portW.counters = PortCounters.zero ∧
      t.portE.counters = PortCounters.zero ∧ t.trk.interval = none) ∧
      (s.rst.rstLow = false →
        ∃ t : State,
          exec (.rstNLow dt) s = .next t ∧ t = State.beginRestart { s with now := s.now + dt } .pin ∧ t.rst.cause = .pin ∧
          t.rst.count = satInc s.rst.count ∧
          t.rst.strapInvalid = s.rst.strapInvalid ∧ t.rst.hold = .waiting ∧ t.ctr = TapCounters.zero ∧
          t.portW.counters = PortCounters.zero ∧ t.portE.counters = PortCounters.zero ∧ t.trk.interval = none) ∧
      (s.servesWrite = true → s.alreadyActed = false →
        ∃ t : State,
          exec (.localRestart dt) s = .next t ∧
          t =
            State.beginRestart
              { s with
                now := s.now + dt
                lsp := { s.lsp with txn := s.lsp.txn.map fun x => { x with acted := true, address := 0x3301#16 } } } .local ∧
          t.rst.cause = .local ∧ t.rst.count = satInc s.rst.count ∧
          t.rst.strapInvalid = s.rst.strapInvalid ∧ t.rst.hold = .running (s.now + dt + 2000) ∧ t.ctr = s.ctr ∧
          t.portW.counters = s.portW.counters ∧ t.portE.counters = s.portE.counters ∧
          t.trk.interval = s.trk.interval ∧ t.lsp.report = .none) ∧
      ∀ x, s.mgmt.pendingRestart = some x → (x.left = true ∨ 2 ≤ x.closes) →
        ∃ t : State,
          exec (.remoteRestartBegin dt) s = .next t ∧ t = State.beginRestart { s with now := s.now + dt } .remote ∧
          t.rst.cause = .remote ∧ t.rst.count = satInc s.rst.count ∧
          t.rst.strapInvalid = s.rst.strapInvalid ∧ t.rst.hold = .running (s.now + dt + 2000) ∧ t.ctr = s.ctr ∧
          t.portW.counters = s.portW.counters ∧ t.portE.counters = s.portE.counters ∧
          t.trk.interval = s.trk.interval ∧ t.mgmt.pendingRestart = none

/-- What every restart leaves, whatever its kind: the tap state and causes (R35, R36), the tracker (R20, R39), the empty set (R53,
R103, R104) and its records (R42), the banks (R58, R67), the queues, the census (R130), the ports (R135, R149), the attention
causes (R160) and the report (R164). The transaction in progress is abandoned and its burst ended (R161). That what a port is
receiving or sending is dropped and leaves nothing in `sent` (log 29), and that the segment test's port is W (log 17), is by the
model's choice. -/
def Obligations.RestartValues : Prop :=
  ∀ (s : State) (kind : RestartKind),
    let t := s.beginRestart kind
    t.ctl = ⟨.bypass, false, s.ctl.pinCause⟩ ∧ t.mgmt = Management.reset ∧ t.subs = Vector.replicate 32 SubRecord.reset ∧
      t.rx = Vector.replicate 8 RxBank.reset ∧ t.sched = Scheduler.reset ∧ t.inbound = [] ∧ t.roll = RollUnit.reset ∧
      t.att = Attention.reset ∧ t.lsp.report = .none ∧
      (s.lsp.txn = none → t.lsp.txn = none) ∧
      (∀ x, s.lsp.txn = some x →
        (∃ y, t.lsp.txn = some y ∧ y.kind = .dead) ∧ (∀ b, t.readBurst b = false) ∧ ∀ q, t.writeBurst q = false) ∧
      t.trk.record = .idle ∧ t.trk.valid = false ∧ t.trk.cycleState = .waiting ∧ t.trk.trainTimer = none ∧
      t.trk.gapTimer = none ∧ t.trk.lastEpoch = none ∧
      t.sig.ref = none ∧ t.sig.stamps = [] ∧ t.sig.overflow = false ∧ (∀ k : Fin 8, t.sig.pins[k] = ⟨false, none⟩) ∧
      (∀ c : Fin 12, t.sig.pulses[c] = none) ∧
      (∀ q, (t.unit q).monitor = .down ∧ (t.unit q).inService = false ∧ (t.unit q).returnReady = false ∧
        (t.unit q).waitingReply = none ∧ (t.unit q).elastic = [] ∧ (t.unit q).discard = false ∧
        (t.unit q).arriving = none ∧ (t.unit q).tx = none) ∧
      t.sent = s.sent ∧
      ∀ p : Fin 4, t.pub[p].pIsDraft = true ∧ t.pub[p].posted = false ∧ t.pub[p].postedNow = false ∧
        t.pub[p].p = (if kind = .local ∨ kind = .remote then s.pub[p].p else Buffer.zero) ∧
        t.pub[p].q = if kind = .local ∨ kind = .remote then s.pub[p].q else Buffer.zero

/-- In BYPASS a frame crosses to the other port as it came, uncounted and unseen (R2, R144), and so do idle fill and both forms of
the far-end fault pattern; elsewhere a port sends its own fill (R138). R135, R144: in BYPASS the monitors are not operated, no
frame is seen to begin and none is originated. That a frame which crosses is recorded as sent, and that the tap holds nothing of
what fills the line, is by the model's choice (log 19). R166, R167: the hold runs 2 ms from the end of its cause; at its end a
strap of 1 to 62 leaves BYPASS for UNCONFIGURED with both down holds running (R135) and STATE set (R35), any other strap sets
STRAP_INVALID and stays. Which cause the hold waits for is by the model's reading (log 27). -/
def Obligations.BypassAndItsEnd : Prop :=
  (∀ (dt : Nat) (p : Port) (c : Fcs) (s : State),
    s.ctl.tapState = .bypass →
    let t (f : Frame) : State := { s with now := s.now + dt, sent := s.sent ++ [⟨p.other, .whole f c⟩] }
    (∀ f, exec (.header dt p f (some c)) s = .next (t (.header f))) ∧
      (∀ f, exec (.block dt p f (some c)) s = .next (t (.block f))) ∧
      (∀ f, exec (.container dt p f (some c)) s = .next (t (.container f))) ∧
      (∀ f, exec (.roll dt p f (some c)) s = .next (t (.roll f))) ∧
      (∀ f, exec (.echo dt p f (some c)) s = .next (t (.echo f))) ∧
      ∀ f, exec (.unknownKind dt p f (some c)) s = .next (t (.unknown f))) ∧
  (∀ (s : State) (arriving : Port → Option LineFill) (p : Port),
    (s.ctl.tapState = .bypass → s.lineFill arriving p = arriving p.other) ∧
      (s.ctl.tapState ≠ .bypass → s.lineFill arriving p = some (s.unit p).lineFill)) ∧
  (∀ (dt : Nat) (p : Port) (s : State), s.ctl.tapState = .bypass →
    let idles (c : Instr) : Prop := exec c s = .next { s with now := s.now + dt }
    (∀ x, idles (.frameBeginsToArrive dt p x)) ∧ idles (.lockLost dt p) ∧ idles (.lockGained dt p) ∧
      (∀ sig, idles (.farEndRecognised dt p sig)) ∧ idles (.downHoldExpiry dt p) ∧ idles (.qualificationComplete dt p) ∧
      idles (.returnToService dt p) ∧ idles (.echoTransmitStart dt p)) ∧
  ((∀ (dt : Nat) (s : State), s.rst.supplySettling = true → s.rst.cause = .powerOn → s.rst.hold = .waiting →
    exec (.powerSettled dt) s =
      .next
        { s with now := s.now + dt, rst := { s.rst with supplySettling := false, hold := .running (s.now + dt + 2000) } }) ∧
    (∀ (dt : Nat) (s : State), s.rst.rstLow = true → s.rst.cause = .pin → s.rst.hold = .waiting →
      exec (.rstNHigh dt) s =
        .next { s with now := s.now + dt, rst := { s.rst with rstLow := false, hold := .running (s.now + dt + 2000) } }) ∧
    (∀ (dt d : Nat) (straps : Station) (s : State), s.rst.hold = .running d → (straps.toNat = 0 ∨ straps.toNat = 63) →
      exec (.bypassHoldExpiry dt straps) s =
        .next
          { s with now := max (s.now + dt) d, rst := { s.rst with hold := .idle, station := straps, strapInvalid := true } }) ∧
    ∀ (dt d : Nat) (straps : Station) (s : State), s.rst.hold = .running d → s.ctl.tapState = .bypass →
      1 ≤ straps.toNat → straps.toNat ≤ 62 →
      ∃ t : State,
        exec (.bypassHoldExpiry dt straps) s = .next t ∧
          t = { s with
            now := max (s.now + dt) d
            rst := { s.rst with hold := .idle, station := straps, strapInvalid := false }
            ctl := { s.ctl with tapState := .unconfigured }
            att := { s.att with state := true }
            portW := t.portW
            portE := t.portE } ∧
          ∀ q, t.unit q =
            { s.unit q with
              monitor := .down
              cause := .none
              hold := some (max (s.now + dt) d + 1000)
              qual := none
              window := []
              inService := false })

/-! ### Local port -/

/-- R161, R163, R170: a transaction opens; a READ gives the words of the map from its address on, and one whose address lies in a receive
window is a read burst; any other command byte serves zeros and is a local port error. While the select is held, each further
word is read as it stands when it is clocked out, and the address moves on past it; a transaction that serves nothing gives
zeros. R63: the release of the select ends it; a take deferred by its read burst is performed with ready-new as it then stands. While
a POWER-ON or PIN cause lasts a transaction serves nothing, without error; that a bad command byte sets no LOCAL_ERROR then, and
the clock, the record and the words clocked out, are by the model's choice (log 1, log 15). -/
def Obligations.Transactions : Prop :=
  (∀ (dt : Nat) (a : Word) (n : Nat) (s : State), s.lsp.txn = none → s.rst.supplySettling = false → s.rst.rstLow = false →
    exec (.lspTransactionStart dt (some 0x01#8) a n) s =
        .next
          { s with
            now := s.now + dt
            lsp := { s.lsp with txn := some ⟨.read, readBurstOf a, addressAfter a n, false⟩, out := s.burstWords a n } } ∧
      exec (.lspTransactionStart dt (some 0x02#8) a n) s =
        .next { s with now := s.now + dt, lsp := { s.lsp with txn := some ⟨.write, writeBurstOf a, a, false⟩, out := [] } } ∧
      ∀ c : Byte, c ≠ 0x01#8 → c ≠ 0x02#8 →
        exec (.lspTransactionStart dt (some c) a n) s =
          .next
            { s with
              now := s.now + dt
              att := { s.att with localError := true }
              lsp := { s.lsp with txn := some ⟨.dead, none, a, false⟩, out := List.replicate n 0 } }) ∧
  (∀ (dt : Nat) (command : Byte) (a : Word) (n : Nat) (s : State), s.lsp.txn = none →
    (s.rst.supplySettling = true ∨ s.rst.rstLow = true) →
    exec (.lspTransactionStart dt (some command) a n) s =
      .next
        { s with
          now := s.now + dt
          lsp := { s.lsp with txn := some ⟨.dead, none, a, false⟩, out := List.replicate n 0 } }) ∧
  (∀ (dt n : Nat) (a : Word) (s : State),
    (∀ x, s.lsp.txn = some x →
      (x.kind = .read →
        exec (.lspTransactionStart dt none a n) s =
          .next
            { s with
              now := s.now + dt
              lsp := { s.lsp with
                txn := some { x with address := addressAfter x.address n }, out := s.lsp.out ++ s.burstWords x.address n } }) ∧
        (x.kind = .dead →
          exec (.lspTransactionStart dt none a n) s =
            .next { s with now := s.now + dt, lsp := { s.lsp with out := s.lsp.out ++ List.replicate n 0 } }) ∧
        (x.kind = .write → exec (.lspTransactionStart dt none a n) s = .next { s with now := s.now + dt })) ∧
      (s.lsp.txn = none → exec (.lspTransactionStart dt none a n) s = .next { s with now := s.now + dt })) ∧
  ((∀ (dt n : Nat) (b : Fin 8) (a : Word) (acted : Bool) (s : State), s.lsp.txn = some ⟨.read, some (.read b), a, acted⟩ →
    exec (.lspSelectRelease dt n) s =
      .next
        { s with
          now := s.now + dt
          lsp := { s.lsp with txn := none, out := s.lsp.out ++ s.burstWords a n }
          rx := upd s.rx b
            (if s.rx[b].takePending = true then RxBank.take { s.rx[b] with takePending := false } else s.rx[b]) }) ∧
    ∀ (dt n : Nat) (k : TxnKind) (a : Word) (acted : Bool) (w : Option (Fin 4)) (s : State),
      s.lsp.txn = some ⟨k, w.map Burst.write, a, acted⟩ →
      ∃ t : State, exec (.lspSelectRelease dt n) s = .next t ∧
        t = { s with now := s.now + dt, lsp := { s.lsp with txn := none, out := t.lsp.out } })

/-- R161: which words a burst takes. The address moves on by one, wraps within a receive or publish window from the bank's word 127 to
its word 0 (R63, R68), stays at the action word, and wraps from 65535 to 0. A READ whose first address lies in a receive window is
a read burst on its bank, a WRITE whose first address lies in a publish window a write burst on its; no other is a burst. -/
def Obligations.BurstsMoveThroughTheMap : Prop :=
  (∀ a : Word,
    let window : Prop := 0x1000 ≤ a.toNat ∧ a.toNat < 0x1400 ∨ 0x2000 ≤ a.toNat ∧ a.toNat < 0x2200
    (window → a.toNat % 128 = 127 → (nextAddress a).toNat = a.toNat - 127) ∧
      (a.toNat = 0x3301 → nextAddress a = a) ∧
      (¬(window ∧ a.toNat % 128 = 127) → a.toNat ≠ 0x3301 → nextAddress a = a + 1)) ∧
  (∀ (s : State) (a : Word) (n : Nat),
    addressAfter a 0 = a ∧ addressAfter a (n + 1) = addressAfter (nextAddress a) n ∧ s.burstWords a 0 = [] ∧
      s.burstWords a (n + 1) = s.lspRead a :: s.burstWords (nextAddress a) n) ∧
  (∀ (b : Fin 8) (w : Fin 128), readBurstOf (BitVec.ofNat 16 (0x1000 + 128 * b.val + w.val)) = some (.read b)) ∧
  (∀ (q : Fin 4) (w : Fin 128), writeBurstOf (BitVec.ofNat 16 (0x2000 + 128 * q.val + w.val)) = some (.write q)) ∧
  ∀ a : Word,
    ((a.toNat < 0x1000 ∨ 0x1400 ≤ a.toNat) → readBurstOf a = none) ∧
      ((a.toNat < 0x2000 ∨ 0x2200 ≤ a.toNat) → writeBurstOf a = none)

/-- What a read at each address beyond the status block returns, in every tap state (R162, 12.3): the words of FRONT (R64), HOLD
(R61), the words of DRAFT (R68), a mailbox with its flight record (R94), the oldest inbound record (R100), the oldest stamp (R157),
the census (R134), the mask, the report of the last action (R164), and 0 at any other address. By the model's reading: the order of
the two words of a 32-bit value and of an inbound record's bytes (log 35), and an absent field read as zero (log 25); by its
choice: a bit outside the fields of a word reads 0 (log 40). -/
def Obligations.WindowsShowTheState : Prop :=
  ∀ s : State,
    let word (a : Nat) : Word := s.lspRead (BitVec.ofNat 16 a)
    (∀ (b : Fin 8) (w : Fin 128), word (0x1000 + 128 * b.val + w.val) = (s.rx[b].buf s.rx[b].front)[w]) ∧
      (∀ b : Fin 8, word (0x1400 + b.val) = if s.rx[b].hold = true then 1 else 0) ∧
      (∀ (q : Fin 4) (w : Fin 128),
        word (0x2000 + 128 * q.val + w.val) = (if s.pub[q].pIsDraft = true then s.pub[q].p else s.pub[q].q)[w]) ∧
      (∀ m : Fin 8,
        let cell (i : Nat) : Word := word (0x3000 + 64 * m.val + i)
        let box := s.sched.mailboxes[m]
        let flight : Option Flight :=
          match box.state with
          | .inFlight r _ => some r
          | .done _ r => r
          | _ => none
        (∀ i : Fin 50, cell i.val = box.message[i]) ∧
          (cell 50).toNat =
            (match box.state with
              | .free => 0
              | .waiting => 1
              | .inFlight _ _ => 2
              | .done .delivered _ => 0x13
              | .done .refused _ => 0x23
              | .done .undelivered _ => 0x33
              | .done .sent _ => 0x43
              | .done .unconfirmed _ => 0x53
              | .done .abandoned _ => 0x63) ∧
          (flight = none → cell 51 = 0 ∧ cell 52 = 0 ∧ cell 53 = 0 ∧ cell 54 = 0) ∧
          ∀ r, flight = some r →
            (cell 51).toNat = 0x8000 + r.index.val ∧ cell 52 ++ cell 53 = r.cycle ∧ (cell 54).toNat = r.tag.toNat) ∧
      ((∀ i : Fin 54, s.inbound = [] → word (0x3200 + i.val) = 0) ∧
        ∀ r rest, s.inbound = r :: rest →
          word 0x3200 = BitVec.ofNat 16 (rest.length + 1) ∧
            (word 0x3201).toNat = r.source.toNat + (if r.broadcast = true then 0x8000 else 0) ∧
            (word 0x3202).toNat = r.tag.toNat ∧ (word 0x3203).toNat = r.length.toNat ∧
            word 0x3204 ++ word 0x3205 = r.arrival ∧
            ∀ k : Fin 48, word (0x3206 + k.val) = r.payload[2 * k.val] ++ r.payload[2 * k.val + 1]) ∧
      ((s.sig.stamps.length ≤ 4 →
        (word 0x3280).toNat = s.sig.stamps.length + (if s.sig.overflow = true then 0x8000 else 0)) ∧
        (∀ i : Nat, 1 ≤ i → i ≤ 4 → s.sig.stamps = [] → word (0x3280 + i) = 0) ∧
        ∀ r rest, s.sig.stamps = r :: rest →
          (word 0x3281).toNat = r.channel.val ∧ word 0x3282 ++ word 0x3283 = r.cycle ∧ word 0x3284 = r.offset) ∧
      ((word 0x0100).toNat = s.roll.anonymous.toNat + (if s.roll.censusCycle.isSome = true then 0x8000 else 0) ∧
        (s.roll.censusCycle = none → word 0x0101 = 0 ∧ word 0x0102 = 0) ∧
        ∀ c, s.roll.censusCycle = some c → word 0x0101 ++ word 0x0102 = c) ∧
      (∀ st : Fin 63,
        let cell (i : Nat) : Word := word (0x0104 + 6 * st.val + i)
        let r := s.roll.census[st]
        (cell 0).extractLsb' 0 2 = BitVec.ofNat 2 r.presence.code ∧ (cell 1).extractLsb' 0 8 = r.missing ∧
          (cell 1).extractLsb' 8 8 = r.timesLost ∧
          (r.listing = none → (cell 0).toNat < 4 ∧ cell 2 = 0 ∧ cell 3 = 0 ∧ cell 4 = 0 ∧ cell 5 = 0) ∧
          ∀ l, r.listing = some l →
            (cell 0).extractLsb' 2 2 = BitVec.ofNat 2 l.status.code ∧ (cell 0).getLsbD 4 = l.portWUp ∧
              (cell 0).getLsbD 5 = l.portEUp ∧ (cell 0).getLsbD 6 = l.wrapped ∧ (cell 0).getLsbD 7 = false ∧
              (cell 0).extractLsb' 8 8 = BitVec.ofNat 8 l.position.val ∧ cell 2 ++ cell 3 = l.firstSeen ∧
              cell 4 ++ cell 5 = l.lastSeen) ∧
      (word 0x3300).toNat = s.att.mask.toNat ∧
      (word 0x3301).toNat =
        (match s.lsp.report with
          | .none => 0
          | .accepted => 1
          | .nothingNew => 2
          | .refused => 3
          | .badOperand => 4
          | .badAction => 5) ∧
      ∀ a : Nat,
        (a = 0x0103 ∨ 0x027E ≤ a ∧ a < 0x1000 ∨ 0x1408 ≤ a ∧ a < 0x2000 ∨ 0x2200 ≤ a ∧ a < 0x3000 ∨
          0x3000 ≤ a ∧ a < 0x3200 ∧ 55 ≤ a % 64 ∨ 0x3236 ≤ a ∧ a < 0x3280 ∨ 0x3285 ≤ a ∧ a < 0x3300 ∨
          0x3302 ≤ a ∧ a < 0x10000) → word a = 0

/-- R61, R68, R94, R159, R162: what each written word does in a WRITE transaction, after which the address has moved on. A mailbox
that is not FREE, a read-only and an unmapped address ignore the word with a local port error. R68: a publish window reads the word
written to DRAFT, the other words of the window and every LIVE buffer as before. R161: in a transaction that serves nothing a word
is ignored without error. The clock, the transaction's record, and that a bank control word counts at bit 0 alone and reads 0 in
its other bits are by the model's choice (logs 1, 15, 40). -/
def Obligations.WrittenWords : Prop :=
  (∀ (dt : Nat) (x : Txn) (s : State), s.lsp.txn = some x → x.kind = .write →
    let moved (a : Word) : LocalPort := { s.lsp with txn := some { x with address := nextAddress a } }
    (∀ (p : Fin 4) (w : Fin 128) (v : Word),
      exec (.publishWindowWrite dt p w v) s =
        .next
          { s with
            now := s.now + dt
            lsp := moved (pubAddress p w)
            pub := upd s.pub p
              (if s.pub[p].pIsDraft = true then { s.pub[p] with p := upd s.pub[p].p w v }
              else { s.pub[p] with q := upd s.pub[p].q w v }) }) ∧
      (∀ (b : Fin 8) (v : Word),
        exec (.bankControlWrite dt b v) s =
          .next
            { s with
              now := s.now + dt, lsp := moved (controlAddress b),
              rx := upd s.rx b { s.rx[b] with hold := v.getLsbD 0 } }) ∧
      (∀ (m : Fin 8) (w : Fin 50) (v : Word),
        exec (.mailboxWrite dt m w v) s =
          .next
            (if s.sched.mailboxes[m].state = .free then
              { s with
                now := s.now + dt
                lsp := moved (mailboxAddress m w.val)
                sched := { s.sched with
                  mailboxes := upd s.sched.mailboxes m
                    { s.sched.mailboxes[m] with message := upd s.sched.mailboxes[m].message w v } } }
            else
              { s with
                now := s.now + dt, lsp := moved (mailboxAddress m w.val), att := { s.att with localError := true } })) ∧
      (∀ v : Word,
        exec (.attentionMaskWrite dt v) s =
          .next
            { s with now := s.now + dt, lsp := moved 0x3300#16, att := { s.att with mask := v.extractLsb' 0 11 } }) ∧
      ∀ a : Word,
        exec (.lspIgnoredWrite dt a) s =
          .next { s with now := s.now + dt, lsp := moved a, att := { s.att with localError := true } }) ∧
  (∀ (s : State) (p q : Fin 4) (w i : Fin 128) (v : Word),
    let t := s.writeDraft p w v
    t.lspRead (pubAddress q i) = (if q = p ∧ i = w then v else s.lspRead (pubAddress q i)) ∧ t.pub[q].live = s.pub[q].live) ∧
  ∀ (dt : Nat) (x : Txn) (p : Fin 4) (w : Fin 128) (b m : Fin 8) (i : Fin 50) (a v : Word) (o : BitVec 12) (code : BitVec 4)
    (s : State), s.lsp.txn = some x → x.kind ≠ .write →
    ∀ c ∈
      [Instr.publishWindowWrite dt p w v, .bankControlWrite dt b v, .mailboxWrite dt m i v, .attentionMaskWrite dt v,
        .lspIgnoredWrite dt a, .take dt o, .post dt o, .send dt o, .cancel dt o, .clear dt o, .release dt, .popStamp dt,
        .clearCauses dt o, .localRestart dt, .badAction dt code],
      exec c s = .next { s with now := s.now + dt }

/-- Every word of the status block shows present values, and the words beyond it read 0 (R163, 12.3); an absent interval,
activation record or upstream neighbour reads zero. The mask word has its upper bits 0. R158: each cause is pending by its
condition or until it is cleared, and ATTN_N is asserted while one is both pending and enabled. The order of the two words of a
32-bit value is by the model's reading (log 35), that a bit outside the fields of a word reads 0 by its choice (log 40). -/
def Obligations.StatusBlockShowsTheState : Prop :=
  ∀ s : State,
    let word (i : Nat) : Word := s.lspRead (BitVec.ofNat 16 i)
    ((word 0).extractLsb' 0 3 = BitVec.ofNat 3 s.ctl.tapState.code ∧ (word 0).getLsbD 8 = s.ctl.commandCause ∧
        (word 0).getLsbD 9 = s.ctl.pinCause ∧
        (word 1).extractLsb' 0 2 = BitVec.ofNat 2 s.wrapState.code ∧ (word 1).getLsbD 2 = s.portW.inService ∧
        (word 1).getLsbD 3 = s.portE.inService ∧ (word 1).getLsbD 4 = s.portW.returnReady ∧
        (word 1).getLsbD 5 = s.portE.returnReady ∧ (word 1).extractLsb' 8 2 = BitVec.ofNat 2 s.portW.monitor.code ∧
        (word 1).extractLsb' 10 2 = BitVec.ofNat 2 s.portE.monitor.code ∧
        (word 1).extractLsb' 12 2 = BitVec.ofNat 2 s.portW.cause.code ∧
        (word 1).extractLsb' 14 2 = BitVec.ofNat 2 s.portE.cause.code) ∧
      ((word 2).extractLsb' 0 2 = BitVec.ofNat 2 s.trk.cycleState.code ∧ (word 2).getLsbD 15 = s.trk.valid ∧
        word 3 ++ word 4 = s.trk.lastCycle ∧
        (s.trk.interval = none → word 5 = 0 ∧ word 6 = 0 ∧ word 7 = 0) ∧
        ∀ r, s.trk.interval = some r → word 5 = r.last ∧ word 6 = r.minimum ∧ word 7 = r.maximum) ∧
      ((word 8).extractLsb' 0 6 = s.rst.station ∧ (word 8).extractLsb' 8 2 = BitVec.ofNat 2 s.rst.cause.code ∧
        (word 8).getLsbD 15 = s.rst.strapInvalid ∧ word 9 = s.rst.count) ∧
      (word 10 = s.mgmt.active.id ∧ (s.mgmt.activation = none → word 11 = 0 ∧ word 12 = 0 ∧ word 13 = 0 ∧ word 14 = 0) ∧
        ∀ x, s.mgmt.activation = some x → word 11 = 0x8000#16 ∧ word 12 = x.setId ∧ word 13 ++ word 14 = x.cycle) ∧
      ((s.roll.upstream = none → word 15 = 0) ∧
        ∀ x, s.roll.upstream = some x → (word 15).extractLsb' 0 6 = x ∧ (word 15).getLsbD 15 = true) ∧
      ((∀ b : Fin 8,
        (word 16).getLsbD b.val = s.rx[b].readyNew ∧ (word 16).getLsbD (8 + b.val) = s.rx[b].hold ∧
          word (17 + 2 * b.val) ++ word (18 + 2 * b.val) = s.rx[b].frontStamp) ∧
        ∀ p : Fin 4, (word 33).getLsbD p.val = s.pub[p].posted) ∧
      (∀ m : Fin 8,
        let byte : Byte := (word (34 + m.val / 2)).extractLsb' (8 * (m.val % 2)) 8
        byte.extractLsb' 0 2 = BitVec.ofNat 2 s.sched.mailboxes[m].state.code ∧
          byte.extractLsb' 4 3 = BitVec.ofNat 3 s.sched.mailboxes[m].state.outcomeCode) ∧
      (∀ k : Fin 8, (word 38).getLsbD k.val = s.pinIsOutput k ∧ (word 38).getLsbD (8 + k.val) = s.pinLevel k) ∧
      ((word 39).getLsbD 0 = !s.inbound.isEmpty ∧
        ((word 39).getLsbD 1 = true ↔ ∃ (m : Fin 8) (o : MsgOutcome) (r : Option Flight),
          s.sched.mailboxes[m].state = .done o r) ∧
        ((word 39).getLsbD 2 = true ↔ ∃ b : Fin 8, s.rx[b].readyNew = true) ∧
        (word 39).getLsbD 3 = !s.sig.stamps.isEmpty ∧ (word 39).getLsbD 4 = s.att.stale ∧
        (word 39).getLsbD 5 = s.att.ring ∧ (word 39).getLsbD 6 = s.att.tables ∧ (word 39).getLsbD 7 = s.att.state ∧
        (word 39).getLsbD 8 = s.att.cycle ∧ (word 39).getLsbD 9 = s.att.restart ∧ (word 39).getLsbD 10 = s.att.localError) ∧
      ((∀ i : Nat, i < 11 → (word 40).getLsbD i = s.att.mask.getLsbD i) ∧
        (∀ i : Nat, 11 ≤ i → (word 40).getLsbD i = false) ∧
        (s.attnAsserted = true ↔ ∃ i : Nat, i < 11 ∧ (word 39).getLsbD i = true ∧ s.att.mask.getLsbD i = true)) ∧
      ∀ i : Fin 256, 41 ≤ i.val → word i.val = 0

/-! ### Local actions: each in a WRITE transaction that has named none -/

/-- R62, R69, R164: TAKE exchanges READY and FRONT where ready-new is set and is accepted, and finds nothing new where it is
clear; POST sets the posted flag; an operand out of range does nothing, BAD_OPERAND. R95: SEND makes a FREE mailbox WAITING where
its destination is 0 to 63 and not this tap's number, its class is USER and its length at most 96, in every tap state; otherwise
it is refused and the mailbox is unchanged. That a destination byte above 63 is refused is by the model's reading of the raw word
(log 31). R96: CANCEL takes a WAITING mailbox back to FREE with its message kept, CLEAR a DONE one; otherwise each is refused, the
mailbox unchanged and LOCAL_ERROR set. The clock and the transaction's record are by the model's choice (log 1, log 15). -/
def Obligations.BankAndMailboxActions : Prop :=
  (∀ (dt : Nat) (x : Txn) (v : BitVec 12) (s : State), s.lsp.txn = some x → x.kind = .write → x.acted = false →
    let acted (r : Report) : LocalPort := { s.lsp with txn := some { x with acted := true, address := 0x3301#16 }, report := r }
    (∀ b : Fin 8, v.toNat = b.val → s.rx[b].readyNew = true →
      exec (.take dt v) s =
        .next
          { s with
            now := s.now + dt
            lsp := acted .accepted
            rx := upd s.rx b
              { s.rx[b] with
                front := s.rx[b].ready
                ready := s.rx[b].front
                frontStamp := s.rx[b].readyStamp
                readyStamp := s.rx[b].frontStamp
                readyNew := false } }) ∧
      (∀ b : Fin 8, v.toNat = b.val → s.rx[b].readyNew = false →
        exec (.take dt v) s = .next { s with now := s.now + dt, lsp := acted .nothingNew }) ∧
      (8 ≤ v.toNat →
        exec (.take dt v) s =
          .next { s with now := s.now + dt, lsp := acted .badOperand, att := { s.att with localError := true } }) ∧
      (∀ p : Fin 4, v.toNat = p.val →
        exec (.post dt v) s =
          .next { s with now := s.now + dt, lsp := acted .accepted, pub := upd s.pub p { s.pub[p] with posted := true } }) ∧
      (4 ≤ v.toNat →
        exec (.post dt v) s =
          .next { s with now := s.now + dt, lsp := acted .badOperand, att := { s.att with localError := true } })) ∧
  ((∀ (dt : Nat) (x : Txn) (v : BitVec 12) (m : Fin 8) (s : State), s.lsp.txn = some x → x.kind = .write → x.acted = false →
    v.toNat = m.val →
    let acted (r : Report) : LocalPort := { s.lsp with txn := some { x with acted := true, address := 0x3301#16 }, report := r }
    let box := s.sched.mailboxes[m]
    let valid := box.state = .free ∧ box.dest.toNat ≤ 63 ∧ box.dest.toNat ≠ s.rst.station.toNat ∧ box.cls = 0x02#8 ∧
      box.length.toNat ≤ 96
    (valid →
      exec (.send dt v) s =
        .next
          { s with
            now := s.now + dt
            lsp := acted .accepted
            sched := { s.sched with mailboxes := upd s.sched.mailboxes m { box with state := .waiting } } }) ∧
      (¬valid →
        exec (.send dt v) s =
          .next { s with now := s.now + dt, lsp := acted .refused, att := { s.att with localError := true } })) ∧
  (∀ (dt : Nat) (x : Txn) (v : BitVec 12) (m : Fin 8) (s : State), s.lsp.txn = some x → x.kind = .write → x.acted = false →
    v.toNat = m.val →
    let acted (r : Report) : LocalPort := { s.lsp with txn := some { x with acted := true, address := 0x3301#16 }, report := r }
    let box := s.sched.mailboxes[m]
    let freed : State :=
      { s with
        now := s.now + dt
        lsp := acted .accepted
        sched := { s.sched with mailboxes := upd s.sched.mailboxes m { box with state := .free } } }
    let refused : State := { s with now := s.now + dt, lsp := acted .refused, att := { s.att with localError := true } }
    (box.state = .waiting → exec (.cancel dt v) s = .next freed) ∧
      (box.state ≠ .waiting → exec (.cancel dt v) s = .next refused) ∧
      ((∃ o f, box.state = .done o f) → exec (.clear dt v) s = .next freed) ∧
      ((∀ o f, box.state ≠ .done o f) → exec (.clear dt v) s = .next refused)))

/-- R100, R157: RELEASE removes the oldest inbound record, POP STAMP the oldest stamp with the overflow flag; each is refused on an empty
queue. R159, R164: CLEAR CAUSES clears the named sticky causes and no other; an action code that names no action reports BAD_ACTION,
and an operand that SEND, CANCEL and CLEAR do not admit BAD_OPERAND. A second action word of one transaction, whatever it names,
is a local port error and nothing else. The clock and the transaction's record are by the model's choice (log 1, log 15). -/
def Obligations.QueueAndCauseActions : Prop :=
  (∀ (dt : Nat) (x : Txn) (s : State), s.lsp.txn = some x → x.kind = .write → x.acted = false →
    let acted (r : Report) : LocalPort := { s.lsp with txn := some { x with acted := true, address := 0x3301#16 }, report := r }
    let refused : State := { s with now := s.now + dt, lsp := acted .refused, att := { s.att with localError := true } }
    (∀ r rest, s.inbound = r :: rest →
      exec (.release dt) s = .next { s with now := s.now + dt, lsp := acted .accepted, inbound := rest }) ∧
      (s.inbound = [] → exec (.release dt) s = .next refused) ∧
      (∀ r rest, s.sig.stamps = r :: rest →
        exec (.popStamp dt) s =
          .next
            { s with now := s.now + dt, lsp := acted .accepted, sig := { s.sig with stamps := rest, overflow := false } }) ∧
      (s.sig.stamps = [] → exec (.popStamp dt) s = .next refused)) ∧
  (∀ (dt : Nat) (x : Txn) (v : BitVec 12) (code : BitVec 4) (s : State), s.lsp.txn = some x → x.kind = .write →
    let acted (r : Report) : LocalPort := { s.lsp with txn := some { x with acted := true, address := 0x3301#16 }, report := r }
    (x.acted = false →
      exec (.clearCauses dt v) s =
          .next
            { s with
              now := s.now + dt
              lsp := acted .accepted
              att :=
                ⟨s.att.stale && !v.getLsbD 4, s.att.ring && !v.getLsbD 5, s.att.tables && !v.getLsbD 6,
                  s.att.state && !v.getLsbD 7, s.att.cycle && !v.getLsbD 8, s.att.restart && !v.getLsbD 9,
                  s.att.localError && !v.getLsbD 10, s.att.mask⟩ } ∧
        (code = 0 ∨ 10 ≤ code.toNat →
          exec (.badAction dt code) s =
            .next { s with now := s.now + dt, lsp := acted .badAction, att := { s.att with localError := true } }) ∧
        (8 ≤ v.toNat → ∀ c ∈ [Instr.send dt v, .cancel dt v, .clear dt v],
          exec c s = .next { s with now := s.now + dt, lsp := acted .badOperand, att := { s.att with localError := true } })) ∧
      (x.acted = true → (code = 0 ∨ 10 ≤ code.toNat) →
        ∀ c ∈
          [Instr.take dt v, .post dt v, .send dt v, .cancel dt v, .clear dt v, .release dt, .popStamp dt, .clearCauses dt v,
            .localRestart dt, .badAction dt code],
          exec c s = .next { s with now := s.now + dt, att := { s.att with localError := true } }))

/-! ### Management requests -/

/-- R110, R123, R106: IDENTIFY, READ STATUS and SEGMENT TEST RESULT answer OK with their items, a payload that is no request
BAD_COMMAND; none changes anything but the response and the cache record. R111: READ COUNTERS gives a group's counters in order,
CLEAR COUNTERS sets them to 0 and no other; a group outside the table is BAD_FIELD. That the bits outside the fields of READ
STATUS's items are 0 is by the model's choice (log 40). -/
def Obligations.ReadingAndCounterRequests : Prop :=
  (∀ (dt : Nat) (src : Station) (tag : Byte) (s : State), s.executes src tag →
    exec (.identify dt src tag) s =
        .next ((s.asked dt src).replied src tag
          ([0x01#8, 0x00#8, 0x64#8, 0x02#8, stationByte s.rst.station, natByte s.ctl.tapState.code] ++ be16 s.mgmt.active.id)
          false) ∧
      exec (.readStatus dt src tag) s =
        .next ((s.asked dt src).replied src tag
          ([0x02#8, 0x00#8] ++ ((List.range 16).map fun i => s.lspRead (BitVec.ofNat 16 i)).flatMap be16 ++
            be16 (match s.trk.lastEpoch with
              | some e => e.setWidth 16
              | none => 0x8000#16) ++
            [natByte s.sessionCode, natByte s.mgmt.responses.length,
              (match s.mgmt.pendingRestart with
                | some x => natByte x.closes
                | none => 0xFF#8),
              natByte s.mgmt.segTest.state.code])
          false) ∧
      exec (.segmentTestResult dt src tag) s =
        .next ((s.asked dt src).replied src tag
          [0x31#8, 0x00#8, natByte s.mgmt.segTest.state.code, natByte s.mgmt.segTest.port.code, s.mgmt.segTest.n,
            s.mgmt.segTest.sent, s.mgmt.segTest.good, s.mgmt.segTest.bad, s.mgmt.segTest.lost]
          false) ∧
      ∀ payload : List Byte,
        exec (.badCommand dt src tag payload) s =
          .next ((s.asked dt src).replied src tag [payload.headD 0, 0x04#8] false)) ∧
  (∀ (dt : Nat) (src : Station) (tag : Byte) (s : State), s.executes src tag →
    let counts (g : Byte) (l : List Word) : Prop :=
      exec (.readCounters dt src tag g) s =
        .next ((s.asked dt src).replied src tag ([0x03#8, 0x00#8] ++ l.flatMap be16) false)
    let clears (g : Byte) (t : State) : Prop :=
      exec (.clearCounters dt src tag g) s = .next (t.replied src tag [0x04#8, 0x00#8] false)
    let port (c : PortCounters) : List Word := [c.frames, c.lineErrors, c.passedBad, c.unknownKind, c.downs, c.echoReplies]
    counts 0x00#8 (port s.portW.counters) ∧ counts 0x01#8 (port s.portE.counters) ∧
      counts 0x02#8 [s.ctr.cyclesMissed, s.ctr.discontinuities, s.ctr.trainsDefective, s.ctr.trainsAborted] ∧
      counts 0x03#8 [s.ctr.wrapsEntered, s.ctr.overTurns, s.ctr.rollOverflows] ∧
      counts 0x04#8 [s.ctr.staleTransitions, s.ctr.fillFailures, s.ctr.publishLost] ∧
      counts 0x05#8
        [s.ctr.userFilled, s.ctr.delivered, s.ctr.refusedHere, s.ctr.orphanStripped, s.ctr.broadcastDropped,
          s.ctr.protocolErrors] ∧
      clears 0x00#8 { s.asked dt src with portW := { s.portW with counters := PortCounters.zero } } ∧
      clears 0x01#8 { s.asked dt src with portE := { s.portE with counters := PortCounters.zero } } ∧
      clears 0x02#8
        { s.asked dt src with
          ctr := { s.ctr with cyclesMissed := 0, discontinuities := 0, trainsDefective := 0, trainsAborted := 0 } } ∧
      clears 0x03#8 { s.asked dt src with ctr := { s.ctr with wrapsEntered := 0, overTurns := 0, rollOverflows := 0 } } ∧
      clears 0x04#8 { s.asked dt src with ctr := { s.ctr with staleTransitions := 0, fillFailures := 0, publishLost := 0 } } ∧
      clears 0x05#8
        { s.asked dt src with
          ctr := { s.ctr with
            userFilled := 0, delivered := 0, refusedHere := 0, orphanStripped := 0, broadcastDropped := 0,
            protocolErrors := 0 } } ∧
      ∀ g : Byte, 6 ≤ g.toNat →
        exec (.readCounters dt src tag g) s = .next ((s.asked dt src).replied src tag [0x03#8, 0x06#8] false) ∧
          exec (.clearCounters dt src tag g) s = .next ((s.asked dt src).replied src tag [0x04#8, 0x06#8] false))

/-- R112, R54: the checks of READ CENSUS and READ SUBSCRIPTION STATE in their order, and the records they give. R134: a census
record is that of the mirror with the low 16 bits of its two cycles, which are words 3 and 5 by the model's reading that the high
word stands first (log 35). A subscription's record is its index, its flags, its age and its last fresh cycle, an entry that is not
valid showing the reset values. By the model's reading: an absent item is zero (log 25); by its choice: the valid flag's byte is 1
or 0 (log 39), bits outside the fields of a byte or a word are 0 (log 40), and a first station is judged as a whole byte (log 41).
R113: READ ENTRY gives the set id and the entry of the active set, or of the staged set of any session; BAD_FIELD for another set
or table, then BAD_INDEX at the table's number of entries, then NO_SESSION without a session. -/
def Obligations.RecordRequests : Prop :=
  (∀ (dt : Nat) (src : Station) (tag first count : Byte) (s : State), s.executes src tag →
    let answer (payload : List Byte) : Result := .next ((s.asked dt src).replied src tag payload false)
    let word (a : Nat) : Word := s.lspRead (BitVec.ofNat 16 a)
    let report (e : Fin 32) : List Byte :=
      let valid := s.mgmt.active.subs[e].valid
      let r : SubRecord := if valid = true then s.subs[e] else ⟨.unseen, 0, none, false, false⟩
      let freshness : BitVec 2 :=
        match r.freshness with
        | .unseen => 0
        | .fresh => 1
        | .stale => 2
      let flags : Byte :=
        0#2 ++ BitVec.ofBool r.freshNow ++ BitVec.ofBool r.captured ++ BitVec.ofBool r.lastFresh.isSome ++ freshness ++
          BitVec.ofBool valid
      [BitVec.ofNat 8 e.val, flags, r.age] ++ be32 (r.lastFresh.getD 0)
    (62 < first.toNat → exec (.readCensus dt src tag first count) s = answer [0x05#8, 0x05#8]) ∧
      (first.toNat ≤ 62 → count.toNat = 0 ∨ 8 < count.toNat →
        exec (.readCensus dt src tag first count) s = answer [0x05#8, 0x06#8]) ∧
      (first.toNat ≤ 62 → 1 ≤ count.toNat → count.toNat ≤ 8 → 63 < first.toNat + count.toNat →
        exec (.readCensus dt src tag first count) s = answer [0x05#8, 0x05#8]) ∧
      (1 ≤ count.toNat → count.toNat ≤ 8 → first.toNat + count.toNat ≤ 63 →
        exec (.readCensus dt src tag first count) s =
          answer ([0x05#8, 0x00#8] ++ be16 (word 0x0100) ++ be16 (word 0x0101) ++ be16 (word 0x0102) ++
            (List.range count.toNat).flatMap fun i =>
              let base := 0x0104 + 6 * (first.toNat + i)
              be16 (word base) ++ be16 (word (base + 1)) ++ be16 (word (base + 3)) ++ be16 (word (base + 5)))) ∧
      (31 < first.toNat → exec (.readSubscriptionState dt src tag first count) s = answer [0x06#8, 0x05#8]) ∧
      (first.toNat ≤ 31 → count.toNat = 0 ∨ 8 < count.toNat →
        exec (.readSubscriptionState dt src tag first count) s = answer [0x06#8, 0x06#8]) ∧
      (first.toNat ≤ 31 → 1 ≤ count.toNat → count.toNat ≤ 8 → 32 < first.toNat + count.toNat →
        exec (.readSubscriptionState dt src tag first count) s = answer [0x06#8, 0x05#8]) ∧
      (1 ≤ count.toNat → count.toNat ≤ 8 → first.toNat + count.toNat ≤ 32 →
        exec (.readSubscriptionState dt src tag first count) s =
          answer ([0x06#8, 0x00#8] ++ be32 s.trk.lastCycle ++ [if s.trk.valid = true then 0x01#8 else 0x00#8] ++
            (List.range count.toNat).flatMap fun i => report (Fin.ofNat 32 (first.toNat + i))))) ∧
  (∀ (dt : Nat) (src : Station) (tag index : Byte) (tab : Table) (s : State), s.executes src tag →
    let answer (payload : List Byte) : Result := .next ((s.asked dt src).replied src tag payload false)
    (index.toNat < tab.entries →
      exec (.readEntry dt src tag 0x00#8 (natByte tab.code) index) s =
        answer ([0x07#8, 0x00#8] ++ be16 s.mgmt.active.id ++ (s.mgmt.active.entry tab index.toNat).encode.toList)) ∧
      (index.toNat < tab.entries → ∀ x, s.mgmt.session = some x →
        exec (.readEntry dt src tag 0x01#8 (natByte tab.code) index) s =
          answer ([0x07#8, 0x00#8] ++ be16 x.staged.id ++ (x.staged.entry tab index.toNat).encode.toList)) ∧
      (index.toNat < tab.entries → s.mgmt.session = none →
        exec (.readEntry dt src tag 0x01#8 (natByte tab.code) index) s = answer [0x07#8, 0x03#8]) ∧
      (tab.entries ≤ index.toNat →
        exec (.readEntry dt src tag 0x00#8 (natByte tab.code) index) s = answer [0x07#8, 0x05#8] ∧
          exec (.readEntry dt src tag 0x01#8 (natByte tab.code) index) s = answer [0x07#8, 0x05#8]) ∧
      ∀ set table : Byte, (2 ≤ set.toNat ∨ 6 ≤ table.toNat) →
        exec (.readEntry dt src tag set table index) s = answer [0x07#8, 0x06#8])

/-- The eight bytes of a table entry (12.2) and the checks of R40, R73, R105 and R115: which bytes spell an entry, what that entry
holds, and that all others spell none; a channel's operand is read where its source has one. A number byte above its field's range
is none, by the model's reading of a station byte too (log 26); that a valid byte counts at bit 0 alone is by its choice (log 40).
-/
def Obligations.EntryFields : Prop :=
  ∀ v : Vector Byte 8,
    let n (i : Fin 8) : Nat := v[i].toNat
    let spells (ok : Prop) (t : Table) (is : Entry → Prop) : Prop :=
      (ok → ∃ e, decodeEntry t v = some e ∧ is e) ∧ (¬ok → decodeEntry t v = none)
    spells
        (n 1 < 64 ∧ n 2 ≤ 3 ∧ 1 ≤ n 3 ∧ n 2 + n 3 ≤ 4 ∧ n 4 < 64 ∧ n 5 < 8 ∧ n 6 % 8 = 0 ∧ n 6 ≤ 120 ∧ n 7 ≠ 0 ∧ n 7 ≠ 255)
        .subscription
        (fun e => ∃ x : SubEntry,
          e = .sub x ∧ x.valid = v[(0 : Fin 8)].getLsbD 0 ∧ x.block.val = n 1 ∧ x.first.val = n 2 ∧ x.count.val = n 3 ∧
            x.publisher.toNat = n 4 ∧ x.bank.val = n 5 ∧ 8 * x.slot.val = n 6 ∧ x.ageLimit.toNat = n 7) ∧
      spells
        (n 1 < 64 ∧ n 2 ≤ 3 ∧ 1 ≤ n 3 ∧ n 2 + n 3 ≤ 4 ∧ n 4 < 4 ∧ n 5 % 8 = 0 ∧ n 5 ≤ 120 ∧ n 6 ≤ 1)
        .publish
        (fun e => ∃ x : PubEntry,
          e = .pub x ∧ x.valid = v[(0 : Fin 8)].getLsbD 0 ∧ x.block.val = n 1 ∧ x.first.val = n 2 ∧ x.count.val = n 3 ∧
            x.bank.val = n 4 ∧ 8 * x.slot.val = n 5 ∧ x.mode = if n 6 = 0 then .continuous else .onPost) ∧
      spells
        (n 0 < 15 ∧ (n 0 = 4 ∨ n 0 = 7 ∨ n 0 = 13 → n 1 < 8) ∧ (n 0 = 5 → n 1 < 4) ∧ (n 0 = 11 ∨ n 0 = 12 → n 1 < 32))
        .channel
        (fun e =>
          e = .channel
            (match n 0 with
              | 0 => .none
              | 1 => .cycleStart
              | 2 => .trainGood
              | 3 => .trainBad
              | 4 => .bankReady (Fin.ofNat 8 (n 1))
              | 5 => .postTaken (Fin.ofNat 4 (n 1))
              | 6 => .inboundArrival
              | 7 => .outcome (Fin.ofNat 8 (n 1))
              | 8 => .ringChange
              | 9 => .censusChange
              | 10 => .tables
              | 11 => .subStale (Fin.ofNat 32 (n 1))
              | 12 => .subFresh (Fin.ofNat 32 (n 1))
              | 13 => .triggerIn (Fin.ofNat 8 (n 1))
              | _ => .cycleSilent)) ∧
      spells (n 0 < 12 ∨ n 0 = 255) .user
        (fun e => e = .user (if n 0 = 255 then none else some (Fin.ofNat 12 (n 0)))) ∧
      spells (n 0 < 63 ∨ n 0 = 255) .manager
        (fun e => e = .manager (if n 0 = 255 then none else some (Fin.ofNat 63 (n 0)))) ∧
      spells
        (n 0 ≤ 1 ∧ 1 ≤ n 1 ∧ 1 ≤ n 2 ∧ 1 ≤ n 3 ∧ n 3 ≤ 4 ∧ n 4 ≤ 1 ∧ (n 5 < 8 ∨ n 5 = 255) ∧ 1 ≤ n 6 ∧ n 6 ≤ 15)
        .parameters
        (fun e =>
          e = .params
            ⟨if n 0 = 0 then .auto else .manual, v[(1 : Fin 8)], v[(2 : Fin 8)], v[(3 : Fin 8)],
              if n 4 = 0 then .fixed else .rotating, if n 5 = 255 then none else some (Fin.ofNat 8 (n 5)), v[(6 : Fin 8)]⟩)

/-- R114: OPEN EDIT opens a session, or restarts the requester's own OPEN one, with a copy of the active set under the new id; a
set id of 0 is BAD_FIELD, any other session BUSY. R115: STAGE ENTRY in the requester's OPEN session replaces the entry its bytes
spell, and CLEAR STAGED clears a table; a table value that is none of the six is BAD_FIELD; without such a session they answer
NO_SESSION or BUSY, and a refused one changes nothing staged. R105: what a set holds after each, with the cleared form of an
entry. That the idle timer restarts before the execution is by the model's reading (log 14). -/
def Obligations.EditRequests : Prop :=
  (∀ (dt : Nat) (src : Station) (tag : Byte) (id : Word) (s : State), s.executes src tag →
    let opened : Result :=
      .next (State.replied
        { s.asked dt src with
          mgmt := { s.mgmt with
            session := some ⟨src, .opened (s.now + dt + 2000000), { s.mgmt.active with id := id }⟩ } } src tag
        [0x10#8, 0x00#8] false)
    let busy : Result := .next ((s.asked dt src).replied src tag [0x10#8, 0x02#8] false)
    (id = 0 → exec (.openEdit dt src tag id) s = .next ((s.asked dt src).replied src tag [0x10#8, 0x06#8] false)) ∧
      (id ≠ 0 → s.mgmt.session = none → exec (.openEdit dt src tag id) s = opened) ∧
      ∀ x, id ≠ 0 → s.mgmt.session = some x →
        ((∃ d, x.state = .opened d) ∧ x.owner = src → exec (.openEdit dt src tag id) s = opened) ∧
          (((∀ d, x.state ≠ .opened d) ∨ x.owner ≠ src) → exec (.openEdit dt src tag id) s = busy)) ∧
  (∀ (dt : Nat) (src : Station) (tag index : Byte) (tab : Table) (v : Vector Byte 8) (s : State), s.executes src tag →
    let answer (payload : List Byte) : Result := .next ((s.asked dt src).replied src tag payload false)
    let staged (x : Session) (code : Byte) (set : TableSet) : Result :=
      .next (State.replied
        { s.asked dt src with
          mgmt := { s.mgmt with session := some { x with state := .opened (s.now + dt + 2000000), staged := set } } } src tag
        [code, 0x00#8] false)
    (∀ x d, s.mgmt.session = some x → x.owner = src → x.state = .opened d →
      (∀ e, index.toNat < tab.entries → decodeEntry tab v = some e →
        exec (.stageEntry dt src tag (natByte tab.code) index v) s = staged x 0x11#8 (x.staged.setEntry index.toNat e)) ∧
        (index.toNat < tab.entries → decodeEntry tab v = none →
          exec (.stageEntry dt src tag (natByte tab.code) index v) s = answer [0x11#8, 0x06#8]) ∧
        (tab.entries ≤ index.toNat →
          exec (.stageEntry dt src tag (natByte tab.code) index v) s = answer [0x11#8, 0x05#8]) ∧
        exec (.clearStaged dt src tag (natByte tab.code)) s = staged x 0x12#8 (x.staged.clearTable tab) ∧
        ∀ b : Byte, 6 ≤ b.toNat →
          exec (.stageEntry dt src tag b index v) s = answer [0x11#8, 0x06#8] ∧
            exec (.clearStaged dt src tag b) s = answer [0x12#8, 0x06#8]) ∧
      ((s.mgmt.session = none ∨ ∃ x, s.mgmt.session = some x ∧ x.owner ≠ src) →
        exec (.stageEntry dt src tag (natByte tab.code) index v) s = answer [0x11#8, 0x03#8] ∧
          exec (.clearStaged dt src tag (natByte tab.code)) s = answer [0x12#8, 0x03#8]) ∧
      ((∃ x e, s.mgmt.session = some x ∧ x.owner = src ∧ x.state = .commitPending e) →
        exec (.stageEntry dt src tag (natByte tab.code) index v) s = answer [0x11#8, 0x02#8] ∧
          exec (.clearStaged dt src tag (natByte tab.code)) s = answer [0x12#8, 0x02#8])) ∧
  ∀ (t : TableSet) (tab : Table) (j : Nat), j < tab.entries →
    (∀ (e : Entry) (i : Nat), i < e.table.entries →
      (t.setEntry i e).entry tab j = (if tab = e.table ∧ j = i then e else t.entry tab j) ∧ (t.setEntry i e).id = t.id) ∧
      (∀ other, tab ≠ other → (t.clearTable other).entry tab j = t.entry tab j) ∧ (t.clearTable tab).id = t.id ∧
      (t.clearTable tab).entry tab j =
        (match tab with
          | .subscription => .sub ⟨false, 0, 0, 1, 0, 0, 0, 1⟩
          | .publish => .pub ⟨false, 0, 0, 1, 0, 0, .continuous⟩
          | .channel => .channel .none
          | .user => .user none
          | .manager => .manager none
          | .parameters => .params ⟨.auto, 50, 8, 1, .fixed, none, 3⟩) ∧
      t.entry tab j =
        match tab with
        | .subscription => .sub t.subs[Fin.ofNat 32 j]
        | .publish => .pub t.pubs[Fin.ofNat 16 j]
        | .channel => .channel t.channels[Fin.ofNat 12 j]
        | .user => .user t.users[Fin.ofNat 21 j]
        | .manager => .manager t.managers[Fin.ofNat 4 j]
        | .parameters => .params t.params

/-- R117, R118: COMMIT of a valid staged set is SCHEDULED, for the next cycle or for an epoch that is not the last one; an epoch that
is the last is BAD_EPOCH; an invalid set is INVALID_SET with its detail, in either mode, before the epoch is looked at, and stays
OPEN; another mode is BAD_FIELD. NO_SESSION without a session of the requester's own, BUSY where it is COMMIT_PENDING. That either
mode carries both bytes is by the model's reading (log 12). -/
def Obligations.CommitRequest : Prop :=
  ∀ (dt : Nat) (src : Station) (tag mode epoch : Byte) (s : State), s.executes src tag →
    let answer (payload : List Byte) : Result := .next ((s.asked dt src).replied src tag payload false)
    (∀ (x : Session) (d : Nat), s.mgmt.session = some x → x.owner = src → x.state = .opened d →
      let pending (m : Option Byte) : Result :=
        .next (State.replied
          { s.asked dt src with mgmt := { s.mgmt with session := some { x with state := .commitPending m } } } src tag
          [0x13#8, 0x01#8] false)
      (x.staged.firstInvalid = none → exec (.commit dt src tag 0x00#8 epoch) s = pending none) ∧
        (x.staged.firstInvalid = none → s.trk.lastEpoch ≠ some epoch →
          exec (.commit dt src tag 0x01#8 epoch) s = pending (some epoch)) ∧
        (x.staged.firstInvalid = none → s.trk.lastEpoch = some epoch →
          exec (.commit dt src tag 0x01#8 epoch) s = answer [0x13#8, 0x08#8]) ∧
        (∀ bad, x.staged.firstInvalid = some bad → mode.toNat ≤ 1 →
          exec (.commit dt src tag mode epoch) s =
            answer [0x13#8, 0x07#8, natByte bad.table.code, natByte bad.index, natByte bad.reason]) ∧
        (2 ≤ mode.toNat → exec (.commit dt src tag mode epoch) s = answer [0x13#8, 0x06#8])) ∧
      ((s.mgmt.session = none ∨ ∃ x, s.mgmt.session = some x ∧ x.owner ≠ src) →
        exec (.commit dt src tag mode epoch) s = answer [0x13#8, 0x03#8]) ∧
      ((∃ x m, s.mgmt.session = some x ∧ x.owner = src ∧ x.state = .commitPending m) →
        exec (.commit dt src tag mode epoch) s = answer [0x13#8, 0x02#8])

/-- The validation of COMMIT (R41, R74, R117): what the first failure is, table by table and in rising index, an entry's fit before its
overlaps with lower entries; and that a set which fails nothing is valid. Entries are within their ranges (R40, R73). -/
def Obligations.CommitValidation : Prop :=
  ∀ t : TableSet, (∀ i : Fin 32, t.subs[i].inRange) → (∀ i : Fin 16, t.pubs[i].inRange) →
    let word (e : SubEntry) (w : Nat) : Prop := 8 * e.slot.val ≤ w ∧ w < 8 * e.slot.val + 8 * e.count.val
    let subFits (i : Fin 32) : Prop := 8 * t.subs[i].slot.val + 8 * t.subs[i].count.val ≤ 128
    let subMeets (i : Fin 32) : Prop :=
      ∃ j, j < i ∧ t.subs[j].valid = true ∧ t.subs[j].bank = t.subs[i].bank ∧ ∃ w, word t.subs[j] w ∧ word t.subs[i] w
    let subOk (i : Fin 32) : Prop := t.subs[i].valid = true → subFits i ∧ ¬subMeets i
    let segment (e : PubEntry) (x : Nat) : Prop := e.first.val ≤ x ∧ x < e.first.val + e.count.val
    let pubFits (i : Fin 16) : Prop := 8 * t.pubs[i].slot.val + 8 * t.pubs[i].count.val ≤ 128
    let pubMeets (i : Fin 16) : Prop :=
      ∃ j, j < i ∧ t.pubs[j].valid = true ∧ t.pubs[j].block = t.pubs[i].block ∧
        ∃ x, segment t.pubs[j] x ∧ segment t.pubs[i] x
    let pubOk (i : Fin 16) : Prop := t.pubs[i].valid = true → pubFits i ∧ ¬pubMeets i
    let pinOk (k : Fin 8) : Prop := t.users[trigUser k] ≠ none → ∀ c : Fin 12, t.channels[c] ≠ .triggerIn k
    let managed : Prop := ∃ m : Fin 4, t.managers[m] ≠ none
    (∀ i, (∀ j, j < i → subOk j) → t.subs[i].valid = true →
      (¬subFits i → t.firstInvalid = some ⟨.subscription, i.val, 1⟩) ∧
        (subFits i → subMeets i → t.firstInvalid = some ⟨.subscription, i.val, 2⟩)) ∧
      ((∀ i, subOk i) → ∀ i, (∀ j, j < i → pubOk j) → t.pubs[i].valid = true →
        (¬pubFits i → t.firstInvalid = some ⟨.publish, i.val, 1⟩) ∧
          (pubFits i → pubMeets i → t.firstInvalid = some ⟨.publish, i.val, 2⟩)) ∧
      ((∀ i, subOk i) → (∀ i, pubOk i) → ∀ k, (∀ j, j < k → pinOk j) → ¬pinOk k →
        t.firstInvalid = some ⟨.user, k.val, 3⟩) ∧
      ((∀ i, subOk i) → (∀ i, pubOk i) → (∀ k, pinOk k) →
        (¬managed → t.firstInvalid = some ⟨.manager, 0, 4⟩) ∧ (managed → t.firstInvalid = none))

/-- R120: ABANDON EDIT ends the requester's own session in either state, and is NO_SESSION otherwise. QUERY EDIT changes nothing
and answers OK with the session's state, owner, set id, mode and epoch, the milliseconds remaining, the active set id and the
activation record; the owner's own timer has restarted (R116; log 14). How a part of a millisecond is rounded is left open (log
13), an absent field is zero (log 25) and the high word of the activation cycle comes first (log 35) by the model's reading, and
the other bits of the word that shows an activation record present are 0 by its choice (log 40). R116: an OPEN session's idle
expiry ends it. -/
def Obligations.SessionEnds : Prop :=
  ∀ (dt : Nat) (src : Station) (tag : Byte) (s : State),
    (s.executes src tag →
      let rest : List Byte :=
        be16 s.mgmt.active.id ++
          match s.mgmt.activation with
          | some x => be16 0x8000#16 ++ be16 x.setId ++ be32 x.cycle
          | none => List.replicate 8 0
      let report (session : List Byte) : Prop :=
        exec (.queryEdit dt src tag) s =
          .next ((s.asked dt src).replied src tag ([0x15#8, 0x00#8] ++ session ++ rest) false)
      (∀ x, s.mgmt.session = some x → x.owner = src →
        exec (.abandonEdit dt src tag) s =
          .next (State.replied { s.elapse dt with mgmt := { s.mgmt with session := none } } src tag [0x14#8, 0x00#8] false)) ∧
        ((s.mgmt.session = none ∨ ∃ x, s.mgmt.session = some x ∧ x.owner ≠ src) →
          exec (.abandonEdit dt src tag) s = .next ((s.asked dt src).replied src tag [0x14#8, 0x03#8] false)) ∧
        (s.mgmt.session = none → report (List.replicate 8 0)) ∧
        (∀ x d, s.mgmt.session = some x → x.state = .opened d →
          let us := if x.owner = src then 2000000 else d - (s.now + dt)
          ∃ ms : Nat,
            us / 1000 ≤ ms ∧ ms ≤ us / 1000 + 1 ∧ (us % 1000 = 0 → ms = us / 1000) ∧
              report ([0x01#8, stationByte x.owner] ++ be16 x.staged.id ++ [0, 0] ++ be16 (BitVec.ofNat 16 ms))) ∧
        (∀ x, s.mgmt.session = some x → x.state = .commitPending none →
          report ([0x02#8, stationByte x.owner] ++ be16 x.staged.id ++ [0, 0, 0, 0])) ∧
        ∀ x e, s.mgmt.session = some x → x.state = .commitPending (some e) →
          report ([0x02#8, stationByte x.owner] ++ be16 x.staged.id ++ [1, e, 0, 0])) ∧
      ∀ x d, s.mgmt.session = some x → x.state = .opened d →
        exec (.sessionIdleExpiry dt) s =
          .next { s with now := max (s.now + dt) d, mgmt := { s.mgmt with session := none } }

/-- R36, R121: HALT and RESUME in every state that takes requests. R122: RETURN WRAP is accepted for a port whose return-ready
flag is set and refused otherwise, and reports the wrap state. R124: RESTART sets a pending restart with a close count of 0, or
answers BUSY where one is pending. -/
def Obligations.ControlRequests : Prop :=
  (∀ (dt : Nat) (src : Station) (tag : Byte) (s : State), s.executes src tag →
    let t := s.asked dt src
    (s.ctl.tapState = .unconfigured →
      exec (.halt dt src tag) s = .next (t.replied src tag [0x20#8, 0x0A#8] false) ∧
        exec (.resume dt src tag) s = .next (t.replied src tag [0x21#8, 0x0A#8] false)) ∧
      (s.ctl.tapState = .online →
        exec (.halt dt src tag) s =
            .next (State.replied
              { t with
                ctl := { s.ctl with commandCause := true, tapState := .halted }, att := { s.att with state := true } } src tag
              [0x20#8, 0x00#8, 0x03#8] false) ∧
          exec (.resume dt src tag) s =
            .next (State.replied { t with ctl := { s.ctl with commandCause := false } } src tag [0x21#8, 0x00#8, 0x02#8]
              false)) ∧
      (s.ctl.tapState = .halted →
        exec (.halt dt src tag) s =
            .next (State.replied { t with ctl := { s.ctl with commandCause := true } } src tag [0x20#8, 0x00#8, 0x03#8]
              false) ∧
          exec (.resume dt src tag) s =
            .next
              (if s.ctl.pinCause = true then
                State.replied { t with ctl := { s.ctl with commandCause := false } } src tag [0x21#8, 0x00#8, 0x03#8] false
              else
                State.replied
                  { t with
                    ctl := { s.ctl with commandCause := false, tapState := .online }, att := { s.att with state := true } }
                  src tag [0x21#8, 0x00#8, 0x02#8] false))) ∧
  ((∀ (dt : Nat) (src : Station) (tag : Byte) (p : Port) (s : State), s.executes src tag →
    ((s.unit p).returnReady = true →
      exec (.returnWrap dt src tag (natByte p.code)) s =
        .next (State.replied ((s.asked dt src).modUnit p fun u => { u with returnAccepted := true }) src tag
          [0x22#8, 0x00#8, natByte s.wrapState.code] false)) ∧
      ((s.unit p).returnReady = false →
        exec (.returnWrap dt src tag (natByte p.code)) s =
          .next ((s.asked dt src).replied src tag [0x22#8, 0x0A#8] false)) ∧
      ∀ b : Byte, 2 ≤ b.toNat →
        exec (.returnWrap dt src tag b) s = .next ((s.asked dt src).replied src tag [0x22#8, 0x06#8] false)) ∧
  (∀ (dt : Nat) (src : Station) (tag : Byte) (s : State), s.executes src tag →
    (s.mgmt.pendingRestart = none →
      exec (.restart dt src tag) s =
        .next (State.replied
          { s.asked dt src with mgmt := { (s.asked dt src).mgmt with pendingRestart := some ⟨0, none, false⟩ } } src tag
          [0x24#8, 0x00#8] true)) ∧
      (s.mgmt.pendingRestart ≠ none →
        exec (.restart dt src tag) s = .next ((s.asked dt src).replied src tag [0x24#8, 0x02#8] false))))

/-- R121, R153: PULSE drives a remote channel high for 2 µs, with a rising edge (RisingEdgeReachesItsUsers) where it was low.
R123: SEGMENT TEST START on an UP port sets the record RUNNING with its counts 0; its refusals in their order, a port that is
neither W nor E first. -/
def Obligations.PulseAndSegmentTestRequests : Prop :=
  (∀ (dt : Nat) (src : Station) (tag ch : Byte) (s : State), s.executes src tag →
    (∀ c : Fin 12, ch.toNat = c.val → s.mgmt.active.channels[c] = .none → s.sig.pulses[c] ≠ none →
      exec (.pulse dt src tag ch) s =
        .next (State.replied
          { s.asked dt src with sig := { s.sig with pulses := upd s.sig.pulses c (some (s.now + dt + 2)) } } src tag
          [0x23#8, 0x00#8] false)) ∧
      (∀ c : Fin 12, ch.toNat = c.val → s.mgmt.active.channels[c] = .none → s.sig.pulses[c] = none →
        exec (.pulse dt src tag ch) s =
          .next (State.replied
            (State.edgeOn
              { s.asked dt src with sig := { s.sig with pulses := upd s.sig.pulses c (some (s.now + dt + 2)) } } c) src tag
            [0x23#8, 0x00#8] false)) ∧
      (∀ c : Fin 12, ch.toNat = c.val → s.mgmt.active.channels[c] ≠ .none →
        exec (.pulse dt src tag ch) s = .next ((s.asked dt src).replied src tag [0x23#8, 0x06#8] false)) ∧
      (12 ≤ ch.toNat → exec (.pulse dt src tag ch) s = .next ((s.asked dt src).replied src tag [0x23#8, 0x05#8] false))) ∧
  ∀ (dt : Nat) (src : Station) (tag n : Byte) (p : Port) (s : State), s.executes src tag →
    let answer (payload : List Byte) : Result := .next ((s.asked dt src).replied src tag payload false)
    (n ≠ 0 → s.mgmt.segTest.state ≠ .running → (s.unit p).monitor = .up →
      exec (.segmentTestStart dt src tag (natByte p.code) n) s =
        .next (State.replied
          { s.asked dt src with
            mgmt := { (s.asked dt src).mgmt with segTest := ⟨.running, p, n, 0, 0, 0, 0, 0, .prepared⟩ } } src tag
          [0x30#8, 0x00#8] false)) ∧
      (n = 0 → exec (.segmentTestStart dt src tag (natByte p.code) n) s = answer [0x30#8, 0x06#8]) ∧
      (∀ b : Byte, 2 ≤ b.toNat → exec (.segmentTestStart dt src tag b n) s = answer [0x30#8, 0x06#8]) ∧
      (n ≠ 0 → s.mgmt.segTest.state = .running →
        exec (.segmentTestStart dt src tag (natByte p.code) n) s = answer [0x30#8, 0x0B#8]) ∧
      (n ≠ 0 → s.mgmt.segTest.state ≠ .running → (s.unit p).monitor ≠ .up →
        exec (.segmentTestStart dt src tag (natByte p.code) n) s = answer [0x30#8, 0x0A#8])
end

