-- ==== Sys2Proof/Laws/State.lean ====
section
/-! SUPPORT. One lemma per field per update of the state: what the update leaves in the field. -/

namespace Sys2Proof.Machine

/-! ### Time -/

@[simp] theorem State.elapse_pending (s : State) (dt : Nat) : (s.elapse dt).pending = s.pending := rfl
@[simp] theorem State.elapse_now (s : State) (dt : Nat) : (s.elapse dt).now = s.now + dt := rfl
@[simp] theorem State.elapse_sent (s : State) (dt : Nat) : (s.elapse dt).sent = s.sent := rfl
@[simp] theorem State.elapse_ctl (s : State) (dt : Nat) : (s.elapse dt).ctl = s.ctl := rfl
@[simp] theorem State.elapse_trk (s : State) (dt : Nat) : (s.elapse dt).trk = s.trk := rfl
@[simp] theorem State.elapse_mgmt (s : State) (dt : Nat) : (s.elapse dt).mgmt = s.mgmt := rfl
@[simp] theorem State.elapse_subs (s : State) (dt : Nat) : (s.elapse dt).subs = s.subs := rfl
@[simp] theorem State.elapse_rx (s : State) (dt : Nat) : (s.elapse dt).rx = s.rx := rfl
@[simp] theorem State.elapse_pub (s : State) (dt : Nat) : (s.elapse dt).pub = s.pub := rfl
@[simp] theorem State.elapse_sched (s : State) (dt : Nat) : (s.elapse dt).sched = s.sched := rfl
@[simp] theorem State.elapse_inbound (s : State) (dt : Nat) : (s.elapse dt).inbound = s.inbound := rfl
@[simp] theorem State.elapse_roll (s : State) (dt : Nat) : (s.elapse dt).roll = s.roll := rfl
@[simp] theorem State.elapse_portW (s : State) (dt : Nat) : (s.elapse dt).portW = s.portW := rfl
@[simp] theorem State.elapse_portE (s : State) (dt : Nat) : (s.elapse dt).portE = s.portE := rfl
@[simp] theorem State.elapse_sig (s : State) (dt : Nat) : (s.elapse dt).sig = s.sig := rfl
@[simp] theorem State.elapse_att (s : State) (dt : Nat) : (s.elapse dt).att = s.att := rfl
@[simp] theorem State.elapse_lsp (s : State) (dt : Nat) : (s.elapse dt).lsp = s.lsp := rfl
@[simp] theorem State.elapse_rst (s : State) (dt : Nat) : (s.elapse dt).rst = s.rst := rfl
@[simp] theorem State.elapse_ctr (s : State) (dt : Nat) : (s.elapse dt).ctr = s.ctr := rfl

/-! ### An expiry's moment -/

@[simp] theorem State.reach_pending (s : State) (t : Nat) : (s.reach t).pending = s.pending := rfl
@[simp] theorem State.reach_now (s : State) (t : Nat) : (s.reach t).now = max s.now t := rfl
@[simp] theorem State.reach_sent (s : State) (t : Nat) : (s.reach t).sent = s.sent := rfl
@[simp] theorem State.reach_ctl (s : State) (t : Nat) : (s.reach t).ctl = s.ctl := rfl
@[simp] theorem State.reach_trk (s : State) (t : Nat) : (s.reach t).trk = s.trk := rfl
@[simp] theorem State.reach_mgmt (s : State) (t : Nat) : (s.reach t).mgmt = s.mgmt := rfl
@[simp] theorem State.reach_subs (s : State) (t : Nat) : (s.reach t).subs = s.subs := rfl
@[simp] theorem State.reach_rx (s : State) (t : Nat) : (s.reach t).rx = s.rx := rfl
@[simp] theorem State.reach_pub (s : State) (t : Nat) : (s.reach t).pub = s.pub := rfl
@[simp] theorem State.reach_sched (s : State) (t : Nat) : (s.reach t).sched = s.sched := rfl
@[simp] theorem State.reach_inbound (s : State) (t : Nat) : (s.reach t).inbound = s.inbound := rfl
@[simp] theorem State.reach_roll (s : State) (t : Nat) : (s.reach t).roll = s.roll := rfl
@[simp] theorem State.reach_portW (s : State) (t : Nat) : (s.reach t).portW = s.portW := rfl
@[simp] theorem State.reach_portE (s : State) (t : Nat) : (s.reach t).portE = s.portE := rfl
@[simp] theorem State.reach_sig (s : State) (t : Nat) : (s.reach t).sig = s.sig := rfl
@[simp] theorem State.reach_att (s : State) (t : Nat) : (s.reach t).att = s.att := rfl
@[simp] theorem State.reach_lsp (s : State) (t : Nat) : (s.reach t).lsp = s.lsp := rfl
@[simp] theorem State.reach_rst (s : State) (t : Nat) : (s.reach t).rst = s.rst := rfl
@[simp] theorem State.reach_ctr (s : State) (t : Nat) : (s.reach t).ctr = s.ctr := rfl

/-! ### Tap-wide counters -/

@[simp] theorem State.count_pending (s : State) (f : TapCounters → TapCounters) : (s.count f).pending = s.pending := rfl
@[simp] theorem State.count_now (s : State) (f : TapCounters → TapCounters) : (s.count f).now = s.now := rfl
@[simp] theorem State.count_sent (s : State) (f : TapCounters → TapCounters) : (s.count f).sent = s.sent := rfl
@[simp] theorem State.count_ctl (s : State) (f : TapCounters → TapCounters) : (s.count f).ctl = s.ctl := rfl
@[simp] theorem State.count_trk (s : State) (f : TapCounters → TapCounters) : (s.count f).trk = s.trk := rfl
@[simp] theorem State.count_mgmt (s : State) (f : TapCounters → TapCounters) : (s.count f).mgmt = s.mgmt := rfl
@[simp] theorem State.count_subs (s : State) (f : TapCounters → TapCounters) : (s.count f).subs = s.subs := rfl
@[simp] theorem State.count_rx (s : State) (f : TapCounters → TapCounters) : (s.count f).rx = s.rx := rfl
@[simp] theorem State.count_pub (s : State) (f : TapCounters → TapCounters) : (s.count f).pub = s.pub := rfl
@[simp] theorem State.count_sched (s : State) (f : TapCounters → TapCounters) : (s.count f).sched = s.sched := rfl
@[simp] theorem State.count_inbound (s : State) (f : TapCounters → TapCounters) : (s.count f).inbound = s.inbound := rfl
@[simp] theorem State.count_roll (s : State) (f : TapCounters → TapCounters) : (s.count f).roll = s.roll := rfl
@[simp] theorem State.count_portW (s : State) (f : TapCounters → TapCounters) : (s.count f).portW = s.portW := rfl
@[simp] theorem State.count_portE (s : State) (f : TapCounters → TapCounters) : (s.count f).portE = s.portE := rfl
@[simp] theorem State.count_sig (s : State) (f : TapCounters → TapCounters) : (s.count f).sig = s.sig := rfl
@[simp] theorem State.count_att (s : State) (f : TapCounters → TapCounters) : (s.count f).att = s.att := rfl
@[simp] theorem State.count_lsp (s : State) (f : TapCounters → TapCounters) : (s.count f).lsp = s.lsp := rfl
@[simp] theorem State.count_rst (s : State) (f : TapCounters → TapCounters) : (s.count f).rst = s.rst := rfl
@[simp] theorem State.count_ctr (s : State) (f : TapCounters → TapCounters) : (s.count f).ctr = f s.ctr := rfl

/-! ### The line -/

@[simp] theorem State.emit_pending (s : State) (p : Port) (x : SentContent) : (s.emit p x).pending = s.pending := rfl
@[simp] theorem State.emit_now (s : State) (p : Port) (x : SentContent) : (s.emit p x).now = s.now := rfl
@[simp] theorem State.emit_sent (s : State) (p : Port) (x : SentContent) : (s.emit p x).sent = s.sent ++ [⟨p, x⟩] := rfl
@[simp] theorem State.emit_ctl (s : State) (p : Port) (x : SentContent) : (s.emit p x).ctl = s.ctl := rfl
@[simp] theorem State.emit_trk (s : State) (p : Port) (x : SentContent) : (s.emit p x).trk = s.trk := rfl
@[simp] theorem State.emit_mgmt (s : State) (p : Port) (x : SentContent) : (s.emit p x).mgmt = s.mgmt := rfl
@[simp] theorem State.emit_subs (s : State) (p : Port) (x : SentContent) : (s.emit p x).subs = s.subs := rfl
@[simp] theorem State.emit_rx (s : State) (p : Port) (x : SentContent) : (s.emit p x).rx = s.rx := rfl
@[simp] theorem State.emit_pub (s : State) (p : Port) (x : SentContent) : (s.emit p x).pub = s.pub := rfl
@[simp] theorem State.emit_sched (s : State) (p : Port) (x : SentContent) : (s.emit p x).sched = s.sched := rfl
@[simp] theorem State.emit_inbound (s : State) (p : Port) (x : SentContent) : (s.emit p x).inbound = s.inbound := rfl
@[simp] theorem State.emit_roll (s : State) (p : Port) (x : SentContent) : (s.emit p x).roll = s.roll := rfl
@[simp] theorem State.emit_portW (s : State) (p : Port) (x : SentContent) : (s.emit p x).portW = s.portW := rfl
@[simp] theorem State.emit_portE (s : State) (p : Port) (x : SentContent) : (s.emit p x).portE = s.portE := rfl
@[simp] theorem State.emit_sig (s : State) (p : Port) (x : SentContent) : (s.emit p x).sig = s.sig := rfl
@[simp] theorem State.emit_att (s : State) (p : Port) (x : SentContent) : (s.emit p x).att = s.att := rfl
@[simp] theorem State.emit_lsp (s : State) (p : Port) (x : SentContent) : (s.emit p x).lsp = s.lsp := rfl
@[simp] theorem State.emit_rst (s : State) (p : Port) (x : SentContent) : (s.emit p x).rst = s.rst := rfl
@[simp] theorem State.emit_ctr (s : State) (p : Port) (x : SentContent) : (s.emit p x).ctr = s.ctr := rfl

/-! ### The tracker -/

@[simp] theorem State.modTrk_pending (s : State) (f : Tracker → Tracker) : (s.modTrk f).pending = s.pending := rfl
@[simp] theorem State.modTrk_now (s : State) (f : Tracker → Tracker) : (s.modTrk f).now = s.now := rfl
@[simp] theorem State.modTrk_sent (s : State) (f : Tracker → Tracker) : (s.modTrk f).sent = s.sent := rfl
@[simp] theorem State.modTrk_ctl (s : State) (f : Tracker → Tracker) : (s.modTrk f).ctl = s.ctl := rfl
@[simp] theorem State.modTrk_trk (s : State) (f : Tracker → Tracker) : (s.modTrk f).trk = f s.trk := rfl
@[simp] theorem State.modTrk_mgmt (s : State) (f : Tracker → Tracker) : (s.modTrk f).mgmt = s.mgmt := rfl
@[simp] theorem State.modTrk_subs (s : State) (f : Tracker → Tracker) : (s.modTrk f).subs = s.subs := rfl
@[simp] theorem State.modTrk_rx (s : State) (f : Tracker → Tracker) : (s.modTrk f).rx = s.rx := rfl
@[simp] theorem State.modTrk_pub (s : State) (f : Tracker → Tracker) : (s.modTrk f).pub = s.pub := rfl
@[simp] theorem State.modTrk_sched (s : State) (f : Tracker → Tracker) : (s.modTrk f).sched = s.sched := rfl
@[simp] theorem State.modTrk_inbound (s : State) (f : Tracker → Tracker) : (s.modTrk f).inbound = s.inbound := rfl
@[simp] theorem State.modTrk_roll (s : State) (f : Tracker → Tracker) : (s.modTrk f).roll = s.roll := rfl
@[simp] theorem State.modTrk_portW (s : State) (f : Tracker → Tracker) : (s.modTrk f).portW = s.portW := rfl
@[simp] theorem State.modTrk_portE (s : State) (f : Tracker → Tracker) : (s.modTrk f).portE = s.portE := rfl
@[simp] theorem State.modTrk_sig (s : State) (f : Tracker → Tracker) : (s.modTrk f).sig = s.sig := rfl
@[simp] theorem State.modTrk_att (s : State) (f : Tracker → Tracker) : (s.modTrk f).att = s.att := rfl
@[simp] theorem State.modTrk_lsp (s : State) (f : Tracker → Tracker) : (s.modTrk f).lsp = s.lsp := rfl
@[simp] theorem State.modTrk_rst (s : State) (f : Tracker → Tracker) : (s.modTrk f).rst = s.rst := rfl
@[simp] theorem State.modTrk_ctr (s : State) (f : Tracker → Tracker) : (s.modTrk f).ctr = s.ctr := rfl

/-! ### The management unit -/

@[simp] theorem State.modMgmt_pending (s : State) (f : Management → Management) : (s.modMgmt f).pending = s.pending := rfl
@[simp] theorem State.modMgmt_now (s : State) (f : Management → Management) : (s.modMgmt f).now = s.now := rfl
@[simp] theorem State.modMgmt_sent (s : State) (f : Management → Management) : (s.modMgmt f).sent = s.sent := rfl
@[simp] theorem State.modMgmt_ctl (s : State) (f : Management → Management) : (s.modMgmt f).ctl = s.ctl := rfl
@[simp] theorem State.modMgmt_trk (s : State) (f : Management → Management) : (s.modMgmt f).trk = s.trk := rfl
@[simp] theorem State.modMgmt_mgmt (s : State) (f : Management → Management) : (s.modMgmt f).mgmt = f s.mgmt := rfl
@[simp] theorem State.modMgmt_subs (s : State) (f : Management → Management) : (s.modMgmt f).subs = s.subs := rfl
@[simp] theorem State.modMgmt_rx (s : State) (f : Management → Management) : (s.modMgmt f).rx = s.rx := rfl
@[simp] theorem State.modMgmt_pub (s : State) (f : Management → Management) : (s.modMgmt f).pub = s.pub := rfl
@[simp] theorem State.modMgmt_sched (s : State) (f : Management → Management) : (s.modMgmt f).sched = s.sched := rfl
@[simp] theorem State.modMgmt_inbound (s : State) (f : Management → Management) : (s.modMgmt f).inbound = s.inbound := rfl
@[simp] theorem State.modMgmt_roll (s : State) (f : Management → Management) : (s.modMgmt f).roll = s.roll := rfl
@[simp] theorem State.modMgmt_portW (s : State) (f : Management → Management) : (s.modMgmt f).portW = s.portW := rfl
@[simp] theorem State.modMgmt_portE (s : State) (f : Management → Management) : (s.modMgmt f).portE = s.portE := rfl
@[simp] theorem State.modMgmt_sig (s : State) (f : Management → Management) : (s.modMgmt f).sig = s.sig := rfl
@[simp] theorem State.modMgmt_att (s : State) (f : Management → Management) : (s.modMgmt f).att = s.att := rfl
@[simp] theorem State.modMgmt_lsp (s : State) (f : Management → Management) : (s.modMgmt f).lsp = s.lsp := rfl
@[simp] theorem State.modMgmt_rst (s : State) (f : Management → Management) : (s.modMgmt f).rst = s.rst := rfl
@[simp] theorem State.modMgmt_ctr (s : State) (f : Management → Management) : (s.modMgmt f).ctr = s.ctr := rfl

/-! ### Attention -/

@[simp] theorem State.setSticky_pending (s : State) (c : Sticky) : (s.setSticky c).pending = s.pending := rfl
@[simp] theorem State.setSticky_now (s : State) (c : Sticky) : (s.setSticky c).now = s.now := rfl
@[simp] theorem State.setSticky_sent (s : State) (c : Sticky) : (s.setSticky c).sent = s.sent := rfl
@[simp] theorem State.setSticky_ctl (s : State) (c : Sticky) : (s.setSticky c).ctl = s.ctl := rfl
@[simp] theorem State.setSticky_trk (s : State) (c : Sticky) : (s.setSticky c).trk = s.trk := rfl
@[simp] theorem State.setSticky_mgmt (s : State) (c : Sticky) : (s.setSticky c).mgmt = s.mgmt := rfl
@[simp] theorem State.setSticky_subs (s : State) (c : Sticky) : (s.setSticky c).subs = s.subs := rfl
@[simp] theorem State.setSticky_rx (s : State) (c : Sticky) : (s.setSticky c).rx = s.rx := rfl
@[simp] theorem State.setSticky_pub (s : State) (c : Sticky) : (s.setSticky c).pub = s.pub := rfl
@[simp] theorem State.setSticky_sched (s : State) (c : Sticky) : (s.setSticky c).sched = s.sched := rfl
@[simp] theorem State.setSticky_inbound (s : State) (c : Sticky) : (s.setSticky c).inbound = s.inbound := rfl
@[simp] theorem State.setSticky_roll (s : State) (c : Sticky) : (s.setSticky c).roll = s.roll := rfl
@[simp] theorem State.setSticky_portW (s : State) (c : Sticky) : (s.setSticky c).portW = s.portW := rfl
@[simp] theorem State.setSticky_portE (s : State) (c : Sticky) : (s.setSticky c).portE = s.portE := rfl
@[simp] theorem State.setSticky_sig (s : State) (c : Sticky) : (s.setSticky c).sig = s.sig := rfl
@[simp] theorem State.setSticky_att (s : State) (c : Sticky) : (s.setSticky c).att = s.att.setSticky c := rfl
@[simp] theorem State.setSticky_lsp (s : State) (c : Sticky) : (s.setSticky c).lsp = s.lsp := rfl
@[simp] theorem State.setSticky_rst (s : State) (c : Sticky) : (s.setSticky c).rst = s.rst := rfl
@[simp] theorem State.setSticky_ctr (s : State) (c : Sticky) : (s.setSticky c).ctr = s.ctr := rfl

/-! ### A mailbox's state -/

@[simp] theorem State.setMailbox_pending (s : State) (m : Fin 8) (x : MailboxState) :
    (s.setMailbox m x).pending = s.pending := rfl
@[simp] theorem State.setMailbox_now (s : State) (m : Fin 8) (x : MailboxState) : (s.setMailbox m x).now = s.now := rfl
@[simp] theorem State.setMailbox_sent (s : State) (m : Fin 8) (x : MailboxState) : (s.setMailbox m x).sent = s.sent := rfl
@[simp] theorem State.setMailbox_ctl (s : State) (m : Fin 8) (x : MailboxState) : (s.setMailbox m x).ctl = s.ctl := rfl
@[simp] theorem State.setMailbox_trk (s : State) (m : Fin 8) (x : MailboxState) : (s.setMailbox m x).trk = s.trk := rfl
@[simp] theorem State.setMailbox_mgmt (s : State) (m : Fin 8) (x : MailboxState) : (s.setMailbox m x).mgmt = s.mgmt := rfl
@[simp] theorem State.setMailbox_subs (s : State) (m : Fin 8) (x : MailboxState) : (s.setMailbox m x).subs = s.subs := rfl
@[simp] theorem State.setMailbox_rx (s : State) (m : Fin 8) (x : MailboxState) : (s.setMailbox m x).rx = s.rx := rfl
@[simp] theorem State.setMailbox_pub (s : State) (m : Fin 8) (x : MailboxState) : (s.setMailbox m x).pub = s.pub := rfl
@[simp] theorem State.setMailbox_sched (s : State) (m : Fin 8) (x : MailboxState) :
    (s.setMailbox m x).sched = { s.sched with
      mailboxes := upd s.sched.mailboxes m { s.sched.mailboxes[m] with state := x } } := rfl
@[simp] theorem State.setMailbox_inbound (s : State) (m : Fin 8) (x : MailboxState) :
    (s.setMailbox m x).inbound = s.inbound := rfl
@[simp] theorem State.setMailbox_roll (s : State) (m : Fin 8) (x : MailboxState) : (s.setMailbox m x).roll = s.roll := rfl
@[simp] theorem State.setMailbox_portW (s : State) (m : Fin 8) (x : MailboxState) : (s.setMailbox m x).portW = s.portW := rfl
@[simp] theorem State.setMailbox_portE (s : State) (m : Fin 8) (x : MailboxState) : (s.setMailbox m x).portE = s.portE := rfl
@[simp] theorem State.setMailbox_sig (s : State) (m : Fin 8) (x : MailboxState) : (s.setMailbox m x).sig = s.sig := rfl
@[simp] theorem State.setMailbox_att (s : State) (m : Fin 8) (x : MailboxState) : (s.setMailbox m x).att = s.att := rfl
@[simp] theorem State.setMailbox_lsp (s : State) (m : Fin 8) (x : MailboxState) : (s.setMailbox m x).lsp = s.lsp := rfl
@[simp] theorem State.setMailbox_rst (s : State) (m : Fin 8) (x : MailboxState) : (s.setMailbox m x).rst = s.rst := rfl
@[simp] theorem State.setMailbox_ctr (s : State) (m : Fin 8) (x : MailboxState) : (s.setMailbox m x).ctr = s.ctr := rfl

/-! ### A port unit -/

@[simp] theorem State.setUnit_pending (s : State) (p : Port) (u : PortUnit) :
    (s.setUnit p u).pending = s.pending := by cases p <;> rfl
@[simp] theorem State.setUnit_now (s : State) (p : Port) (u : PortUnit) : (s.setUnit p u).now = s.now := by cases p <;> rfl
@[simp] theorem State.setUnit_sent (s : State) (p : Port) (u : PortUnit) : (s.setUnit p u).sent = s.sent := by cases p <;> rfl
@[simp] theorem State.setUnit_ctl (s : State) (p : Port) (u : PortUnit) : (s.setUnit p u).ctl = s.ctl := by cases p <;> rfl
@[simp] theorem State.setUnit_trk (s : State) (p : Port) (u : PortUnit) : (s.setUnit p u).trk = s.trk := by cases p <;> rfl
@[simp] theorem State.setUnit_mgmt (s : State) (p : Port) (u : PortUnit) : (s.setUnit p u).mgmt = s.mgmt := by cases p <;> rfl
@[simp] theorem State.setUnit_subs (s : State) (p : Port) (u : PortUnit) : (s.setUnit p u).subs = s.subs := by cases p <;> rfl
@[simp] theorem State.setUnit_rx (s : State) (p : Port) (u : PortUnit) : (s.setUnit p u).rx = s.rx := by cases p <;> rfl
@[simp] theorem State.setUnit_pub (s : State) (p : Port) (u : PortUnit) : (s.setUnit p u).pub = s.pub := by cases p <;> rfl
@[simp] theorem State.setUnit_sched (s : State) (p : Port) (u : PortUnit) :
    (s.setUnit p u).sched = s.sched := by cases p <;> rfl
@[simp] theorem State.setUnit_inbound (s : State) (p : Port) (u : PortUnit) :
    (s.setUnit p u).inbound = s.inbound := by cases p <;> rfl
@[simp] theorem State.setUnit_roll (s : State) (p : Port) (u : PortUnit) : (s.setUnit p u).roll = s.roll := by cases p <;> rfl
@[simp] theorem State.setUnit_portW (s : State) (p : Port) (u : PortUnit) :
    (s.setUnit p u).portW = (if p = .w then u else s.portW) := by cases p <;> rfl
@[simp] theorem State.setUnit_portE (s : State) (p : Port) (u : PortUnit) :
    (s.setUnit p u).portE = (if p = .e then u else s.portE) := by cases p <;> rfl
@[simp] theorem State.setUnit_sig (s : State) (p : Port) (u : PortUnit) : (s.setUnit p u).sig = s.sig := by cases p <;> rfl
@[simp] theorem State.setUnit_att (s : State) (p : Port) (u : PortUnit) : (s.setUnit p u).att = s.att := by cases p <;> rfl
@[simp] theorem State.setUnit_lsp (s : State) (p : Port) (u : PortUnit) : (s.setUnit p u).lsp = s.lsp := by cases p <;> rfl
@[simp] theorem State.setUnit_rst (s : State) (p : Port) (u : PortUnit) : (s.setUnit p u).rst = s.rst := by cases p <;> rfl
@[simp] theorem State.setUnit_ctr (s : State) (p : Port) (u : PortUnit) : (s.setUnit p u).ctr = s.ctr := by cases p <;> rfl

/-! ### A port unit, changed -/

@[simp] theorem State.modUnit_pending (s : State) (p : Port) (f : PortUnit → PortUnit) :
    (s.modUnit p f).pending = s.pending := by cases p <;> rfl
@[simp] theorem State.modUnit_now (s : State) (p : Port) (f : PortUnit → PortUnit) :
    (s.modUnit p f).now = s.now := by cases p <;> rfl
@[simp] theorem State.modUnit_sent (s : State) (p : Port) (f : PortUnit → PortUnit) :
    (s.modUnit p f).sent = s.sent := by cases p <;> rfl
@[simp] theorem State.modUnit_ctl (s : State) (p : Port) (f : PortUnit → PortUnit) :
    (s.modUnit p f).ctl = s.ctl := by cases p <;> rfl
@[simp] theorem State.modUnit_trk (s : State) (p : Port) (f : PortUnit → PortUnit) :
    (s.modUnit p f).trk = s.trk := by cases p <;> rfl
@[simp] theorem State.modUnit_mgmt (s : State) (p : Port) (f : PortUnit → PortUnit) :
    (s.modUnit p f).mgmt = s.mgmt := by cases p <;> rfl
@[simp] theorem State.modUnit_subs (s : State) (p : Port) (f : PortUnit → PortUnit) :
    (s.modUnit p f).subs = s.subs := by cases p <;> rfl
@[simp] theorem State.modUnit_rx (s : State) (p : Port) (f : PortUnit → PortUnit) :
    (s.modUnit p f).rx = s.rx := by cases p <;> rfl
@[simp] theorem State.modUnit_pub (s : State) (p : Port) (f : PortUnit → PortUnit) :
    (s.modUnit p f).pub = s.pub := by cases p <;> rfl
@[simp] theorem State.modUnit_sched (s : State) (p : Port) (f : PortUnit → PortUnit) :
    (s.modUnit p f).sched = s.sched := by cases p <;> rfl
@[simp] theorem State.modUnit_inbound (s : State) (p : Port) (f : PortUnit → PortUnit) :
    (s.modUnit p f).inbound = s.inbound := by cases p <;> rfl
@[simp] theorem State.modUnit_roll (s : State) (p : Port) (f : PortUnit → PortUnit) :
    (s.modUnit p f).roll = s.roll := by cases p <;> rfl
@[simp] theorem State.modUnit_portW (s : State) (p : Port) (f : PortUnit → PortUnit) :
    (s.modUnit p f).portW = (if p = .w then f s.portW else s.portW) := by cases p <;> rfl
@[simp] theorem State.modUnit_portE (s : State) (p : Port) (f : PortUnit → PortUnit) :
    (s.modUnit p f).portE = (if p = .e then f s.portE else s.portE) := by cases p <;> rfl
@[simp] theorem State.modUnit_sig (s : State) (p : Port) (f : PortUnit → PortUnit) :
    (s.modUnit p f).sig = s.sig := by cases p <;> rfl
@[simp] theorem State.modUnit_att (s : State) (p : Port) (f : PortUnit → PortUnit) :
    (s.modUnit p f).att = s.att := by cases p <;> rfl
@[simp] theorem State.modUnit_lsp (s : State) (p : Port) (f : PortUnit → PortUnit) :
    (s.modUnit p f).lsp = s.lsp := by cases p <;> rfl
@[simp] theorem State.modUnit_rst (s : State) (p : Port) (f : PortUnit → PortUnit) :
    (s.modUnit p f).rst = s.rst := by cases p <;> rfl
@[simp] theorem State.modUnit_ctr (s : State) (p : Port) (f : PortUnit → PortUnit) :
    (s.modUnit p f).ctr = s.ctr := by cases p <;> rfl

/-! ### The tap state -/

@[simp] theorem State.setTapState_pending (s : State) (t : TapState) :
    (s.setTapState t).pending = s.pending := by
  unfold State.setTapState; split <;> rfl
@[simp] theorem State.setTapState_now (s : State) (t : TapState) :
    (s.setTapState t).now = s.now := by
  unfold State.setTapState; split <;> rfl
@[simp] theorem State.setTapState_sent (s : State) (t : TapState) :
    (s.setTapState t).sent = s.sent := by
  unfold State.setTapState; split <;> rfl
@[simp] theorem State.setTapState_ctl (s : State) (t : TapState) :
    (s.setTapState t).ctl = { s.ctl with tapState := t } := by
  unfold State.setTapState; split
  · rename_i h; subst h; simp
  · simp
@[simp] theorem State.setTapState_trk (s : State) (t : TapState) :
    (s.setTapState t).trk = s.trk := by
  unfold State.setTapState; split <;> rfl
@[simp] theorem State.setTapState_mgmt (s : State) (t : TapState) :
    (s.setTapState t).mgmt = s.mgmt := by
  unfold State.setTapState; split <;> rfl
@[simp] theorem State.setTapState_subs (s : State) (t : TapState) :
    (s.setTapState t).subs = s.subs := by
  unfold State.setTapState; split <;> rfl
@[simp] theorem State.setTapState_rx (s : State) (t : TapState) :
    (s.setTapState t).rx = s.rx := by
  unfold State.setTapState; split <;> rfl
@[simp] theorem State.setTapState_pub (s : State) (t : TapState) :
    (s.setTapState t).pub = s.pub := by
  unfold State.setTapState; split <;> rfl
@[simp] theorem State.setTapState_sched (s : State) (t : TapState) :
    (s.setTapState t).sched = s.sched := by
  unfold State.setTapState; split <;> rfl
@[simp] theorem State.setTapState_inbound (s : State) (t : TapState) :
    (s.setTapState t).inbound = s.inbound := by
  unfold State.setTapState; split <;> rfl
@[simp] theorem State.setTapState_roll (s : State) (t : TapState) :
    (s.setTapState t).roll = s.roll := by
  unfold State.setTapState; split <;> rfl
@[simp] theorem State.setTapState_portW (s : State) (t : TapState) :
    (s.setTapState t).portW = s.portW := by
  unfold State.setTapState; split <;> rfl
@[simp] theorem State.setTapState_portE (s : State) (t : TapState) :
    (s.setTapState t).portE = s.portE := by
  unfold State.setTapState; split <;> rfl
@[simp] theorem State.setTapState_sig (s : State) (t : TapState) :
    (s.setTapState t).sig = s.sig := by
  unfold State.setTapState; split <;> rfl
@[simp] theorem State.setTapState_att (s : State) (t : TapState) :
    (s.setTapState t).att = (if s.ctl.tapState = t then s.att else s.att.setSticky .state) := by
  unfold State.setTapState; split
  · rename_i h; subst h; simp
  · simp
@[simp] theorem State.setTapState_lsp (s : State) (t : TapState) :
    (s.setTapState t).lsp = s.lsp := by
  unfold State.setTapState; split <;> rfl
@[simp] theorem State.setTapState_rst (s : State) (t : TapState) :
    (s.setTapState t).rst = s.rst := by
  unfold State.setTapState; split <;> rfl
@[simp] theorem State.setTapState_ctr (s : State) (t : TapState) :
    (s.setTapState t).ctr = s.ctr := by
  unfold State.setTapState; split <;> rfl

end Sys2Proof.Machine
end

