-- ==== Sys2Proof/Laws/Ops.lean ====
section
/-! SUPPORT. The shared operations: places of a vector, port units, bank buffers and roles, the error window, saturating
counters, frame checks. -/

namespace Sys2Proof.Machine

/-! ### Vectors: what was written is read, every other place is as before -/

theorem upd_getElem {α : Type} {n : Nat} (v : Vector α n) (i : Fin n) (x : α) (j : Nat) (h : j < n) :
    (upd v i x)[j] = if j = i.val then x else v[j] := by
  simp only [upd, Vector.getElem_set, eq_comm]

theorem upd_get {α : Type} {n : Nat} (v : Vector α n) (i j : Fin n) (x : α) : (upd v i x)[j] = if j = i then x else v[j] := by
  simp only [Fin.getElem_fin, upd_getElem, Fin.ext_iff]

@[simp] theorem upd_getElem_self {α : Type} {n : Nat} (v : Vector α n) (i : Fin n) (x : α) : (upd v i x)[i.val] = x := by
  simp [upd_getElem]

theorem upd_get_ne {α : Type} {n : Nat} (v : Vector α n) (i j : Fin n) (x : α) (h : j ≠ i) : (upd v i x)[j] = v[j] := by
  rw [upd_get, if_neg h]

theorem ofFn_get {α : Type} {n : Nat} (f : Fin n → α) (i : Fin n) : (Vector.ofFn f)[i] = f i := by simp

/-! ### Port units -/

@[simp] theorem State.unit_setUnit (s : State) (p : Port) (u : PortUnit) : (s.setUnit p u).unit p = u := by cases p <;> rfl

@[simp] theorem State.unit_setUnit_other (s : State) (p : Port) (u : PortUnit) :
    (s.setUnit p u).unit p.other = s.unit p.other := by cases p <;> rfl

theorem State.unit_setUnit_ne (s : State) (p q : Port) (u : PortUnit) (h : q ≠ p) : (s.setUnit p u).unit q = s.unit q := by
  cases p <;> cases q <;> first | rfl | exact absurd rfl h

@[simp] theorem State.unit_modUnit (s : State) (p : Port) (f : PortUnit → PortUnit) : (s.modUnit p f).unit p = f (s.unit p) :=
  State.unit_setUnit s p _

@[simp] theorem State.unit_modUnit_other (s : State) (p : Port) (f : PortUnit → PortUnit) :
    (s.modUnit p f).unit p.other = s.unit p.other := State.unit_setUnit_other s p _

theorem State.modUnit_modUnit (s : State) (p : Port) (f g : PortUnit → PortUnit) :
    (s.modUnit p f).modUnit p g = s.modUnit p fun u => g (f u) := by cases p <;> rfl

theorem State.modUnit_id (s : State) (p : Port) : (s.modUnit p fun u => u) = s := by cases p <;> rfl

@[simp] theorem Port.other_other (p : Port) : p.other.other = p := by cases p <;> rfl

@[simp] theorem Port.other_ne (p : Port) : p.other ≠ p := by cases p <;> decide

/-- The wrap state is THROUGH exactly while both ports are in service (R139). -/
theorem State.wrapState_through (s : State) : s.wrapState = .through ↔ s.portW.inService = true ∧ s.portE.inService = true := by
  unfold State.wrapState wrapOf
  cases s.portW.inService <;> cases s.portE.inService <;> simp

/-- A port that is not in service sends nothing of what it receives (R2). -/
theorem State.route_outOfService (s : State) (p : Port) (h : (s.unit p).inService = false) : s.route p ≠ some p := by
  cases p <;> cases hw : s.portW.inService <;> cases he : s.portE.inService <;>
    simp_all [State.unit, State.route, State.wrapState, wrapOf]

/-! ### Saturating counters -/

theorem satInc_toNat {n : Nat} (x : BitVec n) : (satInc x).toNat = min (2 ^ n - 1) (x.toNat + 1) := by
  unfold satInc
  have hx := x.isLt
  split
  · rename_i h
    subst h
    simp
  · rename_i h
    have : x.toNat ≠ 2 ^ n - 1 := fun e => h (BitVec.eq_of_toNat_eq (by simp [e]))
    have h1 : x.toNat + 1 < 2 ^ n := by omega
    rcases n with _ | n
    · simp at hx h1
    · have one : (1 : BitVec (n + 1)).toNat = 1 := by simp
      rw [BitVec.toNat_add, one, Nat.mod_eq_of_lt h1]
      omega

/-! ### Receive banks -/

/-- Each of the operations on a bank keeps the three roles on three buffers (R58). -/
theorem RxBank.rolesDistinct_iff (b : RxBank) :
    b.rolesDistinct = true ↔ b.front ≠ b.ready ∧ b.front ≠ b.fill ∧ b.ready ≠ b.fill := by
  simp [RxBank.rolesDistinct, and_assoc]

theorem RxBank.take_roles (b : RxBank) (h : b.rolesDistinct = true) : b.take.rolesDistinct = true := by
  rw [rolesDistinct_iff] at *
  unfold RxBank.take
  split
  · exact ⟨h.1.symm, h.2.2, h.2.1⟩
  · exact h

theorem RxBank.requestTake_roles (b : RxBank) (burst : Bool) (h : b.rolesDistinct = true) :
    (b.requestTake burst).rolesDistinct = true := by
  unfold RxBank.requestTake
  split
  · exact h
  · exact RxBank.take_roles b h

theorem RxBank.endBurst_roles (b : RxBank) (h : b.rolesDistinct = true) : b.endBurst.rolesDistinct = true := by
  unfold RxBank.endBurst
  split
  · exact RxBank.take_roles _ h
  · exact h

theorem RxBank.setBuf_roles (b : RxBank) (n : BufName) (v : Buffer) (h : b.rolesDistinct = true) :
    (b.setBuf n v).rolesDistinct = true := by
  cases n <;> exact h

theorem RxBank.startFill_roles (b : RxBank) (h : b.rolesDistinct = true) : b.startFill.rolesDistinct = true :=
  RxBank.setBuf_roles b _ _ h

theorem RxBank.complete_roles (b : RxBank) (c : Cycle) (h : b.rolesDistinct = true) : (b.complete c).rolesDistinct = true := by
  rw [rolesDistinct_iff] at *
  exact ⟨h.2.1, h.1, h.2.2.symm⟩

theorem RxBank.clear_roles (b : RxBank) : b.clear.rolesDistinct = true := by
  rw [rolesDistinct_iff]
  refine ⟨?_, ?_, ?_⟩ <;> intro h <;> cases h

@[simp] theorem RxBank.buf_setBuf (b : RxBank) (n : BufName) (v : Buffer) : (b.setBuf n v).buf n = v := by cases n <;> rfl

theorem RxBank.buf_setBuf_ne (b : RxBank) (n m : BufName) (v : Buffer) (h : m ≠ n) : (b.setBuf n v).buf m = b.buf m := by
  cases n <;> cases m <;> first | rfl | exact absurd rfl h

/-- A range written into a buffer, word by word. -/
theorem Buffer.writeRange_get (v : Buffer) (off n : Nat) (src : Nat → Word) (i : Fin 128) :
    (Buffer.writeRange v off n src)[i] = if off ≤ i.val ∧ i.val < off + n then src (i.val - off) else v[i] := by
  simp [Buffer.writeRange]

/-- A read burst does not move what the local equipment reads: a take during one is deferred (R63, R65). -/
theorem RxBank.requestTake_burst (b : RxBank) : (b.requestTake true).frontBuf = b.frontBuf := rfl

/-! ### Publish banks -/

theorem PubBank.setDraft_draft (b : PubBank) (v : Buffer) : (b.setDraft v).draft = v := by
  unfold PubBank.setDraft PubBank.draft; cases b.pIsDraft <;> simp_all

theorem PubBank.setDraft_live (b : PubBank) (v : Buffer) : (b.setDraft v).live = b.live := by
  unfold PubBank.setDraft PubBank.live; cases b.pIsDraft <;> simp_all

/-- After a swap DRAFT and LIVE hold what DRAFT held (R70). -/
theorem PubBank.swap_bufs (b : PubBank) : b.swap.draft = b.draft ∧ b.swap.live = b.draft := by
  unfold PubBank.swap PubBank.draft PubBank.live; cases b.pIsDraft <;> simp

/-! ### The frame check -/

theorem complement_ne (c : Fcs) : ~~~c ≠ c := by
  intro h
  have := congrArg (fun x : Fcs => x.getLsbD 0) h
  simp at this

@[simp] theorem outcome_good (f : Frame) : f.outcome (some f.check) = .good := by simp [Frame.outcome]

@[simp] theorem outcome_stomped (f : Frame) : f.outcome (some (~~~f.check)) = .stomped := by
  simp [Frame.outcome]

@[simp] theorem outcome_cut (f : Frame) : f.outcome none = .bad := rfl

end Sys2Proof.Machine
end

