-- ==== Sys2Proof/Laws/Capture.lean ====
section
/-! SUPPORT. What capturing a block does to the receive banks: each word of a FILL buffer is that of an entry whose range holds it,
or is left. -/

namespace Sys2Proof.Machine

/-- The entry takes part in the block and its range in bank `b` holds word `i` (R43, R44). -/
def State.capturesWord (s : State) (f : BlockFrame) (e : Fin 32) (b : Fin 8) (i : Fin 128) : Prop :=
  s.subscribes e f = true ∧ s.mgmt.active.subs[e].bank = b ∧ s.mgmt.active.subs[e].offset ≤ i.val ∧
    i.val < s.mgmt.active.subs[e].offset + 8 * s.mgmt.active.subs[e].count.val

/-- The word of the block that an entry's range puts at word `i` (R44). -/
def State.capturedWord (s : State) (f : BlockFrame) (e : Fin 32) (i : Fin 128) : Word :=
  f.word (8 * s.mgmt.active.subs[e].first.val + (i.val - s.mgmt.active.subs[e].offset))

/-- One entry's capture: the tables and every other bank are as before. -/
theorem State.captureEntry_other (f : BlockFrame) (s : State) (e : Fin 32) (b : Fin 8) (h : s.mgmt.active.subs[e].bank ≠ b) :
    (State.captureEntry f s e).rx[b] = s.rx[b] := by
  unfold State.captureEntry
  split
  · exact upd_get_ne _ _ _ _ fun hb => h hb.symm
  · rfl

/-- One entry's capture: a bank keeps all but its FILL buffer, whose words change as the entry's range says (R44). -/
theorem State.captureEntry_bank (f : BlockFrame) (s : State) (e : Fin 32) (b : Fin 8) :
    let t := State.captureEntry f s e
    t.rx[b] = { s.rx[b] with x := t.rx[b].x, y := t.rx[b].y, z := t.rx[b].z } ∧
      (∀ n, n ≠ s.rx[b].fill → t.rx[b].buf n = s.rx[b].buf n) ∧
      ∀ i : Fin 128,
        (s.capturesWord f e b i → (t.rx[b].buf s.rx[b].fill)[i] = s.capturedWord f e i) ∧
          (¬s.capturesWord f e b i → (t.rx[b].buf s.rx[b].fill)[i] = (s.rx[b].buf s.rx[b].fill)[i]) := by
  by_cases hb : s.mgmt.active.subs[e].bank = b
  · subst hb
    unfold State.captureEntry
    split
    · rename_i hs
      dsimp only
      rw [show (upd s.rx s.mgmt.active.subs[e].bank _)[s.mgmt.active.subs[e].bank] = _ from upd_get _ _ _ _, if_pos rfl]
      generalize s.rx[s.mgmt.active.subs[e].bank] = k
      refine ⟨by cases h : k.fill <;> simp [RxBank.setBuf, h], fun n hn => RxBank.buf_setBuf_ne _ _ _ _ hn, fun i => ?_⟩
      have hw : (k.setBuf k.fill (Buffer.writeRange (k.buf k.fill) s.mgmt.active.subs[e].offset
          (8 * s.mgmt.active.subs[e].count.val) fun i => f.word (8 * s.mgmt.active.subs[e].first.val + i))).buf k.fill =
          Buffer.writeRange (k.buf k.fill) s.mgmt.active.subs[e].offset (8 * s.mgmt.active.subs[e].count.val)
            fun i => f.word (8 * s.mgmt.active.subs[e].first.val + i) := by
        cases k.fill <;> rfl
      rw [hw, Buffer.writeRange_get]
      constructor
      · rintro ⟨_, _, h1, h2⟩
        rw [if_pos ⟨h1, h2⟩]
        rfl
      · intro h
        rw [if_neg fun hh => h ⟨hs, rfl, hh.1, hh.2⟩]
    · rename_i hs
      exact ⟨rfl, fun _ _ => rfl, fun i => ⟨fun h => absurd h.1 hs, fun _ => rfl⟩⟩
  · have h := State.captureEntry_other f s e b hb
    dsimp only
    rw [h]
    exact ⟨rfl, fun _ _ => rfl, fun i => ⟨fun h => absurd h.2.1 hb, fun _ => rfl⟩⟩

/-- A run of captures, entry by entry: the tables stay, a bank keeps all but its FILL buffer, a word that no entry of the run
holds is left, and a word that one entry of the run alone holds is that entry's (R43, R44). -/
theorem State.captureRun_bank (f : BlockFrame) (l : List (Fin 32)) (s : State) (b : Fin 8) :
    let t := l.foldl (State.captureEntry f) s
    t.mgmt = s.mgmt ∧ t.rx[b] = { s.rx[b] with x := t.rx[b].x, y := t.rx[b].y, z := t.rx[b].z } ∧
      (∀ n, n ≠ s.rx[b].fill → t.rx[b].buf n = s.rx[b].buf n) ∧
      ∀ i : Fin 128,
        ((∀ e ∈ l, ¬s.capturesWord f e b i) → (t.rx[b].buf s.rx[b].fill)[i] = (s.rx[b].buf s.rx[b].fill)[i]) ∧
          ∀ e ∈ l, s.capturesWord f e b i → (∀ d ∈ l, d ≠ e → ¬s.capturesWord f d b i) →
            (t.rx[b].buf s.rx[b].fill)[i] = s.capturedWord f e i := by
  induction l generalizing s with
  | nil => exact ⟨rfl, rfl, fun _ _ => rfl, fun i => ⟨fun _ => rfl, fun e he => nomatch he⟩⟩
  | cons e l ih =>
    obtain ⟨h1, h2, h3⟩ := State.captureEntry_bank f s e b
    obtain ⟨k0, k1, k2, k3⟩ := ih (State.captureEntry f s e)
    have hm : (State.captureEntry f s e).mgmt = s.mgmt := by
      unfold State.captureEntry
      split <;> rfl
    have hfill : (State.captureEntry f s e).rx[b].fill = s.rx[b].fill := by rw [h1]
    have hc : ∀ d i, (State.captureEntry f s e).capturesWord f d b i ↔ s.capturesWord f d b i := by
      intro d i
      unfold State.capturesWord State.subscribes
      rw [hm]
    have hw : ∀ d i, (State.captureEntry f s e).capturedWord f d i = s.capturedWord f d i := by
      intro d i
      unfold State.capturedWord
      rw [hm]
    rw [hfill] at k2 k3
    refine ⟨k0.trans hm, ?_, fun n hn => (k2 n hn).trans (h2 n hn), fun i => ⟨fun h => ?_, fun d hd hdw ho => ?_⟩⟩
    · exact k1.trans (congrArg (fun r : RxBank =>
        { r with
          x := (l.foldl (State.captureEntry f) (State.captureEntry f s e)).rx[b].x
          y := (l.foldl (State.captureEntry f) (State.captureEntry f s e)).rx[b].y
          z := (l.foldl (State.captureEntry f) (State.captureEntry f s e)).rx[b].z }) h1)
    · exact ((k3 i).1 fun d hd => (hc d i).not.2 (h d (List.mem_cons_of_mem _ hd))).trans
        ((h3 i).2 (h e (List.mem_cons_self ..)))
    · by_cases hdl : d ∈ l
      · exact ((k3 i).2 d hdl ((hc d i).2 hdw) fun c hcl hcd => (hc c i).not.2 (ho c (List.mem_cons_of_mem _ hcl) hcd)).trans
          (hw d i)
      · have hde : d = e := (List.mem_cons.1 hd).resolve_right hdl
        subst hde
        exact ((k3 i).1 fun c hcl => (hc c i).not.2
          (ho c (List.mem_cons_of_mem _ hcl) fun hcd => hdl (hcd ▸ hcl))).trans ((h3 i).1 hdw)

/-- What capturing a block leaves in a receive bank (R43, R44). -/
theorem State.captureBlock_bank (s : State) (f : BlockFrame) (b : Fin 8) :
    let t := s.captureBlock f
    t.rx[b] = { s.rx[b] with x := t.rx[b].x, y := t.rx[b].y, z := t.rx[b].z } ∧
      (∀ n, n ≠ s.rx[b].fill → t.rx[b].buf n = s.rx[b].buf n) ∧
      ∀ i : Fin 128,
        ((∀ e, ¬s.capturesWord f e b i) → (t.rx[b].buf s.rx[b].fill)[i] = (s.rx[b].buf s.rx[b].fill)[i]) ∧
          ∀ e, s.capturesWord f e b i → (∀ d, d ≠ e → ¬s.capturesWord f d b i) →
            (t.rx[b].buf s.rx[b].fill)[i] = s.capturedWord f e i := by
  obtain ⟨_, h1, h2, h3⟩ := State.captureRun_bank f (List.finRange 32) s b
  exact ⟨h1, h2, fun i => ⟨fun h => (h3 i).1 fun e _ => h e, fun e he ho =>
    (h3 i).2 e (List.mem_finRange e) he fun d _ hd => ho d hd⟩⟩

/-! ### Nothing else is read or written -/

theorem State.captureEntry_only (f : BlockFrame) (s : State) (e : Fin 32) :
    State.captureEntry f s e =
      { s with subs := (State.captureEntry f s e).subs, rx := (State.captureEntry f s e).rx } := by
  unfold State.captureEntry
  split <;> rfl

/-- Capturing a block moves only the subscription records and the receive banks (R43 to R46). -/
theorem State.captureBlock_only (s : State) (f : BlockFrame) :
    s.captureBlock f = { s with subs := (s.captureBlock f).subs, rx := (s.captureBlock f).rx } := by
  unfold State.captureBlock
  generalize List.finRange 32 = l
  induction l generalizing s with
  | nil => rfl
  | cons e l ih =>
    rw [List.foldl_cons]
    refine (ih _).trans ?_
    generalize l.foldl (State.captureEntry f) (State.captureEntry f s e) = u
    rw [State.captureEntry_only f s e]

/-- What capturing a block writes rests on the tables and on what it writes, and on nothing else of the tap. -/
theorem State.captureBlock_congr {s t : State} (f : BlockFrame) (hm : t.mgmt = s.mgmt) (hs : t.subs = s.subs) (hr : t.rx = s.rx) :
    (t.captureBlock f).subs = (s.captureBlock f).subs ∧ (t.captureBlock f).rx = (s.captureBlock f).rx := by
  unfold State.captureBlock
  generalize List.finRange 32 = l
  induction l generalizing s t with
  | nil => exact ⟨hs, hr⟩
  | cons e l ih =>
    rw [List.foldl_cons, List.foldl_cons]
    refine ih ?_ ?_ ?_ <;> (unfold State.captureEntry State.subscribes; simp only [hm]; split <;> simp_all)

end Sys2Proof.Machine
end

