-- ==== Sys2Proof/Laws/Matrix.lean ====
section
/-! SUPPORT. What a rising edge does, whichever users it reaches: it moves the publish banks, the receive banks and the signal
matrix, each as its lemma says, and nothing else. -/

namespace Sys2Proof.Machine


@[simp] theorem State.fire_pending (s : State) (hit : Fin 21 → Bool) : (s.fire hit).pending = s.pending := rfl
@[simp] theorem State.fire_now (s : State) (hit : Fin 21 → Bool) : (s.fire hit).now = s.now := rfl
@[simp] theorem State.fire_sent (s : State) (hit : Fin 21 → Bool) : (s.fire hit).sent = s.sent := rfl
@[simp] theorem State.fire_ctl (s : State) (hit : Fin 21 → Bool) : (s.fire hit).ctl = s.ctl := rfl
@[simp] theorem State.fire_trk (s : State) (hit : Fin 21 → Bool) : (s.fire hit).trk = s.trk := rfl
@[simp] theorem State.fire_mgmt (s : State) (hit : Fin 21 → Bool) : (s.fire hit).mgmt = s.mgmt := rfl
@[simp] theorem State.fire_subs (s : State) (hit : Fin 21 → Bool) : (s.fire hit).subs = s.subs := rfl
@[simp] theorem State.fire_sched (s : State) (hit : Fin 21 → Bool) : (s.fire hit).sched = s.sched := rfl
@[simp] theorem State.fire_inbound (s : State) (hit : Fin 21 → Bool) : (s.fire hit).inbound = s.inbound := rfl
@[simp] theorem State.fire_roll (s : State) (hit : Fin 21 → Bool) : (s.fire hit).roll = s.roll := rfl
@[simp] theorem State.fire_portW (s : State) (hit : Fin 21 → Bool) : (s.fire hit).portW = s.portW := rfl
@[simp] theorem State.fire_portE (s : State) (hit : Fin 21 → Bool) : (s.fire hit).portE = s.portE := rfl
@[simp] theorem State.fire_att (s : State) (hit : Fin 21 → Bool) : (s.fire hit).att = s.att := rfl
@[simp] theorem State.fire_lsp (s : State) (hit : Fin 21 → Bool) : (s.fire hit).lsp = s.lsp := rfl
@[simp] theorem State.fire_rst (s : State) (hit : Fin 21 → Bool) : (s.fire hit).rst = s.rst := rfl
@[simp] theorem State.fire_ctr (s : State) (hit : Fin 21 → Bool) : (s.fire hit).ctr = s.ctr := rfl

@[simp] theorem State.raise_pending (s : State) (x : Source) : (s.raise x).pending = s.pending := rfl
@[simp] theorem State.raise_now (s : State) (x : Source) : (s.raise x).now = s.now := rfl
@[simp] theorem State.raise_sent (s : State) (x : Source) : (s.raise x).sent = s.sent := rfl
@[simp] theorem State.raise_ctl (s : State) (x : Source) : (s.raise x).ctl = s.ctl := rfl
@[simp] theorem State.raise_trk (s : State) (x : Source) : (s.raise x).trk = s.trk := rfl
@[simp] theorem State.raise_mgmt (s : State) (x : Source) : (s.raise x).mgmt = s.mgmt := rfl
@[simp] theorem State.raise_subs (s : State) (x : Source) : (s.raise x).subs = s.subs := rfl
@[simp] theorem State.raise_sched (s : State) (x : Source) : (s.raise x).sched = s.sched := rfl
@[simp] theorem State.raise_inbound (s : State) (x : Source) : (s.raise x).inbound = s.inbound := rfl
@[simp] theorem State.raise_roll (s : State) (x : Source) : (s.raise x).roll = s.roll := rfl
@[simp] theorem State.raise_portW (s : State) (x : Source) : (s.raise x).portW = s.portW := rfl
@[simp] theorem State.raise_portE (s : State) (x : Source) : (s.raise x).portE = s.portE := rfl
@[simp] theorem State.raise_att (s : State) (x : Source) : (s.raise x).att = s.att := rfl
@[simp] theorem State.raise_lsp (s : State) (x : Source) : (s.raise x).lsp = s.lsp := rfl
@[simp] theorem State.raise_rst (s : State) (x : Source) : (s.raise x).rst = s.rst := rfl
@[simp] theorem State.raise_ctr (s : State) (x : Source) : (s.raise x).ctr = s.ctr := rfl

@[simp] theorem State.edgeOn_pending (s : State) (c : Fin 12) : (s.edgeOn c).pending = s.pending := rfl
@[simp] theorem State.edgeOn_now (s : State) (c : Fin 12) : (s.edgeOn c).now = s.now := rfl
@[simp] theorem State.edgeOn_sent (s : State) (c : Fin 12) : (s.edgeOn c).sent = s.sent := rfl
@[simp] theorem State.edgeOn_ctl (s : State) (c : Fin 12) : (s.edgeOn c).ctl = s.ctl := rfl
@[simp] theorem State.edgeOn_trk (s : State) (c : Fin 12) : (s.edgeOn c).trk = s.trk := rfl
@[simp] theorem State.edgeOn_mgmt (s : State) (c : Fin 12) : (s.edgeOn c).mgmt = s.mgmt := rfl
@[simp] theorem State.edgeOn_subs (s : State) (c : Fin 12) : (s.edgeOn c).subs = s.subs := rfl
@[simp] theorem State.edgeOn_sched (s : State) (c : Fin 12) : (s.edgeOn c).sched = s.sched := rfl
@[simp] theorem State.edgeOn_inbound (s : State) (c : Fin 12) : (s.edgeOn c).inbound = s.inbound := rfl
@[simp] theorem State.edgeOn_roll (s : State) (c : Fin 12) : (s.edgeOn c).roll = s.roll := rfl
@[simp] theorem State.edgeOn_portW (s : State) (c : Fin 12) : (s.edgeOn c).portW = s.portW := rfl
@[simp] theorem State.edgeOn_portE (s : State) (c : Fin 12) : (s.edgeOn c).portE = s.portE := rfl
@[simp] theorem State.edgeOn_att (s : State) (c : Fin 12) : (s.edgeOn c).att = s.att := rfl
@[simp] theorem State.edgeOn_lsp (s : State) (c : Fin 12) : (s.edgeOn c).lsp = s.lsp := rfl
@[simp] theorem State.edgeOn_rst (s : State) (c : Fin 12) : (s.edgeOn c).rst = s.rst := rfl
@[simp] theorem State.edgeOn_ctr (s : State) (c : Fin 12) : (s.edgeOn c).ctr = s.ctr := rfl

@[simp] theorem State.ringChange_pending (s : State) : s.ringChange.pending = s.pending := rfl
@[simp] theorem State.ringChange_now (s : State) : s.ringChange.now = s.now := rfl
@[simp] theorem State.ringChange_sent (s : State) : s.ringChange.sent = s.sent := rfl
@[simp] theorem State.ringChange_ctl (s : State) : s.ringChange.ctl = s.ctl := rfl
@[simp] theorem State.ringChange_trk (s : State) : s.ringChange.trk = s.trk := rfl
@[simp] theorem State.ringChange_mgmt (s : State) : s.ringChange.mgmt = s.mgmt := rfl
@[simp] theorem State.ringChange_subs (s : State) : s.ringChange.subs = s.subs := rfl
@[simp] theorem State.ringChange_sched (s : State) : s.ringChange.sched = s.sched := rfl
@[simp] theorem State.ringChange_inbound (s : State) : s.ringChange.inbound = s.inbound := rfl
@[simp] theorem State.ringChange_roll (s : State) : s.ringChange.roll = s.roll := rfl
@[simp] theorem State.ringChange_portW (s : State) : s.ringChange.portW = s.portW := rfl
@[simp] theorem State.ringChange_portE (s : State) : s.ringChange.portE = s.portE := rfl
@[simp] theorem State.ringChange_lsp (s : State) : s.ringChange.lsp = s.lsp := rfl
@[simp] theorem State.ringChange_rst (s : State) : s.ringChange.rst = s.rst := rfl
@[simp] theorem State.ringChange_ctr (s : State) : s.ringChange.ctr = s.ctr := rfl

@[simp] theorem State.ringChange_att (s : State) : s.ringChange.att = { s.att with ring := true } := by
  rfl

/-- The FIFO takes a record and moves nothing but itself and its flag; it never holds more than 4. -/
theorem Signals.pushStamp_frame (x : Signals) (r : Stamp) :
    x.pushStamp r = { x with stamps := (x.pushStamp r).stamps, overflow := (x.pushStamp r).overflow } := by
  unfold Signals.pushStamp; split <;> rfl

theorem Signals.pushStamp_length (x : Signals) (r : Stamp) (h : x.stamps.length ≤ 4) : (x.pushStamp r).stamps.length ≤ 4 := by
  unfold Signals.pushStamp
  split
  · rename_i h4
    simpa using h4
  · exact h

/-- The pins, whichever records are made: a pin whose user the edge reaches is high from now. -/
theorem State.edgeSignals_frame (s : State) (hit : Fin 21 → Bool) :
    s.edgeSignals hit =
      { s.sig with
        pins := Vector.ofFn fun k => if hit (trigUser k) then ⟨true, some s.now⟩ else s.sig.pins[k]
        stamps := (s.edgeSignals hit).stamps
        overflow := (s.edgeSignals hit).overflow } := by
  unfold State.edgeSignals
  dsimp only
  split
  · split
    · rw [Signals.pushStamp_frame]
    · rfl
  · rfl

@[simp] theorem State.edgeSignals_trigIn (s : State) (hit : Fin 21 → Bool) : (s.edgeSignals hit).trigIn = s.sig.trigIn := by
  rw [State.edgeSignals_frame]

@[simp] theorem State.edgeSignals_pulses (s : State) (hit : Fin 21 → Bool) : (s.edgeSignals hit).pulses = s.sig.pulses := by
  rw [State.edgeSignals_frame]

@[simp] theorem State.edgeSignals_ref (s : State) (hit : Fin 21 → Bool) : (s.edgeSignals hit).ref = s.sig.ref := by
  rw [State.edgeSignals_frame]

@[simp] theorem State.edgeSignals_pins (s : State) (hit : Fin 21 → Bool) :
    (s.edgeSignals hit).pins = Vector.ofFn fun k => if hit (trigUser k) then ⟨true, some s.now⟩ else s.sig.pins[k] := by
  rw [State.edgeSignals_frame]

/-- An edge leaves at most 4 records in the stamp FIFO (R156). -/
theorem State.edgeSignals_length (s : State) (hit : Fin 21 → Bool) (h : s.sig.stamps.length ≤ 4) :
    (s.edgeSignals hit).stamps.length ≤ 4 := by
  unfold State.edgeSignals
  dsimp only
  split
  · split
    · exact Signals.pushStamp_length _ _ h
    · exact h
  · exact h

/-- A user acts at a raised event exactly where it follows a channel with that source. -/
theorem State.bound_iff (s : State) (x : Source) (u : Fin 21) :
    s.bound x u = true ↔ ∃ c, s.follows u = some c ∧ s.source c = x := by
  unfold State.bound
  cases s.follows u <;> simp

/-- RING_CHANGE moves what an edge moves, and its attention cause. -/
theorem State.ringChange_eq (s : State) :
    s.ringChange =
      { s with
        pub := s.ringChange.pub
        rx := s.ringChange.rx
        sig := s.ringChange.sig
        att := { s.att with ring := true } } := rfl

/-- A port unit is not moved by an edge. -/
@[simp] theorem State.fire_unit (s : State) (hit : Fin 21 → Bool) (p : Port) : (s.fire hit).unit p = s.unit p := by
  cases p <;> simp [State.unit]

@[simp] theorem State.raise_unit (s : State) (x : Source) (p : Port) : (s.raise x).unit p = s.unit p := State.fire_unit s _ p

@[simp] theorem State.ringChange_unit (s : State) (p : Port) : s.ringChange.unit p = s.unit p := by
  cases p <;> simp [State.unit]

end Sys2Proof.Machine
end

