-- ==== Sys2Proof/Laws/Units.lean ====
section
/-! SUPPORT. What the capture unit, the scheduler and the roll unit leave alone, operation by operation: the fields an operation
does not name are as before. -/

namespace Sys2Proof.Machine

set_option Elab.async false

/-- What every pass of a fold keeps, the fold keeps. -/
theorem foldl_keeps {α β γ : Type} (f : α → β) (g : α → γ → α) (h : ∀ a x, f (g a x) = f a) (l : List γ) (a : α) :
    f (l.foldl g a) = f a := by
  induction l generalizing a with
  | nil => rfl
  | cons x l ih => exact (ih (g a x)).trans (h a x)

/-! ### Publishing and capture -/

/-! A completion moves the banks and the signals. -/

@[simp] theorem State.completeBank_pending (s : State) (b : Fin 8) : (s.completeBank b).pending = s.pending := by
  unfold State.completeBank; dsimp only; split <;> simp
@[simp] theorem State.completeBank_now (s : State) (b : Fin 8) : (s.completeBank b).now = s.now := by
  unfold State.completeBank; dsimp only; split <;> simp
@[simp] theorem State.completeBank_sent (s : State) (b : Fin 8) : (s.completeBank b).sent = s.sent := by
  unfold State.completeBank; dsimp only; split <;> simp
@[simp] theorem State.completeBank_ctl (s : State) (b : Fin 8) : (s.completeBank b).ctl = s.ctl := by
  unfold State.completeBank; dsimp only; split <;> simp
@[simp] theorem State.completeBank_trk (s : State) (b : Fin 8) : (s.completeBank b).trk = s.trk := by
  unfold State.completeBank; dsimp only; split <;> simp
@[simp] theorem State.completeBank_mgmt (s : State) (b : Fin 8) : (s.completeBank b).mgmt = s.mgmt := by
  unfold State.completeBank; dsimp only; split <;> simp
@[simp] theorem State.completeBank_subs (s : State) (b : Fin 8) : (s.completeBank b).subs = s.subs := by
  unfold State.completeBank; dsimp only; split <;> simp
@[simp] theorem State.completeBank_sched (s : State) (b : Fin 8) : (s.completeBank b).sched = s.sched := by
  unfold State.completeBank; dsimp only; split <;> simp
@[simp] theorem State.completeBank_inbound (s : State) (b : Fin 8) : (s.completeBank b).inbound = s.inbound := by
  unfold State.completeBank; dsimp only; split <;> simp
@[simp] theorem State.completeBank_roll (s : State) (b : Fin 8) : (s.completeBank b).roll = s.roll := by
  unfold State.completeBank; dsimp only; split <;> simp
@[simp] theorem State.completeBank_portW (s : State) (b : Fin 8) : (s.completeBank b).portW = s.portW := by
  unfold State.completeBank; dsimp only; split <;> simp
@[simp] theorem State.completeBank_portE (s : State) (b : Fin 8) : (s.completeBank b).portE = s.portE := by
  unfold State.completeBank; dsimp only; split <;> simp
@[simp] theorem State.completeBank_att (s : State) (b : Fin 8) : (s.completeBank b).att = s.att := by
  unfold State.completeBank; dsimp only; split <;> simp
@[simp] theorem State.completeBank_lsp (s : State) (b : Fin 8) : (s.completeBank b).lsp = s.lsp := by
  unfold State.completeBank; dsimp only; split <;> simp
@[simp] theorem State.completeBank_rst (s : State) (b : Fin 8) : (s.completeBank b).rst = s.rst := by
  unfold State.completeBank; dsimp only; split <;> simp
@[simp] theorem State.completeBank_ctr (s : State) (b : Fin 8) : (s.completeBank b).ctr = s.ctr := by
  unfold State.completeBank; dsimp only; split <;> simp

/-! The judgement of the banks moves them, the signals and a count. -/

@[simp] theorem State.judgeBank_pending (s : State) (b : Fin 8) : (s.judgeBank b).pending = s.pending := by
  unfold State.judgeBank; (repeat' split) <;> simp
@[simp] theorem State.judgeBank_now (s : State) (b : Fin 8) : (s.judgeBank b).now = s.now := by
  unfold State.judgeBank; (repeat' split) <;> simp
@[simp] theorem State.judgeBank_sent (s : State) (b : Fin 8) : (s.judgeBank b).sent = s.sent := by
  unfold State.judgeBank; (repeat' split) <;> simp
@[simp] theorem State.judgeBank_ctl (s : State) (b : Fin 8) : (s.judgeBank b).ctl = s.ctl := by
  unfold State.judgeBank; (repeat' split) <;> simp
@[simp] theorem State.judgeBank_trk (s : State) (b : Fin 8) : (s.judgeBank b).trk = s.trk := by
  unfold State.judgeBank; (repeat' split) <;> simp
@[simp] theorem State.judgeBank_mgmt (s : State) (b : Fin 8) : (s.judgeBank b).mgmt = s.mgmt := by
  unfold State.judgeBank; (repeat' split) <;> simp
@[simp] theorem State.judgeBank_subs (s : State) (b : Fin 8) : (s.judgeBank b).subs = s.subs := by
  unfold State.judgeBank; (repeat' split) <;> simp
@[simp] theorem State.judgeBank_sched (s : State) (b : Fin 8) : (s.judgeBank b).sched = s.sched := by
  unfold State.judgeBank; (repeat' split) <;> simp
@[simp] theorem State.judgeBank_inbound (s : State) (b : Fin 8) : (s.judgeBank b).inbound = s.inbound := by
  unfold State.judgeBank; (repeat' split) <;> simp
@[simp] theorem State.judgeBank_roll (s : State) (b : Fin 8) : (s.judgeBank b).roll = s.roll := by
  unfold State.judgeBank; (repeat' split) <;> simp
@[simp] theorem State.judgeBank_portW (s : State) (b : Fin 8) : (s.judgeBank b).portW = s.portW := by
  unfold State.judgeBank; (repeat' split) <;> simp
@[simp] theorem State.judgeBank_portE (s : State) (b : Fin 8) : (s.judgeBank b).portE = s.portE := by
  unfold State.judgeBank; (repeat' split) <;> simp
@[simp] theorem State.judgeBank_att (s : State) (b : Fin 8) : (s.judgeBank b).att = s.att := by
  unfold State.judgeBank; (repeat' split) <;> simp
@[simp] theorem State.judgeBank_lsp (s : State) (b : Fin 8) : (s.judgeBank b).lsp = s.lsp := by
  unfold State.judgeBank; (repeat' split) <;> simp
@[simp] theorem State.judgeBank_rst (s : State) (b : Fin 8) : (s.judgeBank b).rst = s.rst := by
  unfold State.judgeBank; (repeat' split) <;> simp

@[simp] theorem State.judgeBanks_pending (s : State) : (s.judgeBanks).pending = s.pending :=
  by unfold State.judgeBanks; rw [foldl_keeps State.pending _ State.judgeBank_pending]
@[simp] theorem State.judgeBanks_now (s : State) : (s.judgeBanks).now = s.now :=
  by unfold State.judgeBanks; rw [foldl_keeps State.now _ State.judgeBank_now]
@[simp] theorem State.judgeBanks_sent (s : State) : (s.judgeBanks).sent = s.sent :=
  by unfold State.judgeBanks; rw [foldl_keeps State.sent _ State.judgeBank_sent]
@[simp] theorem State.judgeBanks_ctl (s : State) : (s.judgeBanks).ctl = s.ctl :=
  by unfold State.judgeBanks; rw [foldl_keeps State.ctl _ State.judgeBank_ctl]
@[simp] theorem State.judgeBanks_trk (s : State) : (s.judgeBanks).trk = s.trk :=
  by unfold State.judgeBanks; rw [foldl_keeps State.trk _ State.judgeBank_trk]
@[simp] theorem State.judgeBanks_mgmt (s : State) : (s.judgeBanks).mgmt = s.mgmt :=
  by unfold State.judgeBanks; rw [foldl_keeps State.mgmt _ State.judgeBank_mgmt]
@[simp] theorem State.judgeBanks_subs (s : State) : (s.judgeBanks).subs = s.subs :=
  by unfold State.judgeBanks; rw [foldl_keeps State.subs _ State.judgeBank_subs]
@[simp] theorem State.judgeBanks_sched (s : State) : (s.judgeBanks).sched = s.sched :=
  by unfold State.judgeBanks; rw [foldl_keeps State.sched _ State.judgeBank_sched]
@[simp] theorem State.judgeBanks_inbound (s : State) : (s.judgeBanks).inbound = s.inbound :=
  by unfold State.judgeBanks; rw [foldl_keeps State.inbound _ State.judgeBank_inbound]
@[simp] theorem State.judgeBanks_roll (s : State) : (s.judgeBanks).roll = s.roll :=
  by unfold State.judgeBanks; rw [foldl_keeps State.roll _ State.judgeBank_roll]
@[simp] theorem State.judgeBanks_portW (s : State) : (s.judgeBanks).portW = s.portW :=
  by unfold State.judgeBanks; rw [foldl_keeps State.portW _ State.judgeBank_portW]
@[simp] theorem State.judgeBanks_portE (s : State) : (s.judgeBanks).portE = s.portE :=
  by unfold State.judgeBanks; rw [foldl_keeps State.portE _ State.judgeBank_portE]
@[simp] theorem State.judgeBanks_att (s : State) : (s.judgeBanks).att = s.att :=
  by unfold State.judgeBanks; rw [foldl_keeps State.att _ State.judgeBank_att]
@[simp] theorem State.judgeBanks_lsp (s : State) : (s.judgeBanks).lsp = s.lsp :=
  by unfold State.judgeBanks; rw [foldl_keeps State.lsp _ State.judgeBank_lsp]
@[simp] theorem State.judgeBanks_rst (s : State) : (s.judgeBanks).rst = s.rst :=
  by unfold State.judgeBanks; rw [foldl_keeps State.rst _ State.judgeBank_rst]

/-! Aging moves the records, the banks, the signals, attention and a count. -/

@[simp] theorem State.ageEntry_pending (s : State) (e : Fin 32) : (s.ageEntry e).pending = s.pending := by
  unfold State.ageEntry; dsimp only; (repeat' split) <;> simp
@[simp] theorem State.ageEntry_now (s : State) (e : Fin 32) : (s.ageEntry e).now = s.now := by
  unfold State.ageEntry; dsimp only; (repeat' split) <;> simp
@[simp] theorem State.ageEntry_sent (s : State) (e : Fin 32) : (s.ageEntry e).sent = s.sent := by
  unfold State.ageEntry; dsimp only; (repeat' split) <;> simp
@[simp] theorem State.ageEntry_ctl (s : State) (e : Fin 32) : (s.ageEntry e).ctl = s.ctl := by
  unfold State.ageEntry; dsimp only; (repeat' split) <;> simp
@[simp] theorem State.ageEntry_trk (s : State) (e : Fin 32) : (s.ageEntry e).trk = s.trk := by
  unfold State.ageEntry; dsimp only; (repeat' split) <;> simp
@[simp] theorem State.ageEntry_mgmt (s : State) (e : Fin 32) : (s.ageEntry e).mgmt = s.mgmt := by
  unfold State.ageEntry; dsimp only; (repeat' split) <;> simp
@[simp] theorem State.ageEntry_sched (s : State) (e : Fin 32) : (s.ageEntry e).sched = s.sched := by
  unfold State.ageEntry; dsimp only; (repeat' split) <;> simp
@[simp] theorem State.ageEntry_inbound (s : State) (e : Fin 32) : (s.ageEntry e).inbound = s.inbound := by
  unfold State.ageEntry; dsimp only; (repeat' split) <;> simp
@[simp] theorem State.ageEntry_roll (s : State) (e : Fin 32) : (s.ageEntry e).roll = s.roll := by
  unfold State.ageEntry; dsimp only; (repeat' split) <;> simp
@[simp] theorem State.ageEntry_portW (s : State) (e : Fin 32) : (s.ageEntry e).portW = s.portW := by
  unfold State.ageEntry; dsimp only; (repeat' split) <;> simp
@[simp] theorem State.ageEntry_portE (s : State) (e : Fin 32) : (s.ageEntry e).portE = s.portE := by
  unfold State.ageEntry; dsimp only; (repeat' split) <;> simp
@[simp] theorem State.ageEntry_lsp (s : State) (e : Fin 32) : (s.ageEntry e).lsp = s.lsp := by
  unfold State.ageEntry; dsimp only; (repeat' split) <;> simp
@[simp] theorem State.ageEntry_rst (s : State) (e : Fin 32) : (s.ageEntry e).rst = s.rst := by
  unfold State.ageEntry; dsimp only; (repeat' split) <;> simp

@[simp] theorem State.ageAll_pending (s : State) : (s.ageAll).pending = s.pending :=
  by unfold State.ageAll; rw [foldl_keeps State.pending _ State.ageEntry_pending]
@[simp] theorem State.ageAll_now (s : State) : (s.ageAll).now = s.now :=
  by unfold State.ageAll; rw [foldl_keeps State.now _ State.ageEntry_now]
@[simp] theorem State.ageAll_sent (s : State) : (s.ageAll).sent = s.sent :=
  by unfold State.ageAll; rw [foldl_keeps State.sent _ State.ageEntry_sent]
@[simp] theorem State.ageAll_ctl (s : State) : (s.ageAll).ctl = s.ctl :=
  by unfold State.ageAll; rw [foldl_keeps State.ctl _ State.ageEntry_ctl]
@[simp] theorem State.ageAll_trk (s : State) : (s.ageAll).trk = s.trk :=
  by unfold State.ageAll; rw [foldl_keeps State.trk _ State.ageEntry_trk]
@[simp] theorem State.ageAll_mgmt (s : State) : (s.ageAll).mgmt = s.mgmt :=
  by unfold State.ageAll; rw [foldl_keeps State.mgmt _ State.ageEntry_mgmt]
@[simp] theorem State.ageAll_sched (s : State) : (s.ageAll).sched = s.sched :=
  by unfold State.ageAll; rw [foldl_keeps State.sched _ State.ageEntry_sched]
@[simp] theorem State.ageAll_inbound (s : State) : (s.ageAll).inbound = s.inbound :=
  by unfold State.ageAll; rw [foldl_keeps State.inbound _ State.ageEntry_inbound]
@[simp] theorem State.ageAll_roll (s : State) : (s.ageAll).roll = s.roll :=
  by unfold State.ageAll; rw [foldl_keeps State.roll _ State.ageEntry_roll]
@[simp] theorem State.ageAll_portW (s : State) : (s.ageAll).portW = s.portW :=
  by unfold State.ageAll; rw [foldl_keeps State.portW _ State.ageEntry_portW]
@[simp] theorem State.ageAll_portE (s : State) : (s.ageAll).portE = s.portE :=
  by unfold State.ageAll; rw [foldl_keeps State.portE _ State.ageEntry_portE]
@[simp] theorem State.ageAll_lsp (s : State) : (s.ageAll).lsp = s.lsp :=
  by unfold State.ageAll; rw [foldl_keeps State.lsp _ State.ageEntry_lsp]
@[simp] theorem State.ageAll_rst (s : State) : (s.ageAll).rst = s.rst :=
  by unfold State.ageAll; rw [foldl_keeps State.rst _ State.ageEntry_rst]

/-! Capture moves the records and the banks. -/

@[simp] theorem State.captureEntry_pending (g : BlockFrame) (s : State) (e : Fin 32) : (State.captureEntry g s e).pending = s.pending := by
  unfold State.captureEntry; dsimp only; (repeat' split) <;> simp
@[simp] theorem State.captureEntry_now (g : BlockFrame) (s : State) (e : Fin 32) : (State.captureEntry g s e).now = s.now := by
  unfold State.captureEntry; dsimp only; (repeat' split) <;> simp
@[simp] theorem State.captureEntry_sent (g : BlockFrame) (s : State) (e : Fin 32) : (State.captureEntry g s e).sent = s.sent := by
  unfold State.captureEntry; dsimp only; (repeat' split) <;> simp
@[simp] theorem State.captureEntry_ctl (g : BlockFrame) (s : State) (e : Fin 32) : (State.captureEntry g s e).ctl = s.ctl := by
  unfold State.captureEntry; dsimp only; (repeat' split) <;> simp
@[simp] theorem State.captureEntry_trk (g : BlockFrame) (s : State) (e : Fin 32) : (State.captureEntry g s e).trk = s.trk := by
  unfold State.captureEntry; dsimp only; (repeat' split) <;> simp
@[simp] theorem State.captureEntry_mgmt (g : BlockFrame) (s : State) (e : Fin 32) : (State.captureEntry g s e).mgmt = s.mgmt := by
  unfold State.captureEntry; dsimp only; (repeat' split) <;> simp
@[simp] theorem State.captureEntry_pub (g : BlockFrame) (s : State) (e : Fin 32) : (State.captureEntry g s e).pub = s.pub := by
  unfold State.captureEntry; dsimp only; (repeat' split) <;> simp
@[simp] theorem State.captureEntry_sched (g : BlockFrame) (s : State) (e : Fin 32) : (State.captureEntry g s e).sched = s.sched := by
  unfold State.captureEntry; dsimp only; (repeat' split) <;> simp
@[simp] theorem State.captureEntry_inbound (g : BlockFrame) (s : State) (e : Fin 32) : (State.captureEntry g s e).inbound = s.inbound := by
  unfold State.captureEntry; dsimp only; (repeat' split) <;> simp
@[simp] theorem State.captureEntry_roll (g : BlockFrame) (s : State) (e : Fin 32) : (State.captureEntry g s e).roll = s.roll := by
  unfold State.captureEntry; dsimp only; (repeat' split) <;> simp
@[simp] theorem State.captureEntry_portW (g : BlockFrame) (s : State) (e : Fin 32) : (State.captureEntry g s e).portW = s.portW := by
  unfold State.captureEntry; dsimp only; (repeat' split) <;> simp
@[simp] theorem State.captureEntry_portE (g : BlockFrame) (s : State) (e : Fin 32) : (State.captureEntry g s e).portE = s.portE := by
  unfold State.captureEntry; dsimp only; (repeat' split) <;> simp
@[simp] theorem State.captureEntry_sig (g : BlockFrame) (s : State) (e : Fin 32) : (State.captureEntry g s e).sig = s.sig := by
  unfold State.captureEntry; dsimp only; (repeat' split) <;> simp
@[simp] theorem State.captureEntry_att (g : BlockFrame) (s : State) (e : Fin 32) : (State.captureEntry g s e).att = s.att := by
  unfold State.captureEntry; dsimp only; (repeat' split) <;> simp
@[simp] theorem State.captureEntry_lsp (g : BlockFrame) (s : State) (e : Fin 32) : (State.captureEntry g s e).lsp = s.lsp := by
  unfold State.captureEntry; dsimp only; (repeat' split) <;> simp
@[simp] theorem State.captureEntry_rst (g : BlockFrame) (s : State) (e : Fin 32) : (State.captureEntry g s e).rst = s.rst := by
  unfold State.captureEntry; dsimp only; (repeat' split) <;> simp
@[simp] theorem State.captureEntry_ctr (g : BlockFrame) (s : State) (e : Fin 32) : (State.captureEntry g s e).ctr = s.ctr := by
  unfold State.captureEntry; dsimp only; (repeat' split) <;> simp

@[simp] theorem State.captureBlock_pending (s : State) (g : BlockFrame) : (s.captureBlock g).pending = s.pending :=
  by unfold State.captureBlock; rw [foldl_keeps State.pending _ (State.captureEntry_pending g)]
@[simp] theorem State.captureBlock_now (s : State) (g : BlockFrame) : (s.captureBlock g).now = s.now :=
  by unfold State.captureBlock; rw [foldl_keeps State.now _ (State.captureEntry_now g)]
@[simp] theorem State.captureBlock_sent (s : State) (g : BlockFrame) : (s.captureBlock g).sent = s.sent :=
  by unfold State.captureBlock; rw [foldl_keeps State.sent _ (State.captureEntry_sent g)]
@[simp] theorem State.captureBlock_ctl (s : State) (g : BlockFrame) : (s.captureBlock g).ctl = s.ctl :=
  by unfold State.captureBlock; rw [foldl_keeps State.ctl _ (State.captureEntry_ctl g)]
@[simp] theorem State.captureBlock_trk (s : State) (g : BlockFrame) : (s.captureBlock g).trk = s.trk :=
  by unfold State.captureBlock; rw [foldl_keeps State.trk _ (State.captureEntry_trk g)]
@[simp] theorem State.captureBlock_mgmt (s : State) (g : BlockFrame) : (s.captureBlock g).mgmt = s.mgmt :=
  by unfold State.captureBlock; rw [foldl_keeps State.mgmt _ (State.captureEntry_mgmt g)]
@[simp] theorem State.captureBlock_pub (s : State) (g : BlockFrame) : (s.captureBlock g).pub = s.pub :=
  by unfold State.captureBlock; rw [foldl_keeps State.pub _ (State.captureEntry_pub g)]
@[simp] theorem State.captureBlock_sched (s : State) (g : BlockFrame) : (s.captureBlock g).sched = s.sched :=
  by unfold State.captureBlock; rw [foldl_keeps State.sched _ (State.captureEntry_sched g)]
@[simp] theorem State.captureBlock_inbound (s : State) (g : BlockFrame) : (s.captureBlock g).inbound = s.inbound :=
  by unfold State.captureBlock; rw [foldl_keeps State.inbound _ (State.captureEntry_inbound g)]
@[simp] theorem State.captureBlock_roll (s : State) (g : BlockFrame) : (s.captureBlock g).roll = s.roll :=
  by unfold State.captureBlock; rw [foldl_keeps State.roll _ (State.captureEntry_roll g)]
@[simp] theorem State.captureBlock_portW (s : State) (g : BlockFrame) : (s.captureBlock g).portW = s.portW :=
  by unfold State.captureBlock; rw [foldl_keeps State.portW _ (State.captureEntry_portW g)]
@[simp] theorem State.captureBlock_portE (s : State) (g : BlockFrame) : (s.captureBlock g).portE = s.portE :=
  by unfold State.captureBlock; rw [foldl_keeps State.portE _ (State.captureEntry_portE g)]
@[simp] theorem State.captureBlock_sig (s : State) (g : BlockFrame) : (s.captureBlock g).sig = s.sig :=
  by unfold State.captureBlock; rw [foldl_keeps State.sig _ (State.captureEntry_sig g)]
@[simp] theorem State.captureBlock_att (s : State) (g : BlockFrame) : (s.captureBlock g).att = s.att :=
  by unfold State.captureBlock; rw [foldl_keeps State.att _ (State.captureEntry_att g)]
@[simp] theorem State.captureBlock_lsp (s : State) (g : BlockFrame) : (s.captureBlock g).lsp = s.lsp :=
  by unfold State.captureBlock; rw [foldl_keeps State.lsp _ (State.captureEntry_lsp g)]
@[simp] theorem State.captureBlock_rst (s : State) (g : BlockFrame) : (s.captureBlock g).rst = s.rst :=
  by unfold State.captureBlock; rw [foldl_keeps State.rst _ (State.captureEntry_rst g)]
@[simp] theorem State.captureBlock_ctr (s : State) (g : BlockFrame) : (s.captureBlock g).ctr = s.ctr :=
  by unfold State.captureBlock; rw [foldl_keeps State.ctr _ (State.captureEntry_ctr g)]

/-! Clearing the cycle flags moves the records. -/

@[simp] theorem State.clearCycleFlags_pending (s : State) : (s.clearCycleFlags).pending = s.pending :=
    by simp [State.clearCycleFlags]
@[simp] theorem State.clearCycleFlags_now (s : State) : (s.clearCycleFlags).now = s.now := by simp [State.clearCycleFlags]
@[simp] theorem State.clearCycleFlags_sent (s : State) : (s.clearCycleFlags).sent = s.sent := by simp [State.clearCycleFlags]
@[simp] theorem State.clearCycleFlags_ctl (s : State) : (s.clearCycleFlags).ctl = s.ctl := by simp [State.clearCycleFlags]
@[simp] theorem State.clearCycleFlags_trk (s : State) : (s.clearCycleFlags).trk = s.trk := by simp [State.clearCycleFlags]
@[simp] theorem State.clearCycleFlags_mgmt (s : State) : (s.clearCycleFlags).mgmt = s.mgmt := by simp [State.clearCycleFlags]
@[simp] theorem State.clearCycleFlags_rx (s : State) : (s.clearCycleFlags).rx = s.rx := by simp [State.clearCycleFlags]
@[simp] theorem State.clearCycleFlags_pub (s : State) : (s.clearCycleFlags).pub = s.pub := by simp [State.clearCycleFlags]
@[simp] theorem State.clearCycleFlags_sched (s : State) : (s.clearCycleFlags).sched = s.sched := by simp [State.clearCycleFlags]
@[simp] theorem State.clearCycleFlags_inbound (s : State) : (s.clearCycleFlags).inbound = s.inbound :=
    by simp [State.clearCycleFlags]
@[simp] theorem State.clearCycleFlags_roll (s : State) : (s.clearCycleFlags).roll = s.roll := by simp [State.clearCycleFlags]
@[simp] theorem State.clearCycleFlags_portW (s : State) : (s.clearCycleFlags).portW = s.portW := by simp [State.clearCycleFlags]
@[simp] theorem State.clearCycleFlags_portE (s : State) : (s.clearCycleFlags).portE = s.portE := by simp [State.clearCycleFlags]
@[simp] theorem State.clearCycleFlags_sig (s : State) : (s.clearCycleFlags).sig = s.sig := by simp [State.clearCycleFlags]
@[simp] theorem State.clearCycleFlags_att (s : State) : (s.clearCycleFlags).att = s.att := by simp [State.clearCycleFlags]
@[simp] theorem State.clearCycleFlags_lsp (s : State) : (s.clearCycleFlags).lsp = s.lsp := by simp [State.clearCycleFlags]
@[simp] theorem State.clearCycleFlags_rst (s : State) : (s.clearCycleFlags).rst = s.rst := by simp [State.clearCycleFlags]
@[simp] theorem State.clearCycleFlags_ctr (s : State) : (s.clearCycleFlags).ctr = s.ctr := by simp [State.clearCycleFlags]

/-! ### The scheduler -/

@[simp] theorem State.settle_pending (s : State) (m : Fin 8) (x : MsgOutcome) : (s.settle m x).pending = s.pending := rfl
@[simp] theorem State.settle_now (s : State) (m : Fin 8) (x : MsgOutcome) : (s.settle m x).now = s.now := rfl
@[simp] theorem State.settle_sent (s : State) (m : Fin 8) (x : MsgOutcome) : (s.settle m x).sent = s.sent := rfl
@[simp] theorem State.settle_ctl (s : State) (m : Fin 8) (x : MsgOutcome) : (s.settle m x).ctl = s.ctl := rfl
@[simp] theorem State.settle_trk (s : State) (m : Fin 8) (x : MsgOutcome) : (s.settle m x).trk = s.trk := rfl
@[simp] theorem State.settle_mgmt (s : State) (m : Fin 8) (x : MsgOutcome) : (s.settle m x).mgmt = s.mgmt := rfl
@[simp] theorem State.settle_subs (s : State) (m : Fin 8) (x : MsgOutcome) : (s.settle m x).subs = s.subs := rfl
@[simp] theorem State.settle_inbound (s : State) (m : Fin 8) (x : MsgOutcome) : (s.settle m x).inbound = s.inbound := rfl
@[simp] theorem State.settle_roll (s : State) (m : Fin 8) (x : MsgOutcome) : (s.settle m x).roll = s.roll := rfl
@[simp] theorem State.settle_portW (s : State) (m : Fin 8) (x : MsgOutcome) : (s.settle m x).portW = s.portW := rfl
@[simp] theorem State.settle_portE (s : State) (m : Fin 8) (x : MsgOutcome) : (s.settle m x).portE = s.portE := rfl
@[simp] theorem State.settle_att (s : State) (m : Fin 8) (x : MsgOutcome) : (s.settle m x).att = s.att := rfl
@[simp] theorem State.settle_lsp (s : State) (m : Fin 8) (x : MsgOutcome) : (s.settle m x).lsp = s.lsp := rfl
@[simp] theorem State.settle_rst (s : State) (m : Fin 8) (x : MsgOutcome) : (s.settle m x).rst = s.rst := rfl
@[simp] theorem State.settle_ctr (s : State) (m : Fin 8) (x : MsgOutcome) : (s.settle m x).ctr = s.ctr := rfl

/-! A header, a close and FAULTED move the mailboxes, the banks and the signals. -/

@[simp] theorem State.dueMailbox_pending (h : HeaderFrame) (s : State) (m : Fin 8) : (State.dueMailbox h s m).pending = s.pending := by
  unfold State.dueMailbox; (repeat' split) <;> simp
@[simp] theorem State.dueMailbox_now (h : HeaderFrame) (s : State) (m : Fin 8) : (State.dueMailbox h s m).now = s.now := by
  unfold State.dueMailbox; (repeat' split) <;> simp
@[simp] theorem State.dueMailbox_sent (h : HeaderFrame) (s : State) (m : Fin 8) : (State.dueMailbox h s m).sent = s.sent := by
  unfold State.dueMailbox; (repeat' split) <;> simp
@[simp] theorem State.dueMailbox_ctl (h : HeaderFrame) (s : State) (m : Fin 8) : (State.dueMailbox h s m).ctl = s.ctl := by
  unfold State.dueMailbox; (repeat' split) <;> simp
@[simp] theorem State.dueMailbox_trk (h : HeaderFrame) (s : State) (m : Fin 8) : (State.dueMailbox h s m).trk = s.trk := by
  unfold State.dueMailbox; (repeat' split) <;> simp
@[simp] theorem State.dueMailbox_mgmt (h : HeaderFrame) (s : State) (m : Fin 8) : (State.dueMailbox h s m).mgmt = s.mgmt := by
  unfold State.dueMailbox; (repeat' split) <;> simp
@[simp] theorem State.dueMailbox_subs (h : HeaderFrame) (s : State) (m : Fin 8) : (State.dueMailbox h s m).subs = s.subs := by
  unfold State.dueMailbox; (repeat' split) <;> simp
@[simp] theorem State.dueMailbox_inbound (h : HeaderFrame) (s : State) (m : Fin 8) : (State.dueMailbox h s m).inbound = s.inbound := by
  unfold State.dueMailbox; (repeat' split) <;> simp
@[simp] theorem State.dueMailbox_roll (h : HeaderFrame) (s : State) (m : Fin 8) : (State.dueMailbox h s m).roll = s.roll := by
  unfold State.dueMailbox; (repeat' split) <;> simp
@[simp] theorem State.dueMailbox_portW (h : HeaderFrame) (s : State) (m : Fin 8) : (State.dueMailbox h s m).portW = s.portW := by
  unfold State.dueMailbox; (repeat' split) <;> simp
@[simp] theorem State.dueMailbox_portE (h : HeaderFrame) (s : State) (m : Fin 8) : (State.dueMailbox h s m).portE = s.portE := by
  unfold State.dueMailbox; (repeat' split) <;> simp
@[simp] theorem State.dueMailbox_att (h : HeaderFrame) (s : State) (m : Fin 8) : (State.dueMailbox h s m).att = s.att := by
  unfold State.dueMailbox; (repeat' split) <;> simp
@[simp] theorem State.dueMailbox_lsp (h : HeaderFrame) (s : State) (m : Fin 8) : (State.dueMailbox h s m).lsp = s.lsp := by
  unfold State.dueMailbox; (repeat' split) <;> simp
@[simp] theorem State.dueMailbox_rst (h : HeaderFrame) (s : State) (m : Fin 8) : (State.dueMailbox h s m).rst = s.rst := by
  unfold State.dueMailbox; (repeat' split) <;> simp
@[simp] theorem State.dueMailbox_ctr (h : HeaderFrame) (s : State) (m : Fin 8) : (State.dueMailbox h s m).ctr = s.ctr := by
  unfold State.dueMailbox; (repeat' split) <;> simp

@[simp] theorem State.schedulerHeader_pending (s : State) (h : HeaderFrame) : (s.schedulerHeader h).pending = s.pending :=
  by unfold State.schedulerHeader; rw [foldl_keeps State.pending _ (State.dueMailbox_pending h)]
@[simp] theorem State.schedulerHeader_now (s : State) (h : HeaderFrame) : (s.schedulerHeader h).now = s.now :=
  by unfold State.schedulerHeader; rw [foldl_keeps State.now _ (State.dueMailbox_now h)]
@[simp] theorem State.schedulerHeader_sent (s : State) (h : HeaderFrame) : (s.schedulerHeader h).sent = s.sent :=
  by unfold State.schedulerHeader; rw [foldl_keeps State.sent _ (State.dueMailbox_sent h)]
@[simp] theorem State.schedulerHeader_ctl (s : State) (h : HeaderFrame) : (s.schedulerHeader h).ctl = s.ctl :=
  by unfold State.schedulerHeader; rw [foldl_keeps State.ctl _ (State.dueMailbox_ctl h)]
@[simp] theorem State.schedulerHeader_trk (s : State) (h : HeaderFrame) : (s.schedulerHeader h).trk = s.trk :=
  by unfold State.schedulerHeader; rw [foldl_keeps State.trk _ (State.dueMailbox_trk h)]
@[simp] theorem State.schedulerHeader_mgmt (s : State) (h : HeaderFrame) : (s.schedulerHeader h).mgmt = s.mgmt :=
  by unfold State.schedulerHeader; rw [foldl_keeps State.mgmt _ (State.dueMailbox_mgmt h)]
@[simp] theorem State.schedulerHeader_subs (s : State) (h : HeaderFrame) : (s.schedulerHeader h).subs = s.subs :=
  by unfold State.schedulerHeader; rw [foldl_keeps State.subs _ (State.dueMailbox_subs h)]
@[simp] theorem State.schedulerHeader_inbound (s : State) (h : HeaderFrame) : (s.schedulerHeader h).inbound = s.inbound :=
  by unfold State.schedulerHeader; rw [foldl_keeps State.inbound _ (State.dueMailbox_inbound h)]
@[simp] theorem State.schedulerHeader_roll (s : State) (h : HeaderFrame) : (s.schedulerHeader h).roll = s.roll :=
  by unfold State.schedulerHeader; rw [foldl_keeps State.roll _ (State.dueMailbox_roll h)]
@[simp] theorem State.schedulerHeader_portW (s : State) (h : HeaderFrame) : (s.schedulerHeader h).portW = s.portW :=
  by unfold State.schedulerHeader; rw [foldl_keeps State.portW _ (State.dueMailbox_portW h)]
@[simp] theorem State.schedulerHeader_portE (s : State) (h : HeaderFrame) : (s.schedulerHeader h).portE = s.portE :=
  by unfold State.schedulerHeader; rw [foldl_keeps State.portE _ (State.dueMailbox_portE h)]
@[simp] theorem State.schedulerHeader_att (s : State) (h : HeaderFrame) : (s.schedulerHeader h).att = s.att :=
  by unfold State.schedulerHeader; rw [foldl_keeps State.att _ (State.dueMailbox_att h)]
@[simp] theorem State.schedulerHeader_lsp (s : State) (h : HeaderFrame) : (s.schedulerHeader h).lsp = s.lsp :=
  by unfold State.schedulerHeader; rw [foldl_keeps State.lsp _ (State.dueMailbox_lsp h)]
@[simp] theorem State.schedulerHeader_rst (s : State) (h : HeaderFrame) : (s.schedulerHeader h).rst = s.rst :=
  by unfold State.schedulerHeader; rw [foldl_keeps State.rst _ (State.dueMailbox_rst h)]
@[simp] theorem State.schedulerHeader_ctr (s : State) (h : HeaderFrame) : (s.schedulerHeader h).ctr = s.ctr :=
  by unfold State.schedulerHeader; rw [foldl_keeps State.ctr _ (State.dueMailbox_ctr h)]

@[simp] theorem State.closeMailbox_pending (x : Bool) (s : State) (m : Fin 8) : (State.closeMailbox x s m).pending = s.pending := by
  unfold State.closeMailbox; (repeat' split) <;> simp
@[simp] theorem State.closeMailbox_now (x : Bool) (s : State) (m : Fin 8) : (State.closeMailbox x s m).now = s.now := by
  unfold State.closeMailbox; (repeat' split) <;> simp
@[simp] theorem State.closeMailbox_sent (x : Bool) (s : State) (m : Fin 8) : (State.closeMailbox x s m).sent = s.sent := by
  unfold State.closeMailbox; (repeat' split) <;> simp
@[simp] theorem State.closeMailbox_ctl (x : Bool) (s : State) (m : Fin 8) : (State.closeMailbox x s m).ctl = s.ctl := by
  unfold State.closeMailbox; (repeat' split) <;> simp
@[simp] theorem State.closeMailbox_trk (x : Bool) (s : State) (m : Fin 8) : (State.closeMailbox x s m).trk = s.trk := by
  unfold State.closeMailbox; (repeat' split) <;> simp
@[simp] theorem State.closeMailbox_mgmt (x : Bool) (s : State) (m : Fin 8) : (State.closeMailbox x s m).mgmt = s.mgmt := by
  unfold State.closeMailbox; (repeat' split) <;> simp
@[simp] theorem State.closeMailbox_subs (x : Bool) (s : State) (m : Fin 8) : (State.closeMailbox x s m).subs = s.subs := by
  unfold State.closeMailbox; (repeat' split) <;> simp
@[simp] theorem State.closeMailbox_inbound (x : Bool) (s : State) (m : Fin 8) : (State.closeMailbox x s m).inbound = s.inbound := by
  unfold State.closeMailbox; (repeat' split) <;> simp
@[simp] theorem State.closeMailbox_roll (x : Bool) (s : State) (m : Fin 8) : (State.closeMailbox x s m).roll = s.roll := by
  unfold State.closeMailbox; (repeat' split) <;> simp
@[simp] theorem State.closeMailbox_portW (x : Bool) (s : State) (m : Fin 8) : (State.closeMailbox x s m).portW = s.portW := by
  unfold State.closeMailbox; (repeat' split) <;> simp
@[simp] theorem State.closeMailbox_portE (x : Bool) (s : State) (m : Fin 8) : (State.closeMailbox x s m).portE = s.portE := by
  unfold State.closeMailbox; (repeat' split) <;> simp
@[simp] theorem State.closeMailbox_att (x : Bool) (s : State) (m : Fin 8) : (State.closeMailbox x s m).att = s.att := by
  unfold State.closeMailbox; (repeat' split) <;> simp
@[simp] theorem State.closeMailbox_lsp (x : Bool) (s : State) (m : Fin 8) : (State.closeMailbox x s m).lsp = s.lsp := by
  unfold State.closeMailbox; (repeat' split) <;> simp
@[simp] theorem State.closeMailbox_rst (x : Bool) (s : State) (m : Fin 8) : (State.closeMailbox x s m).rst = s.rst := by
  unfold State.closeMailbox; (repeat' split) <;> simp
@[simp] theorem State.closeMailbox_ctr (x : Bool) (s : State) (m : Fin 8) : (State.closeMailbox x s m).ctr = s.ctr := by
  unfold State.closeMailbox; (repeat' split) <;> simp

@[simp] theorem State.unconfirmedAtClose_pending (s : State) (x : Bool) : (s.unconfirmedAtClose x).pending = s.pending :=
  by unfold State.unconfirmedAtClose; rw [foldl_keeps State.pending _ (State.closeMailbox_pending x)]
@[simp] theorem State.unconfirmedAtClose_now (s : State) (x : Bool) : (s.unconfirmedAtClose x).now = s.now :=
  by unfold State.unconfirmedAtClose; rw [foldl_keeps State.now _ (State.closeMailbox_now x)]
@[simp] theorem State.unconfirmedAtClose_sent (s : State) (x : Bool) : (s.unconfirmedAtClose x).sent = s.sent :=
  by unfold State.unconfirmedAtClose; rw [foldl_keeps State.sent _ (State.closeMailbox_sent x)]
@[simp] theorem State.unconfirmedAtClose_ctl (s : State) (x : Bool) : (s.unconfirmedAtClose x).ctl = s.ctl :=
  by unfold State.unconfirmedAtClose; rw [foldl_keeps State.ctl _ (State.closeMailbox_ctl x)]
@[simp] theorem State.unconfirmedAtClose_trk (s : State) (x : Bool) : (s.unconfirmedAtClose x).trk = s.trk :=
  by unfold State.unconfirmedAtClose; rw [foldl_keeps State.trk _ (State.closeMailbox_trk x)]
@[simp] theorem State.unconfirmedAtClose_mgmt (s : State) (x : Bool) : (s.unconfirmedAtClose x).mgmt = s.mgmt :=
  by unfold State.unconfirmedAtClose; rw [foldl_keeps State.mgmt _ (State.closeMailbox_mgmt x)]
@[simp] theorem State.unconfirmedAtClose_subs (s : State) (x : Bool) : (s.unconfirmedAtClose x).subs = s.subs :=
  by unfold State.unconfirmedAtClose; rw [foldl_keeps State.subs _ (State.closeMailbox_subs x)]
@[simp] theorem State.unconfirmedAtClose_inbound (s : State) (x : Bool) : (s.unconfirmedAtClose x).inbound = s.inbound :=
  by unfold State.unconfirmedAtClose; rw [foldl_keeps State.inbound _ (State.closeMailbox_inbound x)]
@[simp] theorem State.unconfirmedAtClose_roll (s : State) (x : Bool) : (s.unconfirmedAtClose x).roll = s.roll :=
  by unfold State.unconfirmedAtClose; rw [foldl_keeps State.roll _ (State.closeMailbox_roll x)]
@[simp] theorem State.unconfirmedAtClose_portW (s : State) (x : Bool) : (s.unconfirmedAtClose x).portW = s.portW :=
  by unfold State.unconfirmedAtClose; rw [foldl_keeps State.portW _ (State.closeMailbox_portW x)]
@[simp] theorem State.unconfirmedAtClose_portE (s : State) (x : Bool) : (s.unconfirmedAtClose x).portE = s.portE :=
  by unfold State.unconfirmedAtClose; rw [foldl_keeps State.portE _ (State.closeMailbox_portE x)]
@[simp] theorem State.unconfirmedAtClose_att (s : State) (x : Bool) : (s.unconfirmedAtClose x).att = s.att :=
  by unfold State.unconfirmedAtClose; rw [foldl_keeps State.att _ (State.closeMailbox_att x)]
@[simp] theorem State.unconfirmedAtClose_lsp (s : State) (x : Bool) : (s.unconfirmedAtClose x).lsp = s.lsp :=
  by unfold State.unconfirmedAtClose; rw [foldl_keeps State.lsp _ (State.closeMailbox_lsp x)]
@[simp] theorem State.unconfirmedAtClose_rst (s : State) (x : Bool) : (s.unconfirmedAtClose x).rst = s.rst :=
  by unfold State.unconfirmedAtClose; rw [foldl_keeps State.rst _ (State.closeMailbox_rst x)]
@[simp] theorem State.unconfirmedAtClose_ctr (s : State) (x : Bool) : (s.unconfirmedAtClose x).ctr = s.ctr :=
  by unfold State.unconfirmedAtClose; rw [foldl_keeps State.ctr _ (State.closeMailbox_ctr x)]

@[simp] theorem State.abandonMailbox_pending (s : State) (m : Fin 8) : (s.abandonMailbox m).pending = s.pending := by
  unfold State.abandonMailbox; (repeat' split) <;> simp
@[simp] theorem State.abandonMailbox_now (s : State) (m : Fin 8) : (s.abandonMailbox m).now = s.now := by
  unfold State.abandonMailbox; (repeat' split) <;> simp
@[simp] theorem State.abandonMailbox_sent (s : State) (m : Fin 8) : (s.abandonMailbox m).sent = s.sent := by
  unfold State.abandonMailbox; (repeat' split) <;> simp
@[simp] theorem State.abandonMailbox_ctl (s : State) (m : Fin 8) : (s.abandonMailbox m).ctl = s.ctl := by
  unfold State.abandonMailbox; (repeat' split) <;> simp
@[simp] theorem State.abandonMailbox_trk (s : State) (m : Fin 8) : (s.abandonMailbox m).trk = s.trk := by
  unfold State.abandonMailbox; (repeat' split) <;> simp
@[simp] theorem State.abandonMailbox_mgmt (s : State) (m : Fin 8) : (s.abandonMailbox m).mgmt = s.mgmt := by
  unfold State.abandonMailbox; (repeat' split) <;> simp
@[simp] theorem State.abandonMailbox_subs (s : State) (m : Fin 8) : (s.abandonMailbox m).subs = s.subs := by
  unfold State.abandonMailbox; (repeat' split) <;> simp
@[simp] theorem State.abandonMailbox_inbound (s : State) (m : Fin 8) : (s.abandonMailbox m).inbound = s.inbound := by
  unfold State.abandonMailbox; (repeat' split) <;> simp
@[simp] theorem State.abandonMailbox_roll (s : State) (m : Fin 8) : (s.abandonMailbox m).roll = s.roll := by
  unfold State.abandonMailbox; (repeat' split) <;> simp
@[simp] theorem State.abandonMailbox_portW (s : State) (m : Fin 8) : (s.abandonMailbox m).portW = s.portW := by
  unfold State.abandonMailbox; (repeat' split) <;> simp
@[simp] theorem State.abandonMailbox_portE (s : State) (m : Fin 8) : (s.abandonMailbox m).portE = s.portE := by
  unfold State.abandonMailbox; (repeat' split) <;> simp
@[simp] theorem State.abandonMailbox_att (s : State) (m : Fin 8) : (s.abandonMailbox m).att = s.att := by
  unfold State.abandonMailbox; (repeat' split) <;> simp
@[simp] theorem State.abandonMailbox_lsp (s : State) (m : Fin 8) : (s.abandonMailbox m).lsp = s.lsp := by
  unfold State.abandonMailbox; (repeat' split) <;> simp
@[simp] theorem State.abandonMailbox_rst (s : State) (m : Fin 8) : (s.abandonMailbox m).rst = s.rst := by
  unfold State.abandonMailbox; (repeat' split) <;> simp
@[simp] theorem State.abandonMailbox_ctr (s : State) (m : Fin 8) : (s.abandonMailbox m).ctr = s.ctr := by
  unfold State.abandonMailbox; (repeat' split) <;> simp

@[simp] theorem State.enterFaulted_pending (s : State) : (s.enterFaulted).pending = s.pending :=
  by unfold State.enterFaulted; rw [foldl_keeps State.pending _ State.abandonMailbox_pending, State.setTapState_pending]
@[simp] theorem State.enterFaulted_now (s : State) : (s.enterFaulted).now = s.now :=
  by unfold State.enterFaulted; rw [foldl_keeps State.now _ State.abandonMailbox_now, State.setTapState_now]
@[simp] theorem State.enterFaulted_sent (s : State) : (s.enterFaulted).sent = s.sent :=
  by unfold State.enterFaulted; rw [foldl_keeps State.sent _ State.abandonMailbox_sent, State.setTapState_sent]
@[simp] theorem State.enterFaulted_ctl (s : State) : s.enterFaulted.ctl = { s.ctl with tapState := .faulted } := by
  unfold State.enterFaulted; rw [foldl_keeps State.ctl _ State.abandonMailbox_ctl, State.setTapState_ctl]
@[simp] theorem State.enterFaulted_trk (s : State) : (s.enterFaulted).trk = s.trk :=
  by unfold State.enterFaulted; rw [foldl_keeps State.trk _ State.abandonMailbox_trk, State.setTapState_trk]
@[simp] theorem State.enterFaulted_mgmt (s : State) : (s.enterFaulted).mgmt = s.mgmt :=
  by unfold State.enterFaulted; rw [foldl_keeps State.mgmt _ State.abandonMailbox_mgmt, State.setTapState_mgmt]
@[simp] theorem State.enterFaulted_subs (s : State) : (s.enterFaulted).subs = s.subs :=
  by unfold State.enterFaulted; rw [foldl_keeps State.subs _ State.abandonMailbox_subs, State.setTapState_subs]
@[simp] theorem State.enterFaulted_inbound (s : State) : (s.enterFaulted).inbound = s.inbound :=
  by unfold State.enterFaulted; rw [foldl_keeps State.inbound _ State.abandonMailbox_inbound, State.setTapState_inbound]
@[simp] theorem State.enterFaulted_roll (s : State) : (s.enterFaulted).roll = s.roll :=
  by unfold State.enterFaulted; rw [foldl_keeps State.roll _ State.abandonMailbox_roll, State.setTapState_roll]
@[simp] theorem State.enterFaulted_portW (s : State) : (s.enterFaulted).portW = s.portW :=
  by unfold State.enterFaulted; rw [foldl_keeps State.portW _ State.abandonMailbox_portW, State.setTapState_portW]
@[simp] theorem State.enterFaulted_portE (s : State) : (s.enterFaulted).portE = s.portE :=
  by unfold State.enterFaulted; rw [foldl_keeps State.portE _ State.abandonMailbox_portE, State.setTapState_portE]
@[simp] theorem State.enterFaulted_att (s : State) :
    s.enterFaulted.att = if s.ctl.tapState = .faulted then s.att else s.att.setSticky .state := by
  unfold State.enterFaulted; rw [foldl_keeps State.att _ State.abandonMailbox_att, State.setTapState_att]
@[simp] theorem State.enterFaulted_lsp (s : State) : (s.enterFaulted).lsp = s.lsp :=
  by unfold State.enterFaulted; rw [foldl_keeps State.lsp _ State.abandonMailbox_lsp, State.setTapState_lsp]
@[simp] theorem State.enterFaulted_rst (s : State) : (s.enterFaulted).rst = s.rst :=
  by unfold State.enterFaulted; rw [foldl_keeps State.rst _ State.abandonMailbox_rst, State.setTapState_rst]
@[simp] theorem State.enterFaulted_ctr (s : State) : (s.enterFaulted).ctr = s.ctr :=
  by unfold State.enterFaulted; rw [foldl_keeps State.ctr _ State.abandonMailbox_ctr, State.setTapState_ctr]


/-! ### The roll unit -/


@[simp] theorem State.updateCensus_pending (s : State) (l : List RollEntry) : (s.updateCensus l).pending = s.pending := by
  unfold State.updateCensus; split <;> simp [State.withCensus]
@[simp] theorem State.updateCensus_now (s : State) (l : List RollEntry) : (s.updateCensus l).now = s.now := by
  unfold State.updateCensus; split <;> simp [State.withCensus]
@[simp] theorem State.updateCensus_sent (s : State) (l : List RollEntry) : (s.updateCensus l).sent = s.sent := by
  unfold State.updateCensus; split <;> simp [State.withCensus]
@[simp] theorem State.updateCensus_ctl (s : State) (l : List RollEntry) : (s.updateCensus l).ctl = s.ctl := by
  unfold State.updateCensus; split <;> simp [State.withCensus]
@[simp] theorem State.updateCensus_trk (s : State) (l : List RollEntry) : (s.updateCensus l).trk = s.trk := by
  unfold State.updateCensus; split <;> simp [State.withCensus]
@[simp] theorem State.updateCensus_mgmt (s : State) (l : List RollEntry) : (s.updateCensus l).mgmt = s.mgmt := by
  unfold State.updateCensus; split <;> simp [State.withCensus]
@[simp] theorem State.updateCensus_subs (s : State) (l : List RollEntry) : (s.updateCensus l).subs = s.subs := by
  unfold State.updateCensus; split <;> simp [State.withCensus]
@[simp] theorem State.updateCensus_sched (s : State) (l : List RollEntry) : (s.updateCensus l).sched = s.sched := by
  unfold State.updateCensus; split <;> simp [State.withCensus]
@[simp] theorem State.updateCensus_inbound (s : State) (l : List RollEntry) : (s.updateCensus l).inbound = s.inbound := by
  unfold State.updateCensus; split <;> simp [State.withCensus]
@[simp] theorem State.updateCensus_portW (s : State) (l : List RollEntry) : (s.updateCensus l).portW = s.portW := by
  unfold State.updateCensus; split <;> simp [State.withCensus]
@[simp] theorem State.updateCensus_portE (s : State) (l : List RollEntry) : (s.updateCensus l).portE = s.portE := by
  unfold State.updateCensus; split <;> simp [State.withCensus]
@[simp] theorem State.updateCensus_att (s : State) (l : List RollEntry) : (s.updateCensus l).att = s.att := by
  unfold State.updateCensus; split <;> simp [State.withCensus]
@[simp] theorem State.updateCensus_lsp (s : State) (l : List RollEntry) : (s.updateCensus l).lsp = s.lsp := by
  unfold State.updateCensus; split <;> simp [State.withCensus]
@[simp] theorem State.updateCensus_rst (s : State) (l : List RollEntry) : (s.updateCensus l).rst = s.rst := by
  unfold State.updateCensus; split <;> simp [State.withCensus]
@[simp] theorem State.updateCensus_ctr (s : State) (l : List RollEntry) : (s.updateCensus l).ctr = s.ctr := by
  unfold State.updateCensus; split <;> simp [State.withCensus]

/-- The census update leaves what it says in the roll unit, whatever follows the change. -/
theorem State.updateCensus_roll (s : State) (l : List RollEntry) : (s.updateCensus l).roll = (s.withCensus l).roll := by
  unfold State.updateCensus; split <;> simp

/-- A CENSUS_CHANGE is raised where the presence of some record changed (R133). -/
theorem State.presenceChanges_iff (s : State) (l : List RollEntry) :
    s.presenceChanges l = true ↔ ∃ st : Fin 63, (s.nextCensus l)[st].presence ≠ s.roll.census[st].presence := by
  unfold State.presenceChanges
  rw [List.any_eq_true]
  constructor
  · rintro ⟨st, _, h⟩
    exact ⟨st, of_decide_eq_true h⟩
  · rintro ⟨st, h⟩
    exact ⟨st, List.mem_finRange st, decide_eq_true h⟩

end Sys2Proof.Machine
end

