-- ==== Sys2Proof/Laws/Close.lean ====
section
/-! SUPPORT. What a close does, field by field (R33, R47, R87, R124, R131), and what it leaves alone. -/

namespace Sys2Proof.Machine

set_option Elab.async false

/-! A close leaves these alone. -/

@[simp] theorem State.close_pending (s : State) (k : CloseKind) (l : Option (List RollEntry)) : (s.close k l).pending = s.pending := by
  unfold State.close
  cases k <;> cases l <;> simp [State.closePulse, State.endRecord, State.countRestartClose] <;> split <;> simp

@[simp] theorem State.close_now (s : State) (k : CloseKind) (l : Option (List RollEntry)) : (s.close k l).now = s.now := by
  unfold State.close
  cases k <;> cases l <;> simp [State.closePulse, State.endRecord, State.countRestartClose] <;> split <;> simp

@[simp] theorem State.close_sent (s : State) (k : CloseKind) (l : Option (List RollEntry)) : (s.close k l).sent = s.sent := by
  unfold State.close
  cases k <;> cases l <;> simp [State.closePulse, State.endRecord, State.countRestartClose] <;> split <;> simp

@[simp] theorem State.close_ctl (s : State) (k : CloseKind) (l : Option (List RollEntry)) : (s.close k l).ctl = s.ctl := by
  unfold State.close
  cases k <;> cases l <;> simp [State.closePulse, State.endRecord, State.countRestartClose] <;> split <;> simp

@[simp] theorem State.close_inbound (s : State) (k : CloseKind) (l : Option (List RollEntry)) : (s.close k l).inbound = s.inbound := by
  unfold State.close
  cases k <;> cases l <;> simp [State.closePulse, State.endRecord, State.countRestartClose] <;> split <;> simp

@[simp] theorem State.close_portW (s : State) (k : CloseKind) (l : Option (List RollEntry)) : (s.close k l).portW = s.portW := by
  unfold State.close
  cases k <;> cases l <;> simp [State.closePulse, State.endRecord, State.countRestartClose] <;> split <;> simp

@[simp] theorem State.close_portE (s : State) (k : CloseKind) (l : Option (List RollEntry)) : (s.close k l).portE = s.portE := by
  unfold State.close
  cases k <;> cases l <;> simp [State.closePulse, State.endRecord, State.countRestartClose] <;> split <;> simp

@[simp] theorem State.close_lsp (s : State) (k : CloseKind) (l : Option (List RollEntry)) : (s.close k l).lsp = s.lsp := by
  unfold State.close
  cases k <;> cases l <;> simp [State.closePulse, State.endRecord, State.countRestartClose] <;> split <;> simp

@[simp] theorem State.close_rst (s : State) (k : CloseKind) (l : Option (List RollEntry)) : (s.close k l).rst = s.rst := by
  unfold State.close
  cases k <;> cases l <;> simp [State.closePulse, State.endRecord, State.countRestartClose] <;> split <;> simp

@[simp] theorem State.close_unit (s : State) (k : CloseKind) (l : Option (List RollEntry)) (p : Port) :
    (s.close k l).unit p = s.unit p := by cases p <;> simp [State.unit]

/-- The tracker at a close: the record ends, but at a MISSED close (R33). -/
@[simp] theorem State.close_trk (s : State) (k : CloseKind) (l : Option (List RollEntry)) :
    (s.close k l).trk =
      if k = .missed then s.trk else { s.trk with record := .idle, expected := none, defect := false, gapTimer := none } := by
  unfold State.close
  cases k <;> cases l <;> simp [State.closePulse, State.endRecord, State.countRestartClose] <;> split <;> simp

/-- The management unit at a close: a pending restart counts it, up to 2 (R124). -/
@[simp] theorem State.close_mgmt (s : State) (k : CloseKind) (l : Option (List RollEntry)) :
    (s.close k l).mgmt =
      { s.mgmt with pendingRestart := s.mgmt.pendingRestart.map fun x => { x with closes := min 2 (x.closes + 1) } } := by
  unfold State.close
  cases k <;> cases l <;> simp [State.closePulse, State.endRecord, State.countRestartClose] <;> split <;> simp

/-- The roll unit moves only where a closed roll is given (R131). -/
@[simp] theorem State.close_roll_none (s : State) (k : CloseKind) : (s.close k none).roll = s.roll := by
  unfold State.close
  cases k <;> simp [State.closePulse, State.endRecord, State.countRestartClose] <;> split <;> simp

theorem State.close_roll_some (s : State) (k : CloseKind) (l : List RollEntry) :
    (s.close k (some l)).roll =
      { s.roll with
        census := s.nextCensus l
        anonymous := anonymousCount l
        censusCycle := some s.trk.lastCycle } := by
  unfold State.close
  cases k <;>
    simp [State.closePulse, State.endRecord, State.countRestartClose, State.updateCensus_roll, State.withCensus,
      State.nextCensus] <;>
    split <;> simp

/-- Every per-cycle flag is clear after a close (R47). -/
theorem State.close_cycleFlags (s : State) (k : CloseKind) (l : Option (List RollEntry)) (e : Fin 32) :
    (s.close k l).subs[e].captured = false ∧ (s.close k l).subs[e].freshNow = false := by
  unfold State.close
  cases k <;> cases l <;>
    simp [State.closePulse, State.endRecord, State.countRestartClose, State.clearCycleFlags]

/-! ### Counters -/

/-- Two records of counters that agree but for one are one, given that one. -/
theorem TapCounters.of_fillFailures {a b : TapCounters}
    (h : ({ a with fillFailures := 0 } : TapCounters) = { b with fillFailures := 0 }) :
    a = { b with fillFailures := a.fillFailures } :=
  congrArg (fun c : TapCounters => { c with fillFailures := a.fillFailures }) h

theorem TapCounters.of_staleTransitions {a b : TapCounters}
    (h : ({ a with staleTransitions := 0 } : TapCounters) = { b with staleTransitions := 0 }) :
    a = { b with staleTransitions := a.staleTransitions } :=
  congrArg (fun c : TapCounters => { c with staleTransitions := a.staleTransitions }) h

/-- Judging the banks counts the incomplete ones and nothing else (R48). -/
theorem State.judgeBanks_ctr (s : State) : s.judgeBanks.ctr = { s.ctr with fillFailures := s.judgeBanks.ctr.fillFailures } := by
  apply TapCounters.of_fillFailures
  unfold State.judgeBanks
  refine foldl_keeps (fun t : State => ({ t.ctr with fillFailures := 0 } : TapCounters)) _ ?_ _ _
  intro t b
  unfold State.judgeBank
  (repeat' split) <;> simp

/-- Aging counts the stale transitions and nothing else (R50). -/
theorem State.ageAll_ctr (s : State) : s.ageAll.ctr = { s.ctr with staleTransitions := s.ageAll.ctr.staleTransitions } := by
  apply TapCounters.of_staleTransitions
  unfold State.ageAll
  refine foldl_keeps (fun t : State => ({ t.ctr with staleTransitions := 0 } : TapCounters)) _ ?_ _ _
  intro t e
  unfold State.ageEntry
  dsimp only
  (repeat' split) <;> simp

/-- Where a close's counters come from. -/
theorem State.close_ctr_eq (s : State) (k : CloseKind) (l : Option (List RollEntry)) :
    (s.close k l).ctr =
      (if k.judges && s.trk.beganOnline then (s.count k.tally).judgeBanks else s.count k.tally).ageAll.ctr := by
  unfold State.close
  cases k <;> cases l <;> simp [State.closePulse, State.endRecord, State.countRestartClose]

/-- The counters at a close: its own tally, the incomplete banks and the stale transitions (R33, R48, R50). -/
theorem State.close_ctr (s : State) (k : CloseKind) (l : Option (List RollEntry)) :
    ∃ a b : Word, (s.close k l).ctr = { k.tally s.ctr with fillFailures := a, staleTransitions := b } := by
  rw [State.close_ctr_eq]
  split
  · rw [State.ageAll_ctr, State.judgeBanks_ctr]
    exact ⟨_, _, rfl⟩
  · rw [State.ageAll_ctr]
    exact ⟨_, _, rfl⟩

/-- A close that judges no bank counts none incomplete (R48). -/
theorem State.close_fillFailures (s : State) (k : CloseKind) (l : Option (List RollEntry)) (h : k.judges = false) :
    (s.close k l).ctr.fillFailures = s.ctr.fillFailures := by
  rw [State.close_ctr_eq, h, Bool.false_and, if_neg Bool.false_ne_true, State.ageAll_ctr]
  cases k <;> rfl

/-! ### Attention -/

theorem Attention.of_stale {a b : Attention} (h : ({ a with stale := false } : Attention) = { b with stale := false }) :
    a = { b with stale := a.stale } := congrArg (fun c : Attention => { c with stale := a.stale }) h

/-- A close may make STALE pending and moves no other cause (R50, R158). -/
theorem State.close_att (s : State) (k : CloseKind) (l : Option (List RollEntry)) :
    ∃ x : Bool, (s.close k l).att = { s.att with stale := x } := by
  have aged : ∀ t : State, ∃ x : Bool, t.ageAll.att = { t.att with stale := x } := by
    intro t
    have h : ({ t.ageAll.att with stale := false } : Attention) = { t.att with stale := false } := by
      unfold State.ageAll
      refine foldl_keeps (fun t : State => ({ t.att with stale := false } : Attention)) _ ?_ _ _
      intro t e
      unfold State.ageEntry
      dsimp only
      (repeat' split) <;> simp [Attention.setSticky]
    exact ⟨_, Attention.of_stale h⟩
  have e : (s.close k l).att =
      (if k.judges && s.trk.beganOnline then (s.count k.tally).judgeBanks else s.count k.tally).ageAll.att := by
    unfold State.close
    cases k <;> cases l <;> simp [State.closePulse, State.endRecord, State.countRestartClose]
  rw [e]
  split
  · obtain ⟨x, h⟩ := aged (s.count k.tally).judgeBanks
    exact ⟨x, by rw [h, State.judgeBanks_att, State.count_att]⟩
  · obtain ⟨x, h⟩ := aged (s.count k.tally)
    exact ⟨x, by rw [h, State.count_att]⟩

end Sys2Proof.Machine
end

