-- ==== Sys2Proof/Laws/CloseElsewhere.lean ====
section
/-! SUPPORT. A close, the roll unit's decisions and the entry into FAULTED neither read nor move the port units and the gap timer: what
they do is the same whatever those hold, so a frame's counting at its port and the close it causes may be taken apart. -/

namespace Sys2Proof.Machine

/-- What a pass of a fold commutes with, the fold commutes with. -/
theorem foldl_commutes {α γ : Type} (φ : α → α) (g : α → γ → α) (h : ∀ a x, g (φ a) x = φ (g a x)) (l : List γ) (a : α) :
    l.foldl g (φ a) = φ (l.foldl g a) := by
  induction l generalizing a with
  | nil => rfl
  | cons x l ih => rw [List.foldl_cons, List.foldl_cons, h, ih]

/-- The tap with other port units and another gap timer. -/
def State.withUnits (s : State) (w e : PortUnit) (g : Option Nat) : State :=
  { s with portW := w, portE := e, trk := { s.trk with gapTimer := g } }

theorem State.raise_withUnits (s : State) (w e : PortUnit) (g : Option Nat) (x : Source) :
    (s.withUnits w e g).raise x = (s.raise x).withUnits w e g := rfl

theorem State.judgeBank_withUnits (w e : PortUnit) (g : Option Nat) (s : State) (b : Fin 8) :
    (s.withUnits w e g).judgeBank b = (s.judgeBank b).withUnits w e g := by
  unfold State.judgeBank
  show (if s.owed b = true then (if s.allCaptured b = true then _ else _) else _) = _
  split
  · split
    · unfold State.completeBank
      dsimp only
      show (if (({ s with rx := upd s.rx b (s.rx[b].complete s.trk.lastCycle) } : State).raise (.bankReady b)).rx[b].hold = true
        then _ else _) = _
      split <;> rfl
    · rfl
  · rfl

theorem State.judgeBanks_withUnits (w e : PortUnit) (g : Option Nat) (s : State) :
    (s.withUnits w e g).judgeBanks = s.judgeBanks.withUnits w e g := by
  have := foldl_commutes (fun s : State => s.withUnits w e g) State.judgeBank
    (fun a x => State.judgeBank_withUnits w e g a x) (List.finRange 8) s
  exact this

theorem State.ageEntry_withUnits (w e : PortUnit) (g : Option Nat) (s : State) (b : Fin 32) :
    (s.withUnits w e g).ageEntry b = (s.ageEntry b).withUnits w e g := by
  unfold State.ageEntry
  dsimp only
  show (if s.mgmt.active.subs[b].valid = true then
    (if s.subs[b].freshNow = true then (if s.subs[b].freshness = .fresh then _ else _)
      else (if s.subs[b].freshness ≠ .stale ∧ (s.subs[b].agedOlder s.mgmt.active.subs[b].ageLimit).freshness = .stale
        then _ else _)) else _) = _
  repeat' split
  all_goals rfl

theorem State.ageAll_withUnits (w e : PortUnit) (g : Option Nat) (s : State) :
    (s.withUnits w e g).ageAll = s.ageAll.withUnits w e g := by
  have := foldl_commutes (fun s : State => s.withUnits w e g) State.ageEntry
    (fun a x => State.ageEntry_withUnits w e g a x) (List.finRange 32) s
  exact this

theorem State.closeMailbox_withUnits (w e : PortUnit) (g : Option Nat) (missed : Bool) (s : State) (m : Fin 8) :
    State.closeMailbox missed (s.withUnits w e g) m = (State.closeMailbox missed s m).withUnits w e g := by
  have h : (s.withUnits w e g).mailbox m = s.mailbox m := rfl
  unfold State.closeMailbox
  rw [h]
  cases (s.mailbox m).state with
  | inFlight f due => dsimp only; cases due || missed <;> rfl
  | free => rfl
  | waiting => rfl
  | done o f => rfl

theorem State.unconfirmedAtClose_withUnits (w e : PortUnit) (g : Option Nat) (s : State) (missed : Bool) :
    (s.withUnits w e g).unconfirmedAtClose missed = (s.unconfirmedAtClose missed).withUnits w e g := by
  have := foldl_commutes (fun s : State => s.withUnits w e g) (State.closeMailbox missed)
    (fun a x => State.closeMailbox_withUnits w e g missed a x) (List.finRange 8) s
  exact this

theorem State.updateCensus_withUnits (w e : PortUnit) (g : Option Nat) (s : State) (l : List RollEntry) :
    (s.withUnits w e g).updateCensus l = (s.updateCensus l).withUnits w e g := by
  unfold State.updateCensus
  show (if s.presenceChanges l = true then _ else _) = _
  split <;> rfl

/-- A close that ends the record stops the gap timer, whatever it was. -/
theorem State.close_withUnits (s : State) (k : CloseKind) (l : Option (List RollEntry)) (w e : PortUnit) (g : Option Nat)
    (hk : k ≠ .missed) : (s.withUnits w e g).close k l = (s.close k l).withUnits w e none := by
  have h1 : ∀ (s : State) f, (s.withUnits w e g).count f = (s.count f).withUnits w e g := fun _ _ => rfl
  have h2 : ∀ s : State, (s.withUnits w e g).clearCycleFlags = s.clearCycleFlags.withUnits w e g := fun _ => rfl
  have h3 : ∀ s : State, (s.withUnits w e g).countRestartClose = s.countRestartClose.withUnits w e g := fun _ => rfl
  have h4 : ∀ s : State, (s.withUnits w e g).endRecord = s.endRecord.withUnits w e none := fun _ => rfl
  have h5 : ∀ (s : State) g, (s.withUnits w e g).closePulse k = (s.closePulse k).withUnits w e g := fun s g => by
    cases k
    · exact State.raise_withUnits s _ _ _ .trainGood
    · exact State.raise_withUnits s _ _ _ .trainBad
    · exact State.raise_withUnits s _ _ _ .trainBad
    · rfl
  have h6 : ∀ s : State, (s.withUnits w e g).trk.beganOnline = s.trk.beganOnline := fun _ => rfl
  unfold State.close
  simp only [h1, if_neg hk, h6, State.count_trk]
  cases l <;> by_cases hh : (k.judges && s.trk.beganOnline) = true <;>
    simp only [hh, if_true, if_false, Bool.false_eq_true, State.judgeBanks_withUnits, State.ageAll_withUnits, h2,
      State.unconfirmedAtClose_withUnits, h3, h4, h5, State.updateCensus_withUnits]

/-- A close after a change at one port unit, the gap timer as it may be, is the close and then that change. -/
theorem State.close_modUnit (s : State) (k : CloseKind) (l : Option (List RollEntry)) (p : Port) (c : PortUnit → PortUnit)
    (g : Option Nat) (hk : k ≠ .missed) :
    State.close (State.modUnit { s with trk := { s.trk with gapTimer := g } } p c) k l = (State.close s k l).modUnit p c := by
  have z : (s.close k l).trk.gapTimer = none := by simp [State.close_trk, hk]
  have w : (s.close k l).portW = s.portW := by simp
  have e : (s.close k l).portE = s.portE := by simp
  have back : ∀ (t : State) (a b : PortUnit), t.trk.gapTimer = none → t.withUnits a b none = { t with portW := a, portE := b } := by
    intro t a b h
    unfold State.withUnits
    rw [← h]
  cases p
  · refine (State.close_withUnits s k l (c s.portW) s.portE g hk).trans ?_
    rw [back _ _ _ z, ← w, ← e]
    rfl
  · refine (State.close_withUnits s k l s.portW (c s.portE) g hk).trans ?_
    rw [back _ _ _ z, ← w, ← e]
    rfl

/-! ### The roll unit -/

theorem State.abandonMailbox_withUnits (w e : PortUnit) (g : Option Nat) (s : State) (m : Fin 8) :
    State.abandonMailbox (s.withUnits w e g) m = (State.abandonMailbox s m).withUnits w e g := by
  have h : (s.withUnits w e g).mailbox m = s.mailbox m := rfl
  unfold State.abandonMailbox
  rw [h]
  cases (s.mailbox m).state <;> rfl

theorem State.setTapState_withUnits (w e : PortUnit) (g : Option Nat) (s : State) (x : TapState) :
    State.setTapState (s.withUnits w e g) x = (State.setTapState s x).withUnits w e g := by
  unfold State.setTapState
  show (if s.ctl.tapState = x then _ else _) = _
  split <;> rfl

theorem State.enterFaulted_withUnits (w e : PortUnit) (g : Option Nat) (s : State) :
    (s.withUnits w e g).enterFaulted = s.enterFaulted.withUnits w e g := by
  unfold State.enterFaulted
  rw [State.setTapState_withUnits]
  have := foldl_commutes (fun s : State => s.withUnits w e g) State.abandonMailbox
    (fun a x => State.abandonMailbox_withUnits w e g a x) (List.finRange 8) (s.setTapState .faulted)
  exact this

theorem State.rollEffect_withUnits (w e : PortUnit) (g : Option Nat) (s : State) (d : RollDecision) (f : RollFrame) :
    (s.withUnits w e g).rollEffect d f = (s.rollEffect d f).withUnits w e g := by
  cases d
  · rfl
  · exact State.enterFaulted_withUnits ..
  · rfl
  · rfl
  · rfl

@[simp] theorem State.rollEffect_trk (s : State) (d : RollDecision) (f : RollFrame) : (s.rollEffect d f).trk = s.trk := by
  cases d <;> simp [State.rollEffect]

@[simp] theorem State.rollEffect_mgmt (s : State) (d : RollDecision) (f : RollFrame) : (s.rollEffect d f).mgmt = s.mgmt := by
  cases d <;> simp [State.rollEffect]

@[simp] theorem State.rollEffect_sent (s : State) (d : RollDecision) (f : RollFrame) : (s.rollEffect d f).sent = s.sent := by
  cases d <;> simp [State.rollEffect]

/-- A decision after a change at one port unit, the gap timer as it may be, is the decision and then that change. -/
theorem State.rollEffect_modUnit (s : State) (d : RollDecision) (f : RollFrame) (p : Port) (c : PortUnit → PortUnit)
    (g : Option Nat) :
    (State.modUnit { s with trk := { s.trk with gapTimer := g } } p c).rollEffect d f =
      State.modUnit { s.rollEffect d f with trk := { (s.rollEffect d f).trk with gapTimer := g } } p c := by
  have w : (s.rollEffect d f).portW = s.portW := by cases d <;> simp [State.rollEffect]
  have e : (s.rollEffect d f).portE = s.portE := by cases d <;> simp [State.rollEffect]
  cases p
  · refine (State.rollEffect_withUnits (c s.portW) s.portE g s d f).trans ?_
    rw [← w, ← e]
    rfl
  · refine (State.rollEffect_withUnits s.portW (c s.portE) g s d f).trans ?_
    rw [← w, ← e]
    rfl

end Sys2Proof.Machine
end

