-- ==== Sys2Proof/Laws/Frames.lean ====
section
/-! SUPPORT. A frame from its beginning to its leaving: what each stage of `State.receive` does at a port that listens. -/

namespace Sys2Proof.Machine

/-! ### Stages -/

/-- The passage of time does not move a route. -/
@[simp] theorem State.route_elapse (s : State) (dt : Nat) (p : Port) : (s.elapse dt).route p = s.route p := rfl

@[simp] theorem State.unit_elapse (s : State) (dt : Nat) (p : Port) : (s.elapse dt).unit p = s.unit p := by cases p <;> rfl

theorem State.listens_elapse {s : State} {p : Port} (h : s.listens p) (dt : Nat) : (s.elapse dt).listens p := by
  simpa [State.listens] using h

theorem State.lineFree_elapse {s : State} {p : Port} (h : s.lineFree p) (dt : Nat) : (s.elapse dt).lineFree p := by
  simpa [State.lineFree] using h

/-- A frame whose beginning was no command of its own: the beginning and the end in one. -/
theorem State.receive_whole (s : State) (p : Port) (f : Frame) (fcs : Option Fcs) (act : Arriving → Check → State → Passed)
    (hb : s.ctl.tapState ≠ .bypass) (ha : (s.unit p).arriving = none) :
    s.receive p f fcs act =
      let check := f.outcome fcs
      let a := s.arrivalOf p f.lead
      let s1 := ((s.beginArrival p f.lead).modUnit p fun u => { u with arriving := none }).countFrame p a check
      let r := act a check s1
      let s2 := r.state.countLost a check
      let s3 := s2.forward a (outgoing r.frame check fcs) (a.writes ≠ [] && check = .good)
        (!s1.restartPlaced && r.state.restartPlaced)
      s3.windowAdd p (check = .bad) := by
  simp [State.receive, State.inBypass, hb, State.arrived, ha]

/-- In BYPASS a frame crosses (R144). -/
theorem State.receive_bypass (s : State) (p : Port) (f : Frame) (fcs : Option Fcs) (act : Arriving → Check → State → Passed)
    (hb : s.ctl.tapState = .bypass) : s.receive p f fcs act = s.bypassFrame p f fcs := by
  simp [State.receive, State.inBypass, hb]

/-- What a listening port decides of a frame that begins, the over-turned header apart. -/
theorem State.sees_listening {s : State} {p : Port} (h : s.listens p) (lead : Lead) (he : lead ≠ .echo)
    (ho : lead ≠ .header 3#2 ∨ s.route p ≠ some p) : s.sees p lead = true ∧ s.discardAfter p lead = false := by
  obtain ⟨_, hin, _, hd⟩ := h
  have hov : s.overTurns p lead = false := by
    rcases ho with ho | ho <;> simp [State.overTurns, State.turns, ho]
  cases lead <;> simp_all [State.sees, State.discards, State.discardAfter]

theorem State.arrivalOf_out {s : State} {p : Port} {lead : Lead} (h : s.sees p lead = true) :
    (s.arrivalOf p lead).out = s.route p := by simp [State.arrivalOf, h]

theorem State.arrivalOf_seen (s : State) (p : Port) (lead : Lead) : (s.arrivalOf p lead).seen = s.sees p lead := rfl

/-- The beginning of a frame that a listening port sees: the gap timer stops where the record is the port's (R30). -/
theorem State.beginArrival_listening {s : State} {p : Port} {lead : Lead} (h : s.sees p lead = true)
    (hd : s.discardAfter p lead = false) :
    s.beginArrival p lead =
      State.stopGap (s.modUnit p fun u => { u with arriving := some (s.arrivalOf p lead), discard := false }) p := by
  simp [State.beginArrival, State.arrivalOf_seen, h, hd]

/-- The good outcome in the error window of a port (R137). -/
theorem State.windowAdd_good (s : State) (p : Port) :
    s.windowAdd p false =
      s.modUnit p fun u => if u.monitor = .up then { u with window := windowPush u.window false } else u := by
  unfold State.windowAdd
  split
  · rename_i h
    cases p <;> simp_all [State.modUnit, State.setUnit, State.unit]
  · rename_i h
    cases p <;> simp_all [State.modUnit, State.setUnit, State.unit]

/-- A frame leaves at once where no ECHO is being sent; the restart's mark is set only for its response (R2, R124, R145). -/
theorem State.forward_free (s : State) (a : Arriving) (out : Port) (x : SentContent) (written : Bool) (ho : a.out = some out)
    (hf : (s.unit out).tx = none) : s.forward a x written false = s.emit out x := by
  simp [State.forward, ho, State.sendOut, hf, State.depart]

theorem State.forward_none (s : State) (a : Arriving) (x : SentContent) (written restarts : Bool) (ho : a.out = none) :
    s.forward a x written restarts = s := by
  simp [State.forward, ho]

/-- A good frame is not lost (R78). -/
@[simp] theorem State.countLost_good (s : State) (a : Arriving) : s.countLost a .good = s := by simp [State.countLost]

/-! ### A good frame at a listening port -/

/-- The tap as a frame that a listening port sees has arrived whole and good, before the frame's own effect: the gap timer has
stopped and the frame is counted. -/
def State.counted (s : State) (p : Port) (unknown : Bool) : State :=
  (s.stopGap p).modUnit p fun u =>
    { u with
      arriving := none
      discard := false
      counters := { u.counters with
        frames := satInc u.counters.frames
        unknownKind := if unknown then satInc u.counters.unknownKind else u.counters.unknownKind } }

theorem State.stopGap_modUnit (s : State) (p : Port) (g : PortUnit → PortUnit) :
    (s.modUnit p g).stopGap p = (s.stopGap p).modUnit p g := by
  unfold State.stopGap
  simp only [State.modUnit_trk]
  split <;> cases p <;> rfl

/-- A good frame that a listening port sees, with its line free: its own effect, then it departs with a correct check, then it
counts as good in the error window. -/
theorem State.receive_departs {s : State} {p : Port} (f : Frame) (act : Arriving → Check → State → Passed) (hl : s.listens p)
    (hf : s.lineFree p) (he : f.lead ≠ .echo) (ho : f.lead ≠ .header 3#2 ∨ s.route p ≠ some p)
    (htx : ∀ q, ((act (s.arrivalOf p f.lead) .good (s.counted p (decide (f.lead = .unknown)))).state.unit q).tx = (s.unit q).tx) :
    s.receive p f (some f.check) act =
      let r := act (s.arrivalOf p f.lead) .good (s.counted p (decide (f.lead = .unknown)))
      (match s.route p with
        | some out =>
          r.state.depart out
            ⟨.whole r.frame r.frame.check, decide ((s.arrivalOf p f.lead).writes ≠ []), !s.restartPlaced && r.state.restartPlaced⟩
        | none => r.state).windowAdd p false := by
  obtain ⟨hs, hd⟩ := State.sees_listening hl f.lead he ho
  have hov : s.overTurns p f.lead = false := by
    rcases ho with ho | ho <;> simp [State.overTurns, State.turns, ho]
  rw [State.receive_whole _ _ _ _ _ hl.1 hl.2.2.1]
  have hc : ((s.beginArrival p f.lead).modUnit p fun u => { u with arriving := none }).countFrame p
      (s.arrivalOf p f.lead) .good = s.counted p (decide (f.lead = .unknown)) := by
    rw [State.beginArrival_listening hs hd, State.stopGap_modUnit]
    have hot : (s.arrivalOf p f.lead).overTurn = false := hov
    have hle : (s.arrivalOf p f.lead).lead = f.lead := rfl
    simp only [State.countFrame, hot, hle, State.countPort, State.modUnit_modUnit, State.counted, PortUnit.count,
      PortCounters.received, Bool.false_eq_true, false_and, if_false, reduceCtorEq]
  simp only [outcome_good, hc, State.countLost_good, outgoing, outgoingCheck, if_true, decide_false, reduceCtorEq,
    decide_true, Bool.and_true]
  have hr0 : (s.counted p (decide (f.lead = .unknown))).restartPlaced = s.restartPlaced := by
    have : (s.counted p (decide (f.lead = .unknown))).mgmt = s.mgmt := by
      unfold State.counted State.stopGap
      split <;> simp
    simp [State.restartPlaced, this]
  rw [hr0]
  cases hro : s.route p with
  | none =>
    rw [State.forward_none _ _ _ _ _ (by rw [State.arrivalOf_out hs]; exact hro)]
  | some out =>
    have hout : (s.arrivalOf p f.lead).out = some out := by rw [State.arrivalOf_out hs]; exact hro
    simp only [State.forward, hout, State.sendOut, htx, hf out hro, Option.isSome_none, Bool.false_eq_true, if_false]

/-- The same where the effect places no restart's response, as no frame's does but a container's: the frame only leaves. -/
theorem State.receive_good {s : State} {p : Port} (f : Frame) (act : Arriving → Check → State → Passed) (hl : s.listens p)
    (hf : s.lineFree p) (he : f.lead ≠ .echo) (ho : f.lead ≠ .header 3#2 ∨ s.route p ≠ some p)
    (htx : ∀ q, ((act (s.arrivalOf p f.lead) .good (s.counted p (decide (f.lead = .unknown)))).state.unit q).tx = (s.unit q).tx)
    (hrs : (act (s.arrivalOf p f.lead) .good (s.counted p (decide (f.lead = .unknown)))).state.restartPlaced = s.restartPlaced) :
    s.receive p f (some f.check) act =
      let r := act (s.arrivalOf p f.lead) .good (s.counted p (decide (f.lead = .unknown)))
      (match s.route p with
        | some out => r.state.emit out (.whole r.frame r.frame.check)
        | none => r.state).windowAdd p false := by
  rw [State.receive_departs f act hl hf he ho htx]
  simp only [hrs, Bool.not_and_self, State.depart, Bool.false_eq_true, if_false]

/-! ### A frame with any check -/

/-- A publish lost is counted by the tap, not by a port (R78). -/
@[simp] theorem State.unit_countLost (s : State) (a : Arriving) (check : Check) (q : Port) :
    (s.countLost a check).unit q = s.unit q := by
  unfold State.countLost State.countPublishLost
  split <;> cases q <;> rfl

/-- What a listening port decides is what the model decides as the frame begins (R2, R26, R75, R125). -/
theorem State.arrivalOf_listening {s : State} {p : Port} {lead : Lead} (h : s.listens p) (he : lead ≠ .echo)
    (ho : lead ≠ .header 3#2 ∨ s.route p ≠ some p) : s.arrivalOf p lead = s.decides p lead := by
  obtain ⟨hs, _⟩ := State.sees_listening h lead he ho
  have hv : s.overTurns p lead = false := by
    rcases ho with ho | ho <;> simp [State.overTurns, State.turns, ho]
  have hw : s.isWrapped = (s.portW.inService != s.portE.inService) :=
    (by decide : ∀ a b, (decide (wrapOf a b = .wrapW) || decide (wrapOf a b = .wrapE)) = (a != b)) s.portW.inService s.portE.inService
  have hh : ∀ n, lead = .block n → s.handsOn p lead =
      (decide (s.trk.record = .inTrain p) && decide (s.trk.expected = some (.block n.toNat)) && decide (s.ctl.tapState = .online)) := by
    rintro n rfl
    simp only [State.handsOn, hs, Bool.true_and]
    cases decide (s.ctl.tapState = .online) <;> simp
  unfold State.arrivalOf State.decides
  simp only [hs, hv, if_true, State.rollTaken, State.rollSample, hw]
  cases lead <;> simp_all [State.handsOn, State.isUp, State.unit]
  rfl

/-- A listening port meets a frame that is one command, with what is decided now. -/
theorem State.meets_of_listens {s : State} {p : Port} {lead : Lead} (h : s.listens p)
    (ho : lead ≠ .header 3#2 ∨ s.route p ≠ some p) : s.meets p lead (s.decides p lead) :=
  ⟨h.1, rfl, rfl, rfl, fun hb => by cases lead <;> first | rfl | exact absurd rfl (hb _), .inr ⟨h, ho, rfl⟩⟩

/-- A port meets the end of a frame that began there earlier, with what was decided then. -/
theorem State.meets_of_arriving {s : State} {p : Port} {a : Arriving} (ha : (s.unit p).arriving = some a)
    (hb : s.ctl.tapState ≠ .bypass) (hs : a.seen = true) (ho : a.overTurn = false)
    (hw : (∀ n, a.lead ≠ .block n) → a.writes = []) : s.meets p a.lead a := ⟨hb, rfl, hs, ho, hw, .inl ha⟩

/-- A frame that the tracker sees, as `State.receive` takes it, whenever its beginning came: up to the frame's own effect only the
port's counting and, at the record's port, the gap timer move, and the effect is given the decisions. -/
theorem State.receive_meets {s : State} {p : Port} {f : Frame} {a : Arriving} (hm : s.meets p f.lead a) (he : f.lead ≠ .echo)
    (fcs : Option Fcs) (act : Arriving → Check → State → Passed) :
    s.receive p f fcs act =
      let gap := if (s.unit p).arriving = none ∧ s.trk.record.port = some p then none else s.trk.gapTimer
      let check := f.outcome fcs
      let s1 := State.modUnit { s with trk := { s.trk with gapTimer := gap } } p fun u =>
        { u with arriving := none, counters := u.counters.received check (decide (f.lead = .unknown)) }
      let r := act a check s1
      let s2 := r.state.countLost a check
      let s3 := s2.forward a (outgoing r.frame check fcs) (a.writes ≠ [] && check = .good)
        (!s.restartPlaced && r.state.restartPlaced)
      s3.windowAdd p (check = .bad) := by
  obtain ⟨hb, hle, hse, hov, -, h | ⟨hl, ho, rfl⟩⟩ := hm
  · have hg : (if (s.unit p).arriving = none ∧ s.trk.record.port = some p then none else s.trk.gapTimer) = s.trk.gapTimer := by
      simp [h]
    have hc : ((s.modUnit p fun u => { u with arriving := none }).countFrame p a (f.outcome fcs)) =
        State.modUnit { s with trk := { s.trk with gapTimer := s.trk.gapTimer } } p fun u =>
          { u with arriving := none, counters := u.counters.received (f.outcome fcs) (decide (f.lead = .unknown)) } := by
      simp only [State.countFrame, hov, hle, Bool.false_eq_true, false_and, if_false, State.countPort, State.modUnit_modUnit,
        PortUnit.count]
    have hr : ∀ c, State.restartPlaced (State.modUnit { s with trk := { s.trk with gapTimer := s.trk.gapTimer } } p c) =
        s.restartPlaced := by intro c; cases p <;> rfl
    simp only [State.receive, State.inBypass, hb, decide_false, Bool.false_eq_true, if_false, State.arrived, h, hle, if_true, hc, hr,
      reduceCtorEq, false_and]
  · obtain ⟨hs, hd⟩ := State.sees_listening hl f.lead he ho
    rw [State.receive_whole _ _ _ _ _ hb hl.2.2.1, State.arrivalOf_listening hl he ho]
    have key : ∀ gap, gap = (if (s.unit p).arriving = none ∧ s.trk.record.port = some p then none else s.trk.gapTimer) →
        ((s.beginArrival p f.lead).modUnit p fun u => { u with arriving := none }) =
          State.modUnit { s with trk := { s.trk with gapTimer := gap } } p fun u => { u with arriving := none } := by
      rintro gap rfl
      rw [State.beginArrival_listening hs hd, State.stopGap_modUnit, State.modUnit_modUnit]
      have hd0 : ∀ t : State, t.unit p = s.unit p → (t.modUnit p fun u => { u with arriving := none, discard := false }) =
          t.modUnit p fun u => { u with arriving := none } := by
        intro t ht
        unfold State.modUnit
        have := hl.2.2.2
        rw [ht]
        generalize s.unit p = u at this
        cases u
        simp_all
      unfold State.stopGap
      split
      · rename_i hp
        rw [if_pos ⟨hl.2.2.1, hp⟩]
        exact hd0 _ (by cases p <;> rfl)
      · rename_i hp
        rw [if_neg fun h => hp h.2]
        exact hd0 _ rfl
    generalize hgap : (if (s.unit p).arriving = none ∧ s.trk.record.port = some p then none else s.trk.gapTimer) = gap at key ⊢
    have e := key gap rfl
    have hc : ∀ t : State, ((t.modUnit p fun u => { u with arriving := none }).countFrame p (s.decides p f.lead) (f.outcome fcs)) =
        t.modUnit p fun u =>
          { u with arriving := none, counters := u.counters.received (f.outcome fcs) (decide (f.lead = .unknown)) } := by
      intro t
      simp only [State.countFrame, State.decides, Bool.false_eq_true, false_and, if_false, State.countPort, State.modUnit_modUnit,
        PortUnit.count]
      rfl
    have hr : ∀ c, State.restartPlaced (State.modUnit { s with trk := { s.trk with gapTimer := gap } } p c) = s.restartPlaced := by
      intro c; cases p <;> rfl
    simp only [e, hc, hr]

/-- The time a command brings may pass before the frame ends. -/
theorem State.frameEnds_elapse (s : State) (dt : Nat) (p : Port) (f g : Frame) (fcs : Option Fcs) (out : Option Port) (w : Bool) :
    s.frameEnds dt p f g fcs out w = (s.elapse dt).frameEnds 0 p f g fcs out w := rfl

/-- The time that has passed neither makes nor ends a meeting. -/
theorem State.meets_elapse (s : State) (dt : Nat) (p : Port) (lead : Lead) (a : Arriving) :
    (s.elapse dt).meets p lead a ↔ s.meets p lead a := by
  simp only [State.meets, State.listens, State.unit_elapse, State.route_elapse]
  exact Iff.rfl

/-- How a frame leaves is what the model's forwarding does (R2, R124, R145). -/
theorem State.forward_leaves (s : State) (a : Arriving) (x : SentContent) (written restarts : Bool) :
    s.forward a x written restarts = s.leaves a.out x written restarts := by
  unfold State.forward State.leaves
  cases a.out with
  | none => rfl
  | some q =>
    unfold State.sendOut State.depart State.emit
    cases restarts <;> rfl

/-- What a frame that the tracker sees leaves, where its own effect, whatever the port has counted and the gap timer holds, leaves
the tap as `t` and the frame as `g`. -/
theorem State.receive_frameEnds {s t : State} {p : Port} {f g : Frame} {fcs : Option Fcs} {a : Arriving}
    {act : Arriving → Check → State → Passed} (hm : s.meets p f.lead a) (he : f.lead ≠ .echo)
    (hp : t.restartPlaced = s.restartPlaced)
    (hact : ∀ (gap : Option Nat) (c : PortUnit → PortUnit), (gap = s.trk.gapTimer ∨ s.trk.record.port = some p) →
      act a (f.outcome fcs) (State.modUnit { s with trk := { s.trk with gapTimer := gap } } p c) = ⟨t.modUnit p c, g⟩) :
    s.receive p f fcs act = t.frameEnds 0 p f g fcs a.out (!a.writes.isEmpty) := by
  rw [State.receive_meets hm he fcs act]
  have hg : ∀ gap, gap = (if (s.unit p).arriving = none ∧ s.trk.record.port = some p then none else s.trk.gapTimer) →
      (gap = s.trk.gapTimer ∨ s.trk.record.port = some p) := by
    rintro gap rfl
    split
    · rename_i h
      exact .inr h.2
    · exact .inl rfl
  generalize (if (s.unit p).arriving = none ∧ s.trk.record.port = some p then none else s.trk.gapTimer) = gap at hg ⊢
  have hg := hg gap rfl
  simp only [hact gap _ hg]
  generalize hc : (fun u : PortUnit =>
    { u with arriving := none, counters := u.counters.received (f.outcome fcs) (decide (f.lead = Lead.unknown)) }) = c
  have hr : (t.modUnit p c).restartPlaced = s.restartPlaced := by
    rw [← hp]
    cases p <;> rfl
  have hw : (!a.writes.isEmpty) = decide (a.writes ≠ []) := by cases a.writes <;> rfl
  have hl : (t.modUnit p c).countLost a (f.outcome fcs) =
      State.modUnit
        { t with
          ctr := { t.ctr with
            publishLost :=
              if (!a.writes.isEmpty && decide (f.outcome fcs ≠ .good) && a.out.isSome) = true then satInc t.ctr.publishLost
              else t.ctr.publishLost } } p c := by
    rw [hw]
    unfold State.countLost State.countPublishLost State.count
    by_cases h : f.outcome fcs ≠ .good ∧ a.writes ≠ [] ∧ a.out.isSome = true
    · obtain ⟨h1, h2, h3⟩ := h
      cases p <;> simp [h1, h2, h3] <;> rfl
    · rw [if_neg h, if_neg (by simpa [and_assoc, and_comm, and_left_comm] using h)]
  rw [hl, hr]
  unfold State.frameEnds
  simp only [hw, Nat.add_zero, Bool.not_and_self]
  have hcc : (fun u : PortUnit =>
      { u with
        arriving := none
        counters :=
          { u.counters with
            frames := satInc u.counters.frames
            lineErrors := if f.outcome fcs = .bad then satInc u.counters.lineErrors else u.counters.lineErrors
            passedBad := if f.outcome fcs = .stomped then satInc u.counters.passedBad else u.counters.passedBad
            unknownKind := if f.lead = .unknown then satInc u.counters.unknownKind else u.counters.unknownKind } }) = c := by
    rw [← hc]
    funext u
    simp [PortCounters.received]
  simp only [hcc]
  congr 1
  rw [State.forward_leaves]
  cases fcs <;> rfl

/-- What a frame that the tracker does not see leaves: it is counted, the discard stands as it is judged, and nothing is sent. -/
theorem State.receive_unseen {s : State} {p : Port} {f : Frame} {fcs : Option Fcs}
    {act : Arriving → Check → State → Passed} (hb : s.ctl.tapState ≠ .bypass) (ha : (s.unit p).arriving = none)
    (hs : s.sees p f.lead = false) (hact : ∀ t, act (s.arrivalOf p f.lead) (f.outcome fcs) t = ⟨t, f⟩) :
    s.receive p f fcs act =
      State.frameEnds
        (State.modUnit
          { s with
            ctr := if s.overTurns p f.lead = true ∧ f.outcome fcs = .good then { s.ctr with overTurns := satInc s.ctr.overTurns }
              else s.ctr }
          p fun u => { u with discard := s.discardAfter p f.lead })
        0 p f f fcs none false := by
  rw [State.receive_whole _ _ _ _ _ hb ha]
  have ho : (s.arrivalOf p f.lead).out = none := by simp [State.arrivalOf, hs]
  have hw : (s.arrivalOf p f.lead).seen = false := hs
  have hv : (s.arrivalOf p f.lead).overTurn = s.overTurns p f.lead := rfl
  have hle : (s.arrivalOf p f.lead).lead = f.lead := rfl
  simp only [hact, State.forward_none _ _ _ _ _ ho]
  unfold State.frameEnds
  congr 1
  have hcl : ∀ t : State, t.countLost (s.arrivalOf p f.lead) (f.outcome fcs) = t := by
    intro t; simp [State.countLost, ho]
  rw [hcl]
  unfold State.countFrame State.beginArrival State.countPort
  simp only [hw, hv, hle, Bool.false_eq_true, if_false, State.count, State.modUnit_modUnit, PortUnit.count, PortCounters.received]
  generalize hu : s.discardAfter p f.lead = d
  by_cases hg : s.overTurns p f.lead = true ∧ f.outcome fcs = .good
  · rw [if_pos hg, if_pos hg]
    cases p <;> simp_all [State.modUnit, State.setUnit, State.unit, State.leaves]
  · rw [if_neg hg, if_neg hg]
    cases p <;> simp_all [State.modUnit, State.setUnit, State.unit, State.leaves]

/-! ### A frame whose beginning was a command of its own -/

/-- The beginning of a frame leaves the tap's state alone, and the port's decisions stand at the port. -/
theorem State.beginArrival_ctl (s : State) (p : Port) (lead : Lead) : (s.beginArrival p lead).ctl = s.ctl := by
  unfold State.beginArrival State.stopGap
  dsimp only
  repeat' split
  all_goals cases p <;> rfl

theorem State.beginArrival_arriving (s : State) (p : Port) (lead : Lead) :
    ((s.beginArrival p lead).unit p).arriving = some (s.arrivalOf p lead) := by
  unfold State.beginArrival State.stopGap
  dsimp only
  repeat' split
  all_goals cases p <;> rfl

theorem State.beginArrival_elapse (s : State) (d dt : Nat) (p : Port) (lead : Lead) :
    ((s.elapse d).beginArrival p lead).elapse dt = (s.elapse (d + dt)).beginArrival p lead := by
  have ha : (s.elapse d).arrivalOf p lead = (s.elapse (d + dt)).arrivalOf p lead := by cases p <;> rfl
  have hd : (s.elapse d).discardAfter p lead = (s.elapse (d + dt)).discardAfter p lead := by cases p <;> rfl
  unfold State.beginArrival State.stopGap
  dsimp only
  rw [ha, hd]
  split
  · simp only [State.modUnit_trk, State.elapse]
    split <;> cases p <;> simp [State.modUnit, State.setUnit, State.unit, State.modTrk, Nat.add_assoc]
  · cases p <;> simp [State.modUnit, State.setUnit, State.unit, State.elapse, Nat.add_assoc]

/-- Where nothing comes between the two, the beginning and the end leave what the whole frame leaves as one command (log 4). -/
theorem State.receive_begun {d dt : Nat} {p : Port} {f : Frame} {fcs : Option Fcs} {s t : State}
    (act : Arriving → Check → State → Passed) (hb : s.ctl.tapState ≠ .bypass) (ha : (s.unit p).arriving = none)
    (hl : f.lead ≠ .openCount) (h : (s.elapse d).frameBegins p f.lead = t) :
    (t.elapse dt).receive p f fcs act = (s.elapse (d + dt)).receive p f fcs act := by
  have ht : t = (s.elapse d).beginArrival p f.lead := by
    rw [← h]
    simp [State.frameBegins, State.inBypass, hb, ha, hl]
  rw [ht, State.beginArrival_elapse]
  have h1 : ((s.elapse (d + dt)).beginArrival p f.lead).inBypass = false := by
    simp [State.inBypass, State.beginArrival_ctl, hb]
  have h2 : (s.elapse (d + dt)).inBypass = false := by simp [State.inBypass, hb]
  have h3 : ((s.elapse (d + dt)).unit p).arriving = none := by simpa using ha
  have h4 : ((s.elapse (d + dt)).arrivalOf p f.lead).lead = f.lead := rfl
  unfold State.receive
  simp only [h1, h2, State.arrived, State.beginArrival_arriving, h3, h4, if_true, Bool.false_eq_true, if_false]

end Sys2Proof.Machine
end

