-- ==== Sys2Proof/Laws/ContainerUnit.lean ====
section
/-! SUPPORT. What the container unit leaves alone: a request's execution and each of the five steps keep the train record, what
has been sent, the clock and what is on its way out of a port. -/

namespace Sys2Proof.Machine

/-- `t` has the clock, the train record and the sent frames of `s`, and at each port what `s` is sending there. -/
structure State.SameLine (s t : State) : Prop where
  now : t.now = s.now
  trk : t.trk = s.trk
  sent : t.sent = s.sent
  rst : t.rst = s.rst
  tx : ∀ q, (t.unit q).tx = (s.unit q).tx

theorem State.SameLine.refl (s : State) : s.SameLine s := ⟨rfl, rfl, rfl, rfl, fun _ => rfl⟩

theorem State.SameLine.trans {s t u : State} (h : s.SameLine t) (k : t.SameLine u) : s.SameLine u :=
  ⟨k.now.trans h.now, k.trk.trans h.trk, k.sent.trans h.sent, k.rst.trans h.rst, fun q => (k.tx q).trans (h.tx q)⟩

/-- A change that leaves both port units. -/
theorem State.SameLine.of_ports {s t : State} (h1 : t.now = s.now) (h2 : t.trk = s.trk) (h3 : t.sent = s.sent)
    (h4 : t.rst = s.rst) (h5 : t.portW = s.portW) (h6 : t.portE = s.portE) : s.SameLine t :=
  ⟨h1, h2, h3, h4, fun q => by cases q <;> simp only [State.unit, h5, h6]⟩

/-- A change of the port units that leaves what is being sent. -/
theorem State.sameLine_modUnit (s : State) (p : Port) (f : PortUnit → PortUnit) (h : ∀ u, (f u).tx = u.tx) :
    s.SameLine (s.modUnit p f) where
  now := by simp
  trk := by simp
  sent := by simp
  rst := by simp
  tx q := by cases p <;> cases q <;> simp [State.modUnit, State.setUnit, State.unit, h]

theorem State.sameLine_raise (s : State) (x : Source) : s.SameLine (s.raise x) :=
  State.SameLine.of_ports rfl rfl rfl rfl rfl rfl

theorem State.sameLine_edgeOn (s : State) (c : Fin 12) : s.SameLine (s.edgeOn c) :=
  State.SameLine.of_ports rfl rfl rfl rfl rfl rfl

/-! ### Requests -/

theorem State.sameLine_clearGroup (s : State) (g : Group) : s.SameLine (s.clearGroup g) := by
  cases g with
  | port p => exact State.sameLine_modUnit s p (fun u => { u with counters := PortCounters.zero }) fun _ => rfl
  | _ => exact State.SameLine.of_ports rfl rfl rfl rfl rfl rfl

theorem State.sameLine_pulse (s : State) (c : Fin 12) : s.SameLine (s.pulse c) := by
  unfold State.pulse
  dsimp only
  split
  · exact State.SameLine.of_ports rfl rfl rfl rfl rfl rfl
  · exact State.SameLine.of_ports rfl rfl rfl rfl rfl rfl

theorem State.sameLine_setTapState (s : State) (x : Bool) (t : TapState) :
    s.SameLine ((s.setCommandCause x).setTapState t) := by
  unfold State.setTapState
  split <;> exact State.SameLine.of_ports rfl rfl rfl rfl rfl rfl

/-- No request moves the line. -/
theorem runRequest_sameLine (r : Request) (src : Station) (s : State) : s.SameLine (runRequest r src s).state := by
  cases r
  all_goals
    simp only [runRequest, runIdentify, runReadStatus, runReadCounters, runClearCounters, runReadCensus,
      runReadSubscriptionState, runReadEntry, runOpenEdit, runStageEntry, runClearStaged, runCommit, runAbandonEdit,
      runQueryEdit, runHalt, runResume, runReturnWrap, runPulse, runRestart, runSegmentTestStart, runSegmentTestResult]
  all_goals (repeat' split)
  all_goals first
    | exact State.SameLine.refl s
    | exact State.sameLine_setTapState s _ _
    | exact State.SameLine.of_ports rfl rfl rfl rfl rfl rfl
    | exact State.sameLine_clearGroup s _
    | exact State.sameLine_pulse s _
    | (refine State.sameLine_modUnit s _ (fun u => { u with returnAccepted := true }) fun _ => rfl)

theorem State.sameLine_touchSession (s : State) (src : Station) : s.SameLine (s.touchSession src) := by
  unfold State.touchSession
  repeat' split
  all_goals exact State.SameLine.of_ports rfl rfl rfl rfl rfl rfl

theorem State.sameLine_respond (s : State) (r : Response) : s.SameLine (s.respond r) :=
  State.SameLine.of_ports rfl rfl rfl rfl rfl rfl

theorem State.sameLine_remember (s : State) (src : Station) (r : CachedResponse) : s.SameLine (s.remember src r) := by
  unfold State.remember State.modMgmt
  exact State.SameLine.of_ports rfl rfl rfl rfl rfl rfl

theorem State.sameLine_executeRequest (s : State) (src : Station) (tag code : Byte) (run : State → Reply)
    (h : ∀ t : State, t.SameLine (run t).state) : s.SameLine (s.executeRequest src tag code run) :=
  (h s).trans ((State.sameLine_respond _ _).trans (State.sameLine_remember _ _ _))

/-- A request taken does not move the line, whichever way it is answered (R106 to R108). -/
theorem State.sameLine_takeRequest (s : State) (src : Station) (tag code : Byte) (run : State → Reply)
    (h : ∀ t : State, t.SameLine (run t).state) : s.SameLine (s.takeRequest src tag code run) := by
  refine (State.sameLine_touchSession s src).trans ?_
  unfold State.takeRequest
  dsimp only
  repeat' split
  all_goals first | exact State.sameLine_respond _ _ | exact State.sameLine_executeRequest _ _ _ _ _ h

theorem State.sameLine_takePayload (s : State) (src : Station) (tag : Byte) (payload : List Byte) :
    s.SameLine (s.takePayload src tag payload) := by
  unfold State.takePayload
  split
  · exact State.sameLine_takeRequest _ _ _ _ _ (runRequest_sameLine _ _)
  · exact State.sameLine_takeRequest _ _ _ _ _ State.SameLine.refl

/-! ### The five steps (R84) -/

theorem State.sameLine_settle (s : State) (m : Fin 8) (o : MsgOutcome) : s.SameLine (s.settle m o) :=
  State.SameLine.of_ports rfl rfl rfl rfl rfl rfl

theorem State.sameLine_joinInbound (s : State) (f : ContainerFrame) (broadcast : Bool) : s.SameLine (s.joinInbound f broadcast) :=
  State.SameLine.of_ports rfl rfl rfl rfl rfl rfl

theorem State.sameLine_outcomeStep (s : State) (index : Fin 8) (f : ContainerFrame) : s.SameLine (s.outcomeStep index f).state := by
  unfold State.outcomeStep
  repeat' split
  all_goals first | exact State.SameLine.refl s | exact State.sameLine_settle s _ _

theorem State.sameLine_stripStep (s : State) (f : ContainerFrame) : s.SameLine (s.stripStep f).state := by
  unfold State.stripStep
  split
  · exact State.SameLine.of_ports rfl rfl rfl rfl rfl rfl
  · exact State.SameLine.refl s

theorem State.sameLine_deliveryStep (s : State) (f : ContainerFrame) : s.SameLine (s.deliveryStep f).state := by
  unfold State.deliveryStep
  repeat' split
  all_goals first
    | exact State.SameLine.refl s
    | exact State.sameLine_takePayload s _ _ _
    | exact State.sameLine_joinInbound s _ _
    | exact State.SameLine.of_ports rfl rfl rfl rfl rfl rfl

theorem State.sameLine_broadcastStep (s : State) (f : ContainerFrame) : s.SameLine (s.broadcastStep f) := by
  unfold State.broadcastStep
  repeat' split
  all_goals first
    | exact State.SameLine.refl s
    | exact State.sameLine_joinInbound s _ _
    | exact State.SameLine.of_ports rfl rfl rfl rfl rfl rfl

theorem State.sameLine_fillStep (s : State) (t : TapState) (took : Bool) (index : Fin 8) (f : ContainerFrame) :
    s.SameLine (s.fillStep t took index f).1 := by
  unfold State.fillStep
  repeat' split
  all_goals exact State.SameLine.of_ports rfl rfl rfl rfl rfl rfl

theorem State.sameLine_containerSteps (s : State) (t : TapState) (index : Fin 8) (f : ContainerFrame) :
    s.SameLine (s.containerSteps t index f).state := by
  unfold State.containerSteps
  dsimp only
  split
  · exact ((State.sameLine_outcomeStep _ _ _).trans (State.sameLine_stripStep _ _)).trans
      ((State.sameLine_deliveryStep _ _).trans (State.sameLine_broadcastStep _ _))
  · exact (((State.sameLine_outcomeStep _ _ _).trans (State.sameLine_stripStep _ _)).trans
      ((State.sameLine_deliveryStep _ _).trans (State.sameLine_broadcastStep _ _))).trans (State.sameLine_fillStep _ _ _ _ _)

/-- A container the unit acts on moves nothing on the line but itself (R84). -/
theorem State.sameLine_actOnContainer (s : State) (f : ContainerFrame) : s.SameLine (s.actOnContainer f).state := by
  unfold State.actOnContainer
  repeat' split
  · exact State.SameLine.of_ports rfl rfl rfl rfl rfl rfl
  · exact State.sameLine_containerSteps s _ _ _
  · exact State.SameLine.refl s

end Sys2Proof.Machine
end

