-- ==== Sys2Proof/Laws/Edges.lean ====
section
/-! SUPPORT. What a run of raised events leaves, in whatever order they came: the users that some raised source reaches have
acted, and nothing else of the matrix or the bank stores has moved (R154 to R156). -/

namespace Sys2Proof.Machine

/-! ### A take asked for twice -/

theorem RxBank.take_take (b : RxBank) : b.take.take = b.take := by
  cases h : b.readyNew <;> simp [RxBank.take, h]

/-- Asking again changes nothing (R62, R63). -/
theorem RxBank.requestTake_twice (b : RxBank) (burst : Bool) : (b.requestTake burst).requestTake burst = b.requestTake burst := by
  cases burst <;> simp [RxBank.requestTake, RxBank.take_take]

/-- A receive bank that its user, where `hit`, and nothing else, has asked for a take. -/
def RxBank.Asked (burst : Bool) (hit : Prop) (b c : RxBank) : Prop := (hit → c = b.requestTake burst) ∧ (¬hit → c = b)

theorem RxBank.Asked.refl (burst : Bool) {hit : Prop} (h : ¬hit) (b : RxBank) : RxBank.Asked burst hit b b :=
  ⟨fun k => absurd k h, fun _ => rfl⟩

theorem RxBank.Asked.trans {burst : Bool} {h k : Prop} {a b c : RxBank} (hab : RxBank.Asked burst h a b)
    (hbc : RxBank.Asked burst k b c) : RxBank.Asked burst (h ∨ k) a c := by
  by_cases hh : h <;> by_cases hk : k
  · exact ⟨fun _ => by rw [hbc.1 hk, hab.1 hh, RxBank.requestTake_twice], fun n => absurd (.inl hh) n⟩
  · exact ⟨fun _ => by rw [hbc.2 hk, hab.1 hh], fun n => absurd (.inl hh) n⟩
  · exact ⟨fun _ => by rw [hbc.1 hk, hab.2 hh], fun n => absurd (.inr hk) n⟩
  · exact ⟨fun n => absurd n (not_or.2 ⟨hh, hk⟩), fun _ => by rw [hbc.2 hk, hab.2 hh]⟩

theorem RxBank.Asked.iff {burst : Bool} {h k : Prop} {b c : RxBank} (x : RxBank.Asked burst h b c) (e : h ↔ k) :
    RxBank.Asked burst k b c := ⟨fun y => x.1 (e.2 y), fun y => x.2 (mt e.1 y)⟩

/-! ### Events raised -/

/-- The user some raised source reaches. -/
def State.reached (s : State) (raised : Source → Prop) (u : Fin 21) : Prop := ∃ x, raised x ∧ s.bound x u = true

/-- `t` is `s` after the sources `raised`, and no other, have had an event; the receive banks and what no event moves aside. -/
structure State.Raised (s t : State) (raised : Source → Prop) : Prop where
  active : t.mgmt.active = s.mgmt.active
  now : t.now = s.now
  txn : t.lsp.txn = s.lsp.txn
  pub : ∀ p : Fin 4, t.pub[p] = { s.pub[p] with posted := t.pub[p].posted }
  posted : ∀ p : Fin 4, t.pub[p].posted = true ↔ s.pub[p].posted = true ∨ s.reached raised (postUser p)
  sig : t.sig = { s.sig with pins := t.sig.pins, stamps := t.sig.stamps, overflow := t.sig.overflow }
  pinsHit : ∀ k : Fin 8, s.reached raised (trigUser k) → t.sig.pins[k] = ⟨true, some s.now⟩
  pinsMissed : ∀ k : Fin 8, ¬s.reached raised (trigUser k) → t.sig.pins[k] = s.sig.pins[k]

theorem State.bound_congr {s t : State} (h : t.mgmt.active = s.mgmt.active) (x : Source) (u : Fin 21) :
    t.bound x u = s.bound x u := by
  simp only [State.bound, State.follows, State.source, h]
  rfl

theorem State.readBurst_congr {s t : State} (h : t.lsp.txn = s.lsp.txn) (b : Fin 8) : t.readBurst b = s.readBurst b := by
  simp [State.readBurst, h]

/-- No event. -/
theorem State.Raised.refl (s : State) : s.Raised s fun _ => False where
  active := rfl
  now := rfl
  txn := rfl
  pub _ := rfl
  posted p := by simp [State.reached]
  sig := rfl
  pinsHit k h := by simp [State.reached] at h
  pinsMissed _ _ := rfl

/-- The same events, said otherwise. -/
theorem State.Raised.iff {s t : State} {R Q : Source → Prop} (h : s.Raised t R) (e : ∀ x, R x ↔ Q x) : s.Raised t Q := by
  have : R = Q := funext fun x => propext (e x)
  exact this ▸ h

/-- A change of anything but what events move keeps what is known of them. -/
theorem State.Raised.keep {s t t' : State} {R : Source → Prop} (h : s.Raised t R) (ha : t'.mgmt.active = t.mgmt.active)
    (hn : t'.now = t.now) (hx : t'.lsp.txn = t.lsp.txn) (hp : t'.pub = t.pub) (hs : t'.sig = t.sig) : s.Raised t' R where
  active := ha.trans h.active
  now := hn.trans h.now
  txn := hx.trans h.txn
  pub := hp ▸ h.pub
  posted := hp ▸ h.posted
  sig := hs ▸ h.sig
  pinsHit := hs ▸ h.pinsHit
  pinsMissed := hs ▸ h.pinsMissed

/-- One more event. -/
theorem State.Raised.raise {s t : State} {R : Source → Prop} (h : s.Raised t R) (x : Source) :
    s.Raised (t.raise x) fun y => R y ∨ y = x := by
  have hb := State.bound_congr h.active x
  have reach : ∀ u, s.reached (fun y => R y ∨ y = x) u ↔ s.reached R u ∨ s.bound x u = true := by
    intro u
    constructor
    · rintro ⟨y, hy | rfl, hu⟩
      · exact Or.inl ⟨y, hy, hu⟩
      · exact Or.inr hu
    · rintro (⟨y, hy, hu⟩ | hu)
      · exact ⟨y, Or.inl hy, hu⟩
      · exact ⟨x, Or.inr rfl, hu⟩
  have hpub : ∀ p : Fin 4, (t.raise x).pub[p] = if s.bound x (postUser p) = true then { t.pub[p] with posted := true } else t.pub[p] := by
    intro p
    rw [← hb]
    exact ofFn_get _ p
  have hpins : ∀ k : Fin 8, (t.raise x).sig.pins[k] = if s.bound x (trigUser k) = true then ⟨true, some s.now⟩ else t.sig.pins[k] := by
    intro k
    rw [← hb, ← h.now]
    show (t.edgeSignals _).pins[k] = _
    rw [State.edgeSignals_pins]
    exact ofFn_get _ k
  refine ⟨h.active, h.now, h.txn, ?_, ?_, ?_, ?_, ?_⟩
  · intro p
    rw [hpub]
    have := h.pub p
    split
    · rw [this]
    · exact this
  · intro p
    rw [hpub, reach]
    have := h.posted p
    split
    · rename_i hu
      simp [hu]
    · rename_i hu
      simp only [this, hu, Bool.false_eq_true, or_false]
  · show t.edgeSignals _ = _
    conv_lhs => rw [State.edgeSignals_frame, h.sig]
    show _ = ({ s.sig with
      pins := (t.edgeSignals (t.bound x)).pins
      stamps := (t.edgeSignals (t.bound x)).stamps
      overflow := (t.edgeSignals (t.bound x)).overflow } : Signals)
    rw [State.edgeSignals_pins, h.sig]
  · intro k hk
    rw [hpins]
    split
    · rfl
    · rename_i hu
      exact h.pinsHit k (((reach _).1 hk).resolve_right hu)
  · intro k hk
    rw [reach, not_or] at hk
    rw [hpins, if_neg hk.2]
    exact h.pinsMissed k hk.1

/-- A receive bank at an event: its TAKE user takes where the event reaches it (R62, R154). -/
theorem State.raise_asked (s : State) (x : Source) (b : Fin 8) :
    RxBank.Asked (s.readBurst b) (s.bound x (takeUser b) = true) s.rx[b] (s.raise x).rx[b] := by
  have h : (s.raise x).rx[b] = if s.bound x (takeUser b) = true then s.rx[b].requestTake (s.readBurst b) else s.rx[b] :=
    ofFn_get _ b
  exact ⟨fun k => by rw [h, if_pos k], fun k => by rw [h, if_neg k]⟩

/-- Two runs of events, one after the other, reach what either reaches. -/
theorem State.reached_or {s t : State} (h : t.mgmt.active = s.mgmt.active) (R Q : Source → Prop) (v : Fin 21) :
    s.reached (fun x => R x ∨ Q x) v ↔ s.reached R v ∨ t.reached Q v := by
  have hb : ∀ x v, t.bound x v = s.bound x v := State.bound_congr h
  constructor
  · rintro ⟨y, hy | hy, hv⟩
    · exact Or.inl ⟨y, hy, hv⟩
    · exact Or.inr ⟨y, hy, by rw [hb]; exact hv⟩
  · rintro (⟨y, hy, hv⟩ | ⟨y, hy, hv⟩)
    · exact ⟨y, Or.inl hy, hv⟩
    · exact ⟨y, Or.inr hy, by rw [← hb]; exact hv⟩

/-- Two runs of events, one after the other. -/
theorem State.Raised.trans {s t u : State} {R Q : Source → Prop} (h : s.Raised t R) (k : t.Raised u Q) :
    s.Raised u fun x => R x ∨ Q x := by
  have reach := State.reached_or h.active R Q
  refine ⟨k.active.trans h.active, k.now.trans h.now, k.txn.trans h.txn, ?_, ?_, ?_, ?_, ?_⟩
  · intro p
    rw [k.pub p, h.pub p]
  · intro p
    rw [k.posted, h.posted, reach, or_assoc]
  · rw [k.sig, h.sig]
  · intro j hj
    by_cases hq : t.reached Q (trigUser j)
    · rw [k.pinsHit j hq, h.now]
    · rw [k.pinsMissed j hq]
      exact h.pinsHit j (((reach _).1 hj).resolve_right hq)
  · intro j hj
    rw [reach, not_or] at hj
    rw [k.pinsMissed j hj.2, h.pinsMissed j hj.1]

/-- `t` is `s` after the sources `raised`, and no other, have had an event, the receive banks with the rest: a bank has taken, or put
its take off, exactly where some event reached its TAKE user (R62, R63). -/
structure State.Took (s t : State) (raised : Source → Prop) : Prop extends s.Raised t raised where
  rx : ∀ b : Fin 8, RxBank.Asked (s.readBurst b) (s.reached raised (takeUser b)) s.rx[b] t.rx[b]

theorem State.Took.refl (s : State) : s.Took s fun _ => False :=
  ⟨State.Raised.refl s, fun b => RxBank.Asked.refl _ (by simp [State.reached]) _⟩

theorem State.Took.iff {s t : State} {R Q : Source → Prop} (h : s.Took t R) (e : ∀ x, R x ↔ Q x) : s.Took t Q := by
  have : R = Q := funext fun x => propext (e x)
  exact this ▸ h

theorem State.Took.keep {s t t' : State} {R : Source → Prop} (h : s.Took t R) (ha : t'.mgmt.active = t.mgmt.active)
    (hn : t'.now = t.now) (hx : t'.lsp.txn = t.lsp.txn) (hp : t'.pub = t.pub) (hs : t'.sig = t.sig) (hr : t'.rx = t.rx) :
    s.Took t' R := ⟨h.toRaised.keep ha hn hx hp hs, hr ▸ h.rx⟩

theorem State.Took.trans {s t u : State} {R Q : Source → Prop} (h : s.Took t R) (k : t.Took u Q) :
    s.Took u fun x => R x ∨ Q x := by
  refine ⟨h.toRaised.trans k.toRaised, fun b => ?_⟩
  have := k.rx b
  rw [State.readBurst_congr h.txn] at this
  exact ((h.rx b).trans this).iff (State.reached_or h.active R Q _).symm

theorem State.Took.raise {s t : State} {R : Source → Prop} (h : s.Took t R) (x : Source) :
    s.Took (t.raise x) fun y => R y ∨ y = x := by
  refine ⟨h.toRaised.raise x, fun b => ?_⟩
  have := State.raise_asked t x b
  rw [State.readBurst_congr h.txn] at this
  refine ((h.rx b).trans this).iff ?_
  rw [State.reached_or h.active]
  refine or_congr_right ⟨fun hb => ⟨x, rfl, hb⟩, ?_⟩
  rintro ⟨_, rfl, hb⟩
  exact hb

end Sys2Proof.Machine
end

