-- ==== Sys2Proof/Laws/CycleClose.lean ====
section
/-! SUPPORT. Everything a close does, unit by unit: the judgement of the banks (R48, R60, R61), the aging of the entries (R49,
R50), the census (R131), the mailboxes (R87), and the events they raise. -/

namespace Sys2Proof.Machine

/-- What holds of a state with all of a list to come, and is handed on by each pass, holds in the end with nothing to come. -/
theorem foldl_run {α γ : Type} (g : α → γ → α) (I : List γ → α → Prop) (step : ∀ x l a, I (x :: l) a → I l (g a x))
    (l : List γ) (a : α) (h : I l a) : I [] (l.foldl g a) := by
  induction l generalizing a with
  | nil => exact h
  | cons x l ih => exact ih _ (step x l a h)

/-- A counter that stops at 65535, counted up once for each place of a list that meets a condition. -/
def tallied (x : Word) (n : Nat) : Word := BitVec.ofNat 16 (min 65535 (x.toNat + n))

theorem tallied_zero (x : Word) : tallied x 0 = x := by
  have := x.isLt
  apply BitVec.eq_of_toNat_eq
  simp only [tallied, BitVec.toNat_ofNat]
  omega

theorem tallied_succ (x : Word) (n : Nat) : tallied (satInc x) n = tallied x (n + 1) := by
  have h := satInc_toNat x
  have := x.isLt
  apply BitVec.eq_of_toNat_eq
  simp only [tallied, BitVec.toNat_ofNat, h]
  omega

/-! ### Judging the banks -/

/-- A bank that a completion leaves: complete, and taken where HOLD is clear, put off under a read burst (R60, R61, R63). -/
def RxBank.completed (b : RxBank) (cycle : Cycle) (burst : Bool) : RxBank :=
  if b.hold then b.complete cycle else (b.complete cycle).requestTake burst

/-- The judgement completes the bank (R48). -/
def State.completes (s : State) (b : Fin 8) : Prop := s.owed b = true ∧ s.allCaptured b = true

/-- The BANK_READY of some bank among `among` reaches the TAKE user of bank `b`. -/
def State.readied (s : State) (among : Fin 8 → Prop) (b : Fin 8) : Prop :=
  ∃ c, among c ∧ s.completes c ∧ s.bound (.bankReady c) (takeUser b) = true

/-- A bank as the judgement leaves it but for its TAKE user (R48, R60, R61). -/
def State.judged (s : State) (b : Fin 8) (x : RxBank) : RxBank :=
  if s.owed b && s.allCaptured b then x.completed s.trk.lastCycle (s.readBurst b) else x

/-- What the judgement of the banks has left while the banks of `rest` are still to be judged: the banks are judged in rising number,
so a TAKE user acts before its bank's judgement only at the BANK_READY of a bank below. -/
structure State.Judged (s : State) (rest : List (Fin 8)) (t : State) : Prop where
  order : rest.Pairwise (· < ·)
  below : ∀ c, c ∉ rest → ∀ d ∈ rest, c < d
  mgmt : t.mgmt = s.mgmt
  subs : t.subs = s.subs
  trk : t.trk = s.trk
  ctr : ∃ n, t.ctr = { s.ctr with fillFailures := n } ∧
    tallied n (rest.countP fun b => s.owed b && !s.allCaptured b) =
      tallied s.ctr.fillFailures ((List.finRange 8).countP fun b => s.owed b && !s.allCaptured b)
  raised : s.Raised t fun x => ∃ b, b ∉ rest ∧ s.completes b ∧ x = .bankReady b
  open' : ∀ b ∈ rest, RxBank.Asked (s.readBurst b) (s.readied (· ∉ rest) b) s.rx[b] t.rx[b]
  left : ∀ b, b ∉ rest → ∃ x, RxBank.Asked (s.readBurst b) (s.readied (· < b) b) s.rx[b] x ∧
    RxBank.Asked (s.readBurst b) (s.readied (fun c => c ∉ rest ∧ b ≤ c) b) (s.judged b x) t.rx[b]

theorem RxBank.requestTake_hold (b : RxBank) (burst : Bool) : (b.requestTake burst).hold = b.hold := by
  cases burst <;> cases h : b.readyNew <;> simp [RxBank.requestTake, RxBank.take, h]

theorem RxBank.Asked.hold {burst : Bool} {hit : Prop} {a b : RxBank} (h : RxBank.Asked burst hit a b) : b.hold = a.hold := by
  by_cases k : hit
  · rw [h.1 k, RxBank.requestTake_hold]
  · rw [h.2 k]

/-- A completion of bank `b`, and what it raises (R60, R61). -/
theorem State.completeBank_raised {s t : State} {R : Source → Prop} (h : s.Raised t R) (b : Fin 8) :
    s.Raised (t.completeBank b) (fun x => R x ∨ x = .bankReady b) := by
  have h1 : s.Raised ({ t with rx := upd t.rx b (t.rx[b].complete t.trk.lastCycle) } : State) R := h.keep rfl rfl rfl rfl rfl
  unfold State.completeBank
  dsimp only
  split
  · exact h1.raise _
  · exact (h1.raise _).keep rfl rfl rfl rfl rfl

theorem State.completeBank_rx (t : State) (b : Fin 8) :
    RxBank.Asked (t.readBurst b) (t.bound (.bankReady b) (takeUser b) = true)
      (t.rx[b].completed t.trk.lastCycle (t.readBurst b)) (t.completeBank b).rx[b] := by
  have h := State.raise_asked ({ t with rx := upd t.rx b (t.rx[b].complete t.trk.lastCycle) } : State) (.bankReady b) b
  rw [show ({ t with rx := upd t.rx b (t.rx[b].complete t.trk.lastCycle) } : State).rx[b] = t.rx[b].complete t.trk.lastCycle
    from by rw [upd_get, if_pos rfl]] at h
  have hh := h.hold
  unfold State.completeBank RxBank.completed
  dsimp only
  have hc : (t.rx[b].complete t.trk.lastCycle).hold = t.rx[b].hold := rfl
  rw [hh, hc]
  split
  · exact h
  · rw [upd_get, if_pos rfl]
    refine ⟨fun k => ?_, fun k => ?_⟩
    · rw [h.1 k]; rfl
    · rw [h.2 k]; rfl

theorem State.completeBank_rx_ne (t : State) (b c : Fin 8) (hc : c ≠ b) :
    RxBank.Asked (t.readBurst c) (t.bound (.bankReady b) (takeUser c) = true) t.rx[c] (t.completeBank b).rx[c] := by
  have h := State.raise_asked ({ t with rx := upd t.rx b (t.rx[b].complete t.trk.lastCycle) } : State) (.bankReady b) c
  rw [show ({ t with rx := upd t.rx b (t.rx[b].complete t.trk.lastCycle) } : State).rx[c] = t.rx[c]
    from by rw [upd_get, if_neg hc]] at h
  unfold State.completeBank
  dsimp only
  split
  · exact h
  · rw [upd_get, if_neg hc]
    exact h

theorem State.Judged.start (s : State) : s.Judged (List.finRange 8) s where
  order := by decide
  below c hc := absurd (List.mem_finRange c) hc
  mgmt := rfl
  subs := rfl
  trk := rfl
  ctr := ⟨s.ctr.fillFailures, rfl, rfl⟩
  raised := (State.Raised.refl s).iff (by simp)
  open' b _ := RxBank.Asked.refl _ (by simp [State.readied]) _
  left b hb := absurd (List.mem_finRange b) hb

/-- The BANK_READY users of a bank, where one more bank has been judged. -/
theorem State.readied_or (s : State) {P Q : Fin 8 → Prop} (b c : Fin 8) (e : ∀ d, Q d ↔ P d ∨ d = b) (hb : s.completes b) :
    s.readied P c ∨ s.bound (.bankReady b) (takeUser c) = true ↔ s.readied Q c := by
  constructor
  · rintro (⟨d, h1, h2⟩ | h)
    · exact ⟨d, (e d).2 (.inl h1), h2⟩
    · exact ⟨b, (e b).2 (.inr rfl), hb, h⟩
  · rintro ⟨d, h1, h2, h3⟩
    rcases (e d).1 h1 with h | rfl
    · exact .inl ⟨d, h, h2, h3⟩
    · exact .inr h3

/-- The same where the bank judged is not completed. -/
theorem State.readied_same (s : State) {P Q : Fin 8 → Prop} (b c : Fin 8) (e : ∀ d, Q d ↔ P d ∨ d = b) (hb : ¬s.completes b) :
    s.readied P c ↔ s.readied Q c := by
  constructor
  · rintro ⟨d, h1, h2⟩
    exact ⟨d, (e d).2 (.inl h1), h2⟩
  · rintro ⟨d, h1, h2, h3⟩
    rcases (e d).1 h1 with h | rfl
    · exact ⟨d, h, h2, h3⟩
    · exact absurd h2 hb

theorem State.Judged.step (s : State) (b : Fin 8) (rest : List (Fin 8)) (t : State) (h : s.Judged (b :: rest) t) :
    s.Judged rest (t.judgeBank b) := by
  obtain ⟨or, bl, hm, hs, ht, ⟨n, hn, hc⟩, hR, ho, hl⟩ := h
  obtain ⟨lt, or⟩ := List.pairwise_cons.1 or
  have hb : b ∉ rest := fun h => absurd (lt b h) (lt_irrefl b)
  have notin : ∀ d, d ∉ rest ↔ d ∉ b :: rest ∨ d = b := by
    intro d
    by_cases hd : d = b
    · simp [hd, hb]
    · simp [hd]
  have bl' : ∀ c, c ∉ rest → ∀ d ∈ rest, c < d := by
    intro c hc d hd
    rcases (notin c).1 hc with h | rfl
    · exact bl c h d (List.mem_cons_of_mem _ hd)
    · exact lt d hd
  have below : ∀ c, c < b ↔ c ∉ b :: rest := by
    intro c
    refine ⟨fun h hc => ?_, fun h => bl c h b List.mem_cons_self⟩
    rcases List.mem_cons.1 hc with rfl | hc
    · exact lt_irrefl _ h
    · exact lt_asymm h (lt c hc)
  have first : s.readied (· ∉ b :: rest) b ↔ s.readied (· < b) b :=
    exists_congr fun c => and_congr_left' (below c).symm
  have upto : ∀ c, c ∉ b :: rest → ∀ d, (d ∉ rest ∧ c ≤ d) ↔ (d ∉ b :: rest ∧ c ≤ d) ∨ d = b := by
    intro c hc d
    rw [notin]
    constructor
    · rintro ⟨h | h, k⟩
      · exact .inl ⟨h, k⟩
      · exact .inr h
    · rintro (⟨h, k⟩ | rfl)
      · exact ⟨.inl h, k⟩
      · exact ⟨.inr rfl, le_of_lt ((below c).2 hc)⟩
  have hrb : ∀ c, t.readBurst c = s.readBurst c := State.readBurst_congr hR.txn
  have hbd : ∀ x u, t.bound x u = s.bound x u := State.bound_congr hR.active
  have eq : t.judgeBank b = if s.owed b = true then
      (if s.allCaptured b = true then t.completeBank b
       else t.count fun c => { c with fillFailures := satInc c.fillFailures }) else t := by
    unfold State.judgeBank
    rw [show t.owed b = s.owed b by simp [State.owed, hm], show t.allCaptured b = s.allCaptured b by
      simp [State.allCaptured, hm, hs]]
  by_cases hcb : s.completes b
  · rw [eq, if_pos hcb.1, if_pos hcb.2]
    refine ⟨or, bl', by simp [hm], by simp [hs], by simp [ht], ⟨n, by simp [hn], ?_⟩,
      (State.completeBank_raised hR b).iff fun x => ?_, fun c hc => ?_, fun c hc => ?_⟩
    · rw [← hc, List.countP_cons]
      simp [hcb.1, hcb.2]
    · constructor
      · rintro (⟨c, h, k⟩ | rfl)
        · exact ⟨c, (notin c).2 (.inl h), k⟩
        · exact ⟨b, hb, hcb, rfl⟩
      · rintro ⟨c, h, k⟩
        rcases (notin c).1 h with h | rfl
        · exact .inl ⟨c, h, k⟩
        · exact .inr k.2
    · have hne : c ≠ b := fun e => hb (e ▸ hc)
      have := State.completeBank_rx_ne t b c hne
      rw [hrb, hbd] at this
      exact ((ho c (List.mem_cons_of_mem _ hc)).trans this).iff (State.readied_or s b c notin hcb)
    · by_cases hcb' : c = b
      · subst hcb'
        refine ⟨_, (ho c List.mem_cons_self).iff first, ?_⟩
        have := State.completeBank_rx t c
        rw [hrb, hbd, ht] at this
        rw [State.judged, if_pos (by simp [hcb.1, hcb.2])]
        refine this.iff ⟨fun h => ⟨c, ⟨hb, le_refl c⟩, hcb, h⟩, ?_⟩
        rintro ⟨d, ⟨h1, h2⟩, -, h3⟩
        rcases (notin d).1 h1 with h | rfl
        · exact absurd h2 (not_le_of_gt ((below d).2 h))
        · exact h3
      · have hc' : c ∉ b :: rest := by simp [hcb', hc]
        obtain ⟨x, h3, h4⟩ := hl c hc'
        have := State.completeBank_rx_ne t b c hcb'
        rw [hrb, hbd] at this
        exact ⟨x, h3, (h4.trans this).iff (State.readied_or s b c (upto c hc') hcb)⟩
  · have rest' : ∀ u : State, u.mgmt = t.mgmt → u.subs = t.subs → u.trk = t.trk → u.rx = t.rx →
        s.Raised u (fun x => ∃ c, c ∉ b :: rest ∧ s.completes c ∧ x = .bankReady c) →
        (∃ n, u.ctr = { s.ctr with fillFailures := n } ∧ tallied n (rest.countP fun b => s.owed b && !s.allCaptured b) =
          tallied s.ctr.fillFailures ((List.finRange 8).countP fun b => s.owed b && !s.allCaptured b)) → s.Judged rest u := by
      intro u e1 e2 e3 e4 hu hct
      refine ⟨or, bl', e1.trans hm, e2.trans hs, e3.trans ht, hct, hu.iff fun x => ?_, fun c hc => ?_, fun c hc => ?_⟩
      · constructor
        · rintro ⟨c, h, k⟩
          exact ⟨c, (notin c).2 (.inl h), k⟩
        · rintro ⟨c, h, k⟩
          rcases (notin c).1 h with h | rfl
          · exact ⟨c, h, k⟩
          · exact absurd k.1 hcb
      · rw [e4]
        exact (ho c (List.mem_cons_of_mem _ hc)).iff (State.readied_same s b c notin hcb)
      · by_cases hcb' : c = b
        · subst hcb'
          refine ⟨_, (ho c List.mem_cons_self).iff first, ?_⟩
          rw [State.judged, if_neg (by simpa [State.completes] using hcb), e4]
          refine RxBank.Asked.refl _ ?_ _
          rintro ⟨d, ⟨h1, h2⟩, h3, -⟩
          rcases (notin d).1 h1 with h | rfl
          · exact absurd h2 (not_le_of_gt ((below d).2 h))
          · exact hcb h3
        · have hc' : c ∉ b :: rest := by simp [hcb', hc]
          obtain ⟨x, h3, h4⟩ := hl c hc'
          rw [e4]
          exact ⟨x, h3, h4.iff (State.readied_same s b c (upto c hc') hcb)⟩
    by_cases h1 : s.owed b = true
    · have h2 : s.allCaptured b ≠ true := fun h => hcb ⟨h1, h⟩
      rw [eq, if_pos h1, if_neg h2]
      refine rest' _ rfl rfl rfl rfl (hR.keep rfl rfl rfl rfl rfl) ⟨satInc n, by simp [State.count, hn], ?_⟩
      rw [← hc, List.countP_cons, tallied_succ]
      simp [h1, h2]
    · rw [eq, if_neg h1]
      refine rest' _ rfl rfl rfl rfl hR ⟨n, hn, ?_⟩
      rw [← hc, List.countP_cons]
      simp [h1]

/-- The judgement of every bank (R48, R60, R61). -/
theorem State.judgeBanks_judged (s : State) : s.Judged [] s.judgeBanks :=
  foldl_run State.judgeBank s.Judged (State.Judged.step s) (List.finRange 8) s (State.Judged.start s)

/-! ### Aging -/

/-- A record after the aging of its entry (R49, R50). -/
def State.agedRecord (s : State) (e : Fin 32) : SubRecord :=
  if s.mgmt.active.subs[e].valid then
    if s.subs[e].freshNow then s.subs[e].agedFresh s.trk.lastCycle else s.subs[e].agedOlder s.mgmt.active.subs[e].ageLimit
  else s.subs[e]

/-- The entry turns FRESH (R49). -/
def State.turnsFresh (s : State) (e : Fin 32) : Bool :=
  s.mgmt.active.subs[e].valid && s.subs[e].freshNow && decide (s.subs[e].freshness ≠ .fresh)

/-- The entry turns STALE (R50). -/
def State.turnsStale (s : State) (e : Fin 32) : Bool :=
  s.mgmt.active.subs[e].valid && !s.subs[e].freshNow && decide (s.subs[e].freshness ≠ .stale) &&
    decide (s.mgmt.active.subs[e].ageLimit < satInc s.subs[e].age)

/-- The event the aging of an entry raises. -/
def State.agingRaises (s : State) (e : Fin 32) (x : Source) : Prop :=
  (s.turnsFresh e = true ∧ x = .subFresh e) ∨ (s.turnsStale e = true ∧ x = .subStale e)

/-- The aging of one entry, in its five cases. -/
theorem State.ageEntry_cases (s : State) (e : Fin 32) :
    let aged : State := { s with subs := upd s.subs e (s.agedRecord e) }
    (s.turnsFresh e = true → s.turnsStale e = false ∧ s.ageEntry e = aged.raise (.subFresh e)) ∧
      (s.turnsStale e = true → s.turnsFresh e = false ∧
        s.ageEntry e =
          State.raise
            { aged with
              ctr := { s.ctr with staleTransitions := satInc s.ctr.staleTransitions }
              att := { s.att with stale := true } } (.subStale e)) ∧
      (s.turnsFresh e = false → s.turnsStale e = false → s.ageEntry e = aged) := by
  have same : upd s.subs e s.subs[e] = s.subs := by simp [upd]
  unfold State.ageEntry State.turnsFresh State.turnsStale State.agedRecord
  dsimp only
  generalize s.subs[e] = r at *
  generalize s.mgmt.active.subs[e] = x
  cases hv : x.valid
  · simp [same]
  · cases hf : r.freshNow
    · have hst : (r.agedOlder x.ageLimit).freshness = .stale ↔ (x.ageLimit < satInc r.age ∨ r.freshness = .stale) := by
        unfold SubRecord.agedOlder
        dsimp only
        split <;> simp_all
      by_cases h1 : r.freshness = .stale
      · simp [h1]
      · by_cases h2 : x.ageLimit < satInc r.age
        · have h3 := hst.2 (Or.inl h2)
          simp [h1, h2, h3]
          rfl
        · have h3 : (r.agedOlder x.ageLimit).freshness ≠ .stale := fun h => (hst.1 h).elim h2 h1
          simp [h2, h3]
    · by_cases hr : r.freshness = .fresh <;> simp [hr]

/-- What aging has left while the entries of `rest` are still to be aged. -/
structure State.Aged (s : State) (rest : List (Fin 32)) (t : State) : Prop where
  nodup : rest.Nodup
  mgmt : t.mgmt = s.mgmt
  trk : t.trk = s.trk
  done : ∀ e, t.subs[e] = if e ∈ rest then s.subs[e] else s.agedRecord e
  ctr : ∃ n, t.ctr = { s.ctr with staleTransitions := n } ∧
    tallied n (rest.countP s.turnsStale) = tallied s.ctr.staleTransitions ((List.finRange 32).countP s.turnsStale)
  att : ∃ x, t.att = { s.att with stale := x } ∧
    (x || rest.any s.turnsStale) = (s.att.stale || (List.finRange 32).any s.turnsStale)
  raised : ∃ R, s.Took t R ∧
    ∀ x, (R x ∨ ∃ e ∈ rest, s.agingRaises e x) ↔ ∃ e, s.agingRaises e x

theorem State.Aged.start (s : State) : s.Aged (List.finRange 32) s where
  nodup := List.nodup_finRange 32
  mgmt := rfl
  trk := rfl
  done e := by rw [if_pos (List.mem_finRange e)]
  ctr := ⟨s.ctr.staleTransitions, rfl, rfl⟩
  att := ⟨s.att.stale, rfl, rfl⟩
  raised := ⟨_, State.Took.refl s, by simp⟩

theorem State.Aged.step (s : State) (e : Fin 32) (rest : List (Fin 32)) (t : State) (h : s.Aged (e :: rest) t) :
    s.Aged rest (t.ageEntry e) := by
  obtain ⟨nd, hm, ht, hd, ⟨n, hn, hc⟩, ⟨y, hy, ha⟩, ⟨R, hR, hx⟩⟩ := h
  obtain ⟨he, nd⟩ := List.nodup_cons.1 nd
  have hse : t.subs[e] = s.subs[e] := by rw [hd, if_pos List.mem_cons_self]
  have hfr : t.turnsFresh e = s.turnsFresh e := by simp only [State.turnsFresh, hm, hse]
  have hst : t.turnsStale e = s.turnsStale e := by simp only [State.turnsStale, hm, hse]
  have hag : t.agedRecord e = s.agedRecord e := by simp only [State.agedRecord, hm, hse, ht]
  obtain ⟨c1, c2, c3⟩ := State.ageEntry_cases t e
  rw [hfr, hst, hag] at c1 c2 c3
  have hsub : ∀ c, (upd t.subs e (s.agedRecord e))[c] = if c ∈ rest then s.subs[c] else s.agedRecord c := by
    intro c
    rw [upd_get]
    by_cases hce : c = e
    · subst hce
      rw [if_pos rfl, if_neg he]
    · rw [if_neg hce, hd]
      simp [hce]
  cases h1 : s.turnsFresh e with
  | true =>
    obtain ⟨h2, eq⟩ := c1 h1
    rw [eq]
    refine ⟨nd, hm, ht, hsub, ⟨n, hn, ?_⟩, ⟨y, hy, ?_⟩, ⟨fun x => R x ∨ x = .subFresh e, by apply State.Took.raise; exact hR.keep rfl rfl rfl rfl rfl rfl, ?_⟩⟩
    · rw [← hc, List.countP_cons]
      simp [h2]
    · rw [← ha]
      simp [h2]
    · intro x
      rw [← hx]
      simp only [List.mem_cons, exists_eq_or_imp, State.agingRaises, h1, h2, true_and, Bool.false_eq_true, false_and, or_false]
      exact or_assoc
  | false =>
    cases h2 : s.turnsStale e with
    | true =>
      obtain ⟨_, eq⟩ := c2 h2
      rw [eq]
      refine ⟨nd, hm, ht, hsub, ⟨satInc n, by simp [hn], ?_⟩, ⟨true, by simp [hy], ?_⟩,
        ⟨fun x => R x ∨ x = .subStale e, by apply State.Took.raise; exact hR.keep rfl rfl rfl rfl rfl rfl, ?_⟩⟩
      · rw [← hc, List.countP_cons, tallied_succ]
        simp [h2]
      · rw [← ha]
        simp [h2]
      · intro x
        rw [← hx]
        simp only [List.mem_cons, exists_eq_or_imp, State.agingRaises, h1, h2, true_and, Bool.false_eq_true, false_and, false_or]
        exact or_assoc
      | false =>
      rw [c3 h1 h2]
      refine ⟨nd, hm, ht, hsub, ⟨n, hn, ?_⟩, ⟨y, hy, ?_⟩, ⟨R, hR.keep rfl rfl rfl rfl rfl rfl, ?_⟩⟩
      · rw [← hc, List.countP_cons]
        simp [h2]
      · rw [← ha]
        simp [h2]
      · intro x
        rw [← hx]
        simp only [List.mem_cons, exists_eq_or_imp, State.agingRaises, h1, h2, Bool.false_eq_true, false_and, or_self, false_or]

/-- The aging of every entry (R49, R50). -/
theorem State.ageAll_aged (s : State) : s.Aged [] s.ageAll :=
  foldl_run State.ageEntry s.Aged (State.Aged.step s) (List.finRange 32) s (State.Aged.start s)

/-! ### Mailboxes at a close -/

/-- A close settles the mailbox UNCONFIRMED (R87). -/
def Mailbox.unconfirmed (missed : Bool) (m : Mailbox) : Bool :=
  match m.state with
  | .inFlight _ due => due || missed
  | _ => false

/-- A mailbox after a close (R87, R97). -/
def Mailbox.closed (missed : Bool) (m : Mailbox) : Mailbox :=
  match m.state with
  | .inFlight r due => if due || missed then { m with state := .done .unconfirmed (some r) } else m
  | _ => m

theorem State.closeMailbox_cases (missed : Bool) (s : State) (m : Fin 8) :
    let settled : State :=
      { s with sched := { s.sched with mailboxes := upd s.sched.mailboxes m (s.sched.mailboxes[m].closed missed) } }
    State.closeMailbox missed s m =
      if s.sched.mailboxes[m].unconfirmed missed = true then settled.raise (.outcome m) else settled := by
  have same : upd s.sched.mailboxes m s.sched.mailboxes[m] = s.sched.mailboxes := by simp [upd]
  have same' : ({ s with sched := { s.sched with mailboxes := upd s.sched.mailboxes m s.sched.mailboxes[m] } } : State) = s := by
    rw [same]
  dsimp only
  unfold State.closeMailbox Mailbox.unconfirmed Mailbox.closed State.mailbox
  cases h : s.sched.mailboxes[m].state with
  | inFlight r due =>
    dsimp only
    split
    · simp only [State.settle, State.setMailbox, State.mailbox, h, MailboxState.flight]
    · exact same'.symm
  | free => exact same'.symm
  | waiting => exact same'.symm
  | done o f => exact same'.symm

/-- What a close has left of the mailboxes while those of `rest` are still to be settled. -/
structure State.Settled (missed : Bool) (s : State) (rest : List (Fin 8)) (t : State) : Prop where
  nodup : rest.Nodup
  mgmt : t.mgmt = s.mgmt
  sched : t.sched = { s.sched with mailboxes := t.sched.mailboxes }
  done : ∀ m, t.sched.mailboxes[m] = if m ∈ rest then s.sched.mailboxes[m] else s.sched.mailboxes[m].closed missed
  raised : ∃ R, s.Took t R ∧
    ∀ x, (R x ∨ ∃ m ∈ rest, s.sched.mailboxes[m].unconfirmed missed = true ∧ x = .outcome m) ↔
      ∃ m, s.sched.mailboxes[m].unconfirmed missed = true ∧ x = .outcome m

theorem State.Settled.start (missed : Bool) (s : State) : State.Settled missed s (List.finRange 8) s where
  nodup := List.nodup_finRange 8
  mgmt := rfl
  sched := rfl
  done m := by rw [if_pos (List.mem_finRange m)]
  raised := ⟨_, State.Took.refl s, by simp⟩

theorem State.Settled.step (missed : Bool) (s : State) (m : Fin 8) (rest : List (Fin 8)) (t : State)
    (h : State.Settled missed s (m :: rest) t) : State.Settled missed s rest (State.closeMailbox missed t m) := by
  obtain ⟨nd, hm, hs, hd, ⟨R, hR, hx⟩⟩ := h
  obtain ⟨he, nd⟩ := List.nodup_cons.1 nd
  have hbox : t.sched.mailboxes[m] = s.sched.mailboxes[m] := by rw [hd, if_pos List.mem_cons_self]
  have eq := State.closeMailbox_cases missed t m
  rw [hbox] at eq
  dsimp only at eq
  have hbx : ∀ c, (upd t.sched.mailboxes m (s.sched.mailboxes[m].closed missed))[c] =
      if c ∈ rest then s.sched.mailboxes[c] else s.sched.mailboxes[c].closed missed := by
    intro c
    rw [upd_get]
    by_cases hce : c = m
    · subst hce
      rw [if_pos rfl, if_neg he]
    · rw [if_neg hce, hd]
      simp [hce]
  cases h1 : s.sched.mailboxes[m].unconfirmed missed with
  | true =>
    rw [h1, if_pos rfl] at eq
    rw [eq]
    refine ⟨nd, hm, ?_, hbx,
      ⟨fun x => R x ∨ x = .outcome m, by apply State.Took.raise; exact hR.keep rfl rfl rfl rfl rfl rfl, ?_⟩⟩
    · show ({ t.sched with mailboxes := _ } : Scheduler) = _
      rw [hs]
      rfl
    · intro x
      rw [← hx]
      simp only [List.mem_cons, exists_eq_or_imp, h1, true_and]
      exact or_assoc
  | false =>
    rw [h1, if_neg Bool.false_ne_true] at eq
    rw [eq]
    refine ⟨nd, hm, ?_, hbx, ⟨R, hR.keep rfl rfl rfl rfl rfl rfl, ?_⟩⟩
    · show ({ t.sched with mailboxes := _ } : Scheduler) = _
      rw [hs]
    · intro x
      rw [← hx]
      simp only [List.mem_cons, exists_eq_or_imp, h1, Bool.false_eq_true, false_and, false_or]

/-- Every mailbox at a close (R87). -/
theorem State.unconfirmedAtClose_settled (s : State) (missed : Bool) :
    State.Settled missed s [] (s.unconfirmedAtClose missed) :=
  foldl_run (State.closeMailbox missed) (State.Settled missed s) (State.Settled.step missed s) (List.finRange 8) s
    (State.Settled.start missed s)

/-! ### The census -/

/-- A census update raises its event where a presence changed (R133). -/
theorem State.updateCensus_took (t : State) (l : List RollEntry) :
    t.Took (t.updateCensus l) fun x => t.presenceChanges l = true ∧ x = .censusChange := by
  have h1 : t.Took (t.withCensus l) fun _ => False := by
    unfold State.withCensus
    exact (State.Took.refl t).keep rfl rfl rfl rfl rfl rfl
  unfold State.updateCensus
  split
  · rename_i hp
    exact (h1.raise .censusChange).iff (by simp [hp])
  · rename_i hp
    exact h1.iff (by simp [hp])

/-! ### The close -/

/-- The close judges the banks (R48). -/
def State.closeJudges (s : State) (k : CloseKind) : Bool := k.judges && s.trk.beganOnline

/-- The events of a close (R33, R49, R50, R60, R87, R133). -/
def State.closeRaises (s : State) (k : CloseKind) (closed : Option (List RollEntry)) : Source → Prop
  | .bankReady b => s.closeJudges k = true ∧ s.owed b = true ∧ s.allCaptured b = true
  | .subFresh e => s.turnsFresh e = true
  | .subStale e => s.turnsStale e = true
  | .censusChange => ∃ l, closed = some l ∧ s.presenceChanges l = true
  | .outcome m => s.sched.mailboxes[m].unconfirmed (decide (k = .missed)) = true
  | .trainGood => k = .good
  | .trainBad => k = .defective ∨ k = .aborted
  | _ => False

theorem State.closePulse_took {s t : State} {R : Source → Prop} (h : s.Took t R) (k : CloseKind) :
    s.Took (t.closePulse k) fun x => R x ∨ (x = .trainGood ∧ k = .good) ∨ (x = .trainBad ∧ (k = .defective ∨ k = .aborted)) := by
  unfold State.closePulse
  cases k <;> dsimp only
  · exact (h.raise .trainGood).iff (by simp)
  · exact (h.raise .trainBad).iff (by simp)
  · exact (h.raise .trainBad).iff (by simp)
  · exact h.iff (by simp)

/-- The stage of a close that judges the banks. -/
def State.judgedFor (s : State) (k : CloseKind) : State :=
  if s.closeJudges k then (s.count k.tally).judgeBanks else s.count k.tally

/-- The stage of a close up to the census. -/
def State.censusFor (s : State) (k : CloseKind) (closed : Option (List RollEntry)) : State :=
  match closed with
  | some l => (s.judgedFor k).ageAll.clearCycleFlags.updateCensus l
  | none => (s.judgedFor k).ageAll.clearCycleFlags

theorem State.close_stages (s : State) (k : CloseKind) (closed : Option (List RollEntry)) :
    s.close k closed =
      (let u := ((s.censusFor k closed).unconfirmedAtClose (decide (k = .missed))).countRestartClose
       if k = .missed then u else u.endRecord).closePulse k := by
  unfold State.close State.censusFor State.judgedFor State.closeJudges
  cases closed <;> dsimp only [State.count_trk] <;> rfl

/-- The judgement stage: what it leaves alone, and its events (R33, R48, R60). -/
theorem State.judgedFor_spec (s : State) (k : CloseKind) :
    (s.judgedFor k).mgmt = s.mgmt ∧ (s.judgedFor k).subs = s.subs ∧ (s.judgedFor k).trk = s.trk ∧
      (s.judgedFor k).sched = s.sched ∧ (s.judgedFor k).roll = s.roll ∧ (s.judgedFor k).att = s.att ∧
      (s.judgedFor k).ctr =
        { k.tally s.ctr with
          fillFailures := tallied s.ctr.fillFailures
            ((List.finRange 8).countP fun b => (s.closeJudges k && s.owed b) && !s.allCaptured b) } ∧
      s.Raised (s.judgedFor k) (fun x => ∃ b, s.closeJudges k = true ∧ s.owed b = true ∧ s.allCaptured b = true ∧ x = .bankReady b) := by
  have hff : (k.tally s.ctr).fillFailures = s.ctr.fillFailures := by cases k <;> rfl
  unfold State.judgedFor
  cases h : s.closeJudges k
  · rw [if_neg Bool.false_ne_true]
    refine ⟨rfl, rfl, rfl, rfl, rfl, rfl, ?_, ?_⟩
    · have : (List.finRange 8).countP (fun b => (false && s.owed b) && !s.allCaptured b) = 0 := by
        rw [List.countP_eq_zero]; simp
      rw [this, tallied_zero, ← hff]
      rfl
    · have h0 : s.Raised (s.count k.tally) fun _ => False := (State.Raised.refl s).keep rfl rfl rfl rfl rfl
      exact h0.iff (by simp)
  · rw [if_pos rfl]
    have j := State.judgeBanks_judged (s.count k.tally)
    refine ⟨by simp, by simp, by simp, by simp, by simp, by simp, ?_, ?_⟩
    · obtain ⟨n, h1, h2⟩ := j.ctr
      rw [h1]
      rw [List.countP_nil, tallied_zero] at h2
      rw [h2]
      show ({ k.tally s.ctr with fillFailures := tallied (k.tally s.ctr).fillFailures _ } : TapCounters) = _
      rw [hff]
      simp only [Bool.true_and]
      rfl
    · have h0 : s.Raised (s.count k.tally) fun _ => False := (State.Raised.refl s).keep rfl rfl rfl rfl rfl
      refine (h0.trans j.raised).iff fun x => ?_
      simp only [List.not_mem_nil, not_false_eq_true, true_and, false_or, State.completes, and_assoc]
      exact Iff.rfl

/-- The stages up to the census: what they leave, and what the aging and the census raise (R49, R50, R133). -/
theorem State.censusFor_spec (s : State) (k : CloseKind) (closed : Option (List RollEntry)) :
    let t := s.censusFor k closed
    t.mgmt = s.mgmt ∧ t.sched = s.sched ∧
      (∀ e, t.subs[e] = { s.agedRecord e with captured := false, freshNow := false }) ∧
      t.att = { s.att with stale := s.att.stale || (List.finRange 32).any s.turnsStale } ∧
      t.ctr =
        { k.tally s.ctr with
          fillFailures := tallied s.ctr.fillFailures
            ((List.finRange 8).countP fun b => (s.closeJudges k && s.owed b) && !s.allCaptured b)
          staleTransitions := tallied s.ctr.staleTransitions ((List.finRange 32).countP s.turnsStale) } ∧
      (s.judgedFor k).Took t fun x =>
        (∃ e, s.agingRaises e x) ∨ ∃ l, closed = some l ∧ s.presenceChanges l = true ∧ x = .censusChange := by
  dsimp only
  obtain ⟨h1, h2, h3, h4, h5, h6, h7, -⟩ := State.judgedFor_spec s k
  have ag := State.ageAll_aged (s.judgedFor k)
  have hst : (s.judgedFor k).turnsStale = s.turnsStale := by
    funext e; simp only [State.turnsStale, h1, h2]
  have har : (s.judgedFor k).agingRaises = s.agingRaises := by
    funext e x; simp only [State.agingRaises, State.turnsFresh, State.turnsStale, h1, h2]
  have hrec : (s.judgedFor k).agedRecord = s.agedRecord := by
    funext e; simp only [State.agedRecord, h1, h2, h3]
  obtain ⟨R, hR, hx⟩ := ag.raised
  have hraise : (s.judgedFor k).Took (s.judgedFor k).ageAll.clearCycleFlags fun x => ∃ e, s.agingRaises e x := by
    refine (hR.keep (by simp) (by simp) (by simp) (by simp) (by simp) (by simp)).iff fun x => ?_
    have := hx x
    simp only [List.not_mem_nil, false_and, exists_false, or_false] at this
    rw [this, har]
  have hsub : ∀ e, (s.judgedFor k).ageAll.clearCycleFlags.subs[e] = { s.agedRecord e with captured := false, freshNow := false } := by
    intro e
    have := ag.done e
    rw [if_neg List.not_mem_nil, hrec] at this
    rw [← this]
    exact ofFn_get _ e
  have hatt : (s.judgedFor k).ageAll.clearCycleFlags.att =
      { s.att with stale := s.att.stale || (List.finRange 32).any s.turnsStale } := by
    obtain ⟨y, h9, h10⟩ := ag.att
    rw [List.any_nil, Bool.or_false, hst, h6] at h10
    rw [State.clearCycleFlags_att, h9, h10, h6]
  have hctr : (s.judgedFor k).ageAll.clearCycleFlags.ctr =
      { k.tally s.ctr with
        fillFailures := tallied s.ctr.fillFailures
          ((List.finRange 8).countP fun b => (s.closeJudges k && s.owed b) && !s.allCaptured b)
        staleTransitions := tallied s.ctr.staleTransitions ((List.finRange 32).countP s.turnsStale) } := by
    obtain ⟨n, h9, h10⟩ := ag.ctr
    rw [List.countP_nil, tallied_zero, hst, h7] at h10
    have hss : (k.tally s.ctr).staleTransitions = s.ctr.staleTransitions := by cases k <;> rfl
    rw [State.clearCycleFlags_ctr, h9, h7, h10]
    show ({ k.tally s.ctr with fillFailures := _, staleTransitions := tallied (k.tally s.ctr).staleTransitions _ } : TapCounters) = _
    rw [hss]
  cases closed with
  | none =>
    unfold State.censusFor
    refine ⟨by simp [h1], by simp [h4], hsub, hatt, hctr, hraise.iff (by simp)⟩
  | some l =>
    unfold State.censusFor
    dsimp only
    refine ⟨by simp [h1], by simp [h4], ?_, ?_, ?_, ?_⟩
    · intro e; rw [← hsub]; simp
    · rw [← hatt]; simp
    · rw [← hctr]; simp
    · refine (hraise.trans (State.updateCensus_took _ l)).iff fun x => ?_
      have : (s.judgedFor k).ageAll.clearCycleFlags.presenceChanges l = s.presenceChanges l := by
        unfold State.presenceChanges State.nextCensus
        have e1 : (s.judgedFor k).ageAll.clearCycleFlags.roll = s.roll := by simp [h5]
        have e2 : (s.judgedFor k).ageAll.clearCycleFlags.trk = s.trk := by simp [h3]
        have e3 : (s.judgedFor k).ageAll.clearCycleFlags.mgmt = s.mgmt := by simp [h1]
        simp only [e1, e2, e3]
      rw [this]
      simp

/-- What a close raises after the judgement of the banks (R33, R49, R50, R87, R133). -/
theorem State.close_took (s : State) (k : CloseKind) (closed : Option (List RollEntry)) :
    (s.judgedFor k).Took (s.close k closed) fun x => s.closeRaises k closed x ∧ ∀ b, x ≠ .bankReady b := by
  obtain ⟨h1, h2, -, -, -, h3⟩ := State.censusFor_spec s k closed
  have se := State.unconfirmedAtClose_settled (s.censusFor k closed) (decide (k = .missed))
  obtain ⟨R, hR, hx⟩ := se.raised
  have h4 := h3.trans hR
  rw [State.close_stages]
  dsimp only
  generalize hv : (s.censusFor k closed).unconfirmedAtClose (decide (k = .missed)) = v at h4
  have h5 := h4.keep (t' := if k = .missed then v.countRestartClose else v.countRestartClose.endRecord) (by split <;> rfl)
    (by split <;> rfl) (by split <;> rfl) (by split <;> rfl) (by split <;> rfl) (by split <;> rfl)
  refine (State.closePulse_took h5 k).iff fun x => ?_
  have := hx x
  simp only [List.not_mem_nil, false_and, exists_false, or_false, h2] at this
  rw [this]
  cases x <;> simp [State.closeRaises, State.agingRaises]

/-- The events of a close (R33, R49, R50, R60, R87, R133). -/
theorem State.close_raised (s : State) (k : CloseKind) (closed : Option (List RollEntry)) :
    s.Raised (s.close k closed) (s.closeRaises k closed) := by
  obtain ⟨-, -, -, -, -, -, -, h⟩ := State.judgedFor_spec s k
  refine (h.trans (State.close_took s k closed).toRaised).iff fun x => ?_
  cases x <;> simp [State.closeRaises]

/-- The records, the attention causes, the counters and the mailboxes after a close (R33, R47 to R50, R87). -/
theorem State.close_units (s : State) (k : CloseKind) (closed : Option (List RollEntry)) :
    (∀ e : Fin 32, (s.close k closed).subs[e] = { s.agedRecord e with captured := false, freshNow := false }) ∧
      (s.close k closed).att = { s.att with stale := s.att.stale || (List.finRange 32).any s.turnsStale } ∧
      (s.close k closed).ctr =
        { k.tally s.ctr with
          fillFailures := tallied s.ctr.fillFailures
            ((List.finRange 8).countP fun b => (s.closeJudges k && s.owed b) && !s.allCaptured b)
          staleTransitions := tallied s.ctr.staleTransitions ((List.finRange 32).countP s.turnsStale) } ∧
      (s.close k closed).sched = { s.sched with mailboxes := (s.close k closed).sched.mailboxes } ∧
      ∀ m : Fin 8, (s.close k closed).sched.mailboxes[m] = s.sched.mailboxes[m].closed (decide (k = .missed)) := by
  obtain ⟨-, h2, h3, h4, h5, -⟩ := State.censusFor_spec s k closed
  have se := State.unconfirmedAtClose_settled (s.censusFor k closed) (decide (k = .missed))
  rw [State.close_stages]
  have tail : ∀ t : State,
      let u := State.closePulse (if k = .missed then t.countRestartClose else t.countRestartClose.endRecord) k
      u.subs = t.subs ∧ u.att = t.att ∧ u.ctr = t.ctr ∧ u.sched = t.sched := by
    intro t
    dsimp only
    cases k <;> exact ⟨rfl, rfl, rfl, rfl⟩
  obtain ⟨t1, t2, t3, t4⟩ := tail ((s.censusFor k closed).unconfirmedAtClose (decide (k = .missed)))
  refine ⟨?_, ?_, ?_, ?_, ?_⟩
  · intro e
    rw [← h3]
    simp only [t1, State.unconfirmedAtClose_subs]
  · rw [← h4, t2, State.unconfirmedAtClose_att]
  · rw [← h5, t3, State.unconfirmedAtClose_ctr]
  · rw [t4, se.sched, h2]
  · intro m
    have := se.done m
    rw [if_neg List.not_mem_nil, h2] at this
    rw [← this]
    simp only [t4]

/-- A user follows one channel, which has one source. -/
theorem State.bound_unique {s : State} {x y : Source} {u : Fin 21} (hx : s.bound x u = true) (hy : s.bound y u = true) : x = y := by
  obtain ⟨c, hc, rfl⟩ := (State.bound_iff _ _ _).1 hx
  obtain ⟨d, hd, rfl⟩ := (State.bound_iff _ _ _).1 hy
  rw [hc] at hd
  cases hd
  rfl

/-- A receive bank after a close (R48, R60 to R63): complete where it was judged so; its TAKE user takes where an event of the close
reaches it, after the bank's judgement but at the BANK_READY of a bank judged before. -/
theorem State.close_rx (s : State) (k : CloseKind) (closed : Option (List RollEntry)) (b : Fin 8) :
    let judged (x : RxBank) : RxBank := if s.closeJudges k = true then s.judged b x else x
    let early : Prop := s.closeJudges k = true ∧ s.readied (· < b) b
    let taken : Prop := s.reached (s.closeRaises k closed) (takeUser b)
    (¬taken → (s.close k closed).rx[b] = judged s.rx[b]) ∧
      (taken → ¬early → (s.close k closed).rx[b] = (judged s.rx[b]).requestTake (s.readBurst b)) ∧
      (early → (s.close k closed).rx[b] = judged (s.rx[b].requestTake (s.readBurst b))) := by
  dsimp only
  obtain ⟨j1, -, -, -, -, -, -, jr⟩ := State.judgedFor_spec s k
  have late := (State.close_took s k closed).rx b
  rw [State.readBurst_congr jr.txn] at late
  have hb : ∀ x u, (s.judgedFor k).bound x u = s.bound x u := State.bound_congr jr.active
  have reach : (s.judgedFor k).reached (fun x => s.closeRaises k closed x ∧ ∀ c, x ≠ .bankReady c) (takeUser b) ↔
      ∃ x, (s.closeRaises k closed x ∧ ∀ c, x ≠ .bankReady c) ∧ s.bound x (takeUser b) = true :=
    exists_congr fun x => and_congr_right' (by rw [hb])
  replace late := late.iff reach
  cases hj : s.closeJudges k
  · have h0 : (s.judgedFor k).rx = s.rx := by unfold State.judgedFor; rw [hj]; rfl
    simp only [h0] at late
    have e : (∃ x, (s.closeRaises k closed x ∧ ∀ c, x ≠ .bankReady c) ∧ s.bound x (takeUser b) = true) ↔
        s.reached (s.closeRaises k closed) (takeUser b) := by
      refine exists_congr fun x => and_congr_left' ⟨And.left, fun h => ⟨h, ?_⟩⟩
      rintro c rfl
      exact Bool.false_ne_true (hj.symm.trans h.1)
    replace late := late.iff e
    simp only [Bool.false_eq_true, if_false, false_and, not_false_eq_true, forall_const, false_imp_iff, and_true]
    exact ⟨late.2, late.1⟩
  · obtain ⟨x, h1, h2⟩ := (State.judgeBanks_judged (s.count k.tally)).left b List.not_mem_nil
    have e : s.judgedFor k = (s.count k.tally).judgeBanks := by unfold State.judgedFor; rw [hj]; rfl
    rw [← e] at h2
    replace h1 : RxBank.Asked (s.readBurst b) (s.readied (· < b) b) s.rx[b] x := h1
    replace h2 : RxBank.Asked (s.readBurst b) (s.readied (fun c => c ∉ ([] : List (Fin 8)) ∧ b ≤ c) b) (s.judged b x)
      (s.judgedFor k).rx[b] := h2
    have raises : ∀ c, s.completes c → s.closeRaises k closed (.bankReady c) := fun c h => ⟨hj, h⟩
    simp only [if_true, true_and]
    refine ⟨fun n => ?_, fun y n => ?_, fun y => ?_⟩
    · rw [late.2 fun ⟨x, h, k⟩ => n ⟨x, h.1, k⟩, h2.2 fun ⟨c, _, h, k⟩ => n ⟨_, raises c h, k⟩,
        h1.2 fun ⟨c, _, h, k⟩ => n ⟨_, raises c h, k⟩]
    · rw [h1.2 n] at h2
      refine (h2.trans late).1 ?_
      obtain ⟨z, hz, hu⟩ := y
      by_cases hc : ∃ c, z = .bankReady c
      · obtain ⟨c, rfl⟩ := hc
        refine .inl ⟨c, ⟨List.not_mem_nil, ?_⟩, hz.2, hu⟩
        exact le_of_not_gt fun hlt => n ⟨c, hlt, hz.2, hu⟩
      · exact .inr ⟨z, ⟨hz, fun c h => hc ⟨c, h⟩⟩, hu⟩
    · obtain ⟨c, hlt, hcc, hu⟩ := y
      rw [late.2, h2.2, h1.1 ⟨c, hlt, hcc, hu⟩]
      · rintro ⟨d, ⟨_, hd⟩, _, hv⟩
        cases State.bound_unique hu hv
        exact absurd hlt (not_lt_of_ge hd)
      · rintro ⟨z, ⟨_, hz⟩, hv⟩
        exact hz c (State.bound_unique hv hu)

end Sys2Proof.Machine
end

