-- ==== Sys2Proof/Laws/Ports.lean ====
section
/-! SUPPORT. The port units and the local port: what a frame's leaving, a port's leaving of service, a written word and a local
action do, and what they leave alone. -/

namespace Sys2Proof.Machine

set_option Elab.async false

/-! What fills the line: the other port's line in BYPASS, the port unit's own fill elsewhere. -/

theorem State.lineFill_bypass {s : State} (h : s.ctl.tapState = .bypass) (arriving : Port → Option LineFill) (p : Port) :
    s.lineFill arriving p = arriving p.other := by simp [State.lineFill, State.inBypass, h]

theorem State.lineFill_driven {s : State} (h : s.ctl.tapState ≠ .bypass) (arriving : Port → Option LineFill) (p : Port) :
    s.lineFill arriving p = some (s.unit p).lineFill := by simp [State.lineFill, State.inBypass, h]

/-! ### What leaves the tap -/

@[simp] theorem State.depart_pending (s : State) (p : Port) (h : HeldFrame) : (s.depart p h).pending = s.pending := by
  unfold State.depart; dsimp only; split <;> rfl
@[simp] theorem State.depart_now (s : State) (p : Port) (h : HeldFrame) : (s.depart p h).now = s.now := by
  unfold State.depart; dsimp only; split <;> rfl
@[simp] theorem State.depart_ctl (s : State) (p : Port) (h : HeldFrame) : (s.depart p h).ctl = s.ctl := by
  unfold State.depart; dsimp only; split <;> rfl
@[simp] theorem State.depart_trk (s : State) (p : Port) (h : HeldFrame) : (s.depart p h).trk = s.trk := by
  unfold State.depart; dsimp only; split <;> rfl
@[simp] theorem State.depart_subs (s : State) (p : Port) (h : HeldFrame) : (s.depart p h).subs = s.subs := by
  unfold State.depart; dsimp only; split <;> rfl
@[simp] theorem State.depart_rx (s : State) (p : Port) (h : HeldFrame) : (s.depart p h).rx = s.rx := by
  unfold State.depart; dsimp only; split <;> rfl
@[simp] theorem State.depart_pub (s : State) (p : Port) (h : HeldFrame) : (s.depart p h).pub = s.pub := by
  unfold State.depart; dsimp only; split <;> rfl
@[simp] theorem State.depart_sched (s : State) (p : Port) (h : HeldFrame) : (s.depart p h).sched = s.sched := by
  unfold State.depart; dsimp only; split <;> rfl
@[simp] theorem State.depart_inbound (s : State) (p : Port) (h : HeldFrame) : (s.depart p h).inbound = s.inbound := by
  unfold State.depart; dsimp only; split <;> rfl
@[simp] theorem State.depart_roll (s : State) (p : Port) (h : HeldFrame) : (s.depart p h).roll = s.roll := by
  unfold State.depart; dsimp only; split <;> rfl
@[simp] theorem State.depart_sig (s : State) (p : Port) (h : HeldFrame) : (s.depart p h).sig = s.sig := by
  unfold State.depart; dsimp only; split <;> rfl
@[simp] theorem State.depart_att (s : State) (p : Port) (h : HeldFrame) : (s.depart p h).att = s.att := by
  unfold State.depart; dsimp only; split <;> rfl
@[simp] theorem State.depart_lsp (s : State) (p : Port) (h : HeldFrame) : (s.depart p h).lsp = s.lsp := by
  unfold State.depart; dsimp only; split <;> rfl
@[simp] theorem State.depart_rst (s : State) (p : Port) (h : HeldFrame) : (s.depart p h).rst = s.rst := by
  unfold State.depart; dsimp only; split <;> rfl
@[simp] theorem State.depart_ctr (s : State) (p : Port) (h : HeldFrame) : (s.depart p h).ctr = s.ctr := by
  unfold State.depart; dsimp only; split <;> rfl

@[simp] theorem State.depart_sent (s : State) (p : Port) (h : HeldFrame) : (s.depart p h).sent = s.sent ++ [⟨p, h.content⟩] := by
  unfold State.depart; dsimp only; split <;> rfl

@[simp] theorem State.depart_unit (s : State) (p q : Port) (h : HeldFrame) : (s.depart p h).unit q = s.unit q := by
  unfold State.depart; dsimp only; split <;> cases q <;> rfl

/-- A departing frame moves nothing of the management unit but the mark of a pending restart (R124). -/
theorem State.depart_mgmt (s : State) (p : Port) (h : HeldFrame) :
    (s.depart p h).mgmt = { s.mgmt with pendingRestart := (s.depart p h).mgmt.pendingRestart } := by
  unfold State.depart; dsimp only; split <;> rfl

@[simp] theorem State.sendOut_pending (s : State) (p : Port) (h : HeldFrame) : (s.sendOut p h).pending = s.pending := by
  unfold State.sendOut; split <;> simp
@[simp] theorem State.sendOut_now (s : State) (p : Port) (h : HeldFrame) : (s.sendOut p h).now = s.now := by
  unfold State.sendOut; split <;> simp
@[simp] theorem State.sendOut_ctl (s : State) (p : Port) (h : HeldFrame) : (s.sendOut p h).ctl = s.ctl := by
  unfold State.sendOut; split <;> simp
@[simp] theorem State.sendOut_trk (s : State) (p : Port) (h : HeldFrame) : (s.sendOut p h).trk = s.trk := by
  unfold State.sendOut; split <;> simp
@[simp] theorem State.sendOut_subs (s : State) (p : Port) (h : HeldFrame) : (s.sendOut p h).subs = s.subs := by
  unfold State.sendOut; split <;> simp
@[simp] theorem State.sendOut_rx (s : State) (p : Port) (h : HeldFrame) : (s.sendOut p h).rx = s.rx := by
  unfold State.sendOut; split <;> simp
@[simp] theorem State.sendOut_pub (s : State) (p : Port) (h : HeldFrame) : (s.sendOut p h).pub = s.pub := by
  unfold State.sendOut; split <;> simp
@[simp] theorem State.sendOut_sched (s : State) (p : Port) (h : HeldFrame) : (s.sendOut p h).sched = s.sched := by
  unfold State.sendOut; split <;> simp
@[simp] theorem State.sendOut_inbound (s : State) (p : Port) (h : HeldFrame) : (s.sendOut p h).inbound = s.inbound := by
  unfold State.sendOut; split <;> simp
@[simp] theorem State.sendOut_roll (s : State) (p : Port) (h : HeldFrame) : (s.sendOut p h).roll = s.roll := by
  unfold State.sendOut; split <;> simp
@[simp] theorem State.sendOut_sig (s : State) (p : Port) (h : HeldFrame) : (s.sendOut p h).sig = s.sig := by
  unfold State.sendOut; split <;> simp
@[simp] theorem State.sendOut_att (s : State) (p : Port) (h : HeldFrame) : (s.sendOut p h).att = s.att := by
  unfold State.sendOut; split <;> simp
@[simp] theorem State.sendOut_lsp (s : State) (p : Port) (h : HeldFrame) : (s.sendOut p h).lsp = s.lsp := by
  unfold State.sendOut; split <;> simp
@[simp] theorem State.sendOut_rst (s : State) (p : Port) (h : HeldFrame) : (s.sendOut p h).rst = s.rst := by
  unfold State.sendOut; split <;> simp
@[simp] theorem State.sendOut_ctr (s : State) (p : Port) (h : HeldFrame) : (s.sendOut p h).ctr = s.ctr := by
  unfold State.sendOut; split <;> simp

/-- What a frame sent out leaves of a port: only the elastic buffer of its own may grow (R145). -/
theorem State.sendOut_unit (s : State) (p q : Port) (h : HeldFrame) :
    (s.sendOut p h).unit q = { s.unit q with elastic := ((s.sendOut p h).unit q).elastic } := by
  unfold State.sendOut
  split
  · cases p <;> cases q <;> rfl
  · simp

/-! ### A frame that ends early -/

@[simp] theorem State.endPartial_pending (s : State) (p : Port) : (s.endPartial p).pending = s.pending := by
  unfold State.endPartial State.countPublishLost; dsimp only; (repeat' split) <;> simp
@[simp] theorem State.endPartial_now (s : State) (p : Port) : (s.endPartial p).now = s.now := by
  unfold State.endPartial State.countPublishLost; dsimp only; (repeat' split) <;> simp
@[simp] theorem State.endPartial_ctl (s : State) (p : Port) : (s.endPartial p).ctl = s.ctl := by
  unfold State.endPartial State.countPublishLost; dsimp only; (repeat' split) <;> simp
@[simp] theorem State.endPartial_trk (s : State) (p : Port) : (s.endPartial p).trk = s.trk := by
  unfold State.endPartial State.countPublishLost; dsimp only; (repeat' split) <;> simp
@[simp] theorem State.endPartial_subs (s : State) (p : Port) : (s.endPartial p).subs = s.subs := by
  unfold State.endPartial State.countPublishLost; dsimp only; (repeat' split) <;> simp
@[simp] theorem State.endPartial_rx (s : State) (p : Port) : (s.endPartial p).rx = s.rx := by
  unfold State.endPartial State.countPublishLost; dsimp only; (repeat' split) <;> simp
@[simp] theorem State.endPartial_pub (s : State) (p : Port) : (s.endPartial p).pub = s.pub := by
  unfold State.endPartial State.countPublishLost; dsimp only; (repeat' split) <;> simp
@[simp] theorem State.endPartial_sched (s : State) (p : Port) : (s.endPartial p).sched = s.sched := by
  unfold State.endPartial State.countPublishLost; dsimp only; (repeat' split) <;> simp
@[simp] theorem State.endPartial_inbound (s : State) (p : Port) : (s.endPartial p).inbound = s.inbound := by
  unfold State.endPartial State.countPublishLost; dsimp only; (repeat' split) <;> simp
@[simp] theorem State.endPartial_roll (s : State) (p : Port) : (s.endPartial p).roll = s.roll := by
  unfold State.endPartial State.countPublishLost; dsimp only; (repeat' split) <;> simp
@[simp] theorem State.endPartial_sig (s : State) (p : Port) : (s.endPartial p).sig = s.sig := by
  unfold State.endPartial State.countPublishLost; dsimp only; (repeat' split) <;> simp
@[simp] theorem State.endPartial_att (s : State) (p : Port) : (s.endPartial p).att = s.att := by
  unfold State.endPartial State.countPublishLost; dsimp only; (repeat' split) <;> simp
@[simp] theorem State.endPartial_lsp (s : State) (p : Port) : (s.endPartial p).lsp = s.lsp := by
  unfold State.endPartial State.countPublishLost; dsimp only; (repeat' split) <;> simp
@[simp] theorem State.endPartial_rst (s : State) (p : Port) : (s.endPartial p).rst = s.rst := by
  unfold State.endPartial State.countPublishLost; dsimp only; (repeat' split) <;> simp

@[simp] theorem State.cutFrom_pending (p : Port) (s : State) (q : Port) : (State.cutFrom p s q).pending = s.pending := by
  unfold State.cutFrom State.countPublishLost; dsimp only; (repeat' split) <;> simp
@[simp] theorem State.cutFrom_now (p : Port) (s : State) (q : Port) : (State.cutFrom p s q).now = s.now := by
  unfold State.cutFrom State.countPublishLost; dsimp only; (repeat' split) <;> simp
@[simp] theorem State.cutFrom_ctl (p : Port) (s : State) (q : Port) : (State.cutFrom p s q).ctl = s.ctl := by
  unfold State.cutFrom State.countPublishLost; dsimp only; (repeat' split) <;> simp
@[simp] theorem State.cutFrom_trk (p : Port) (s : State) (q : Port) : (State.cutFrom p s q).trk = s.trk := by
  unfold State.cutFrom State.countPublishLost; dsimp only; (repeat' split) <;> simp
@[simp] theorem State.cutFrom_subs (p : Port) (s : State) (q : Port) : (State.cutFrom p s q).subs = s.subs := by
  unfold State.cutFrom State.countPublishLost; dsimp only; (repeat' split) <;> simp
@[simp] theorem State.cutFrom_rx (p : Port) (s : State) (q : Port) : (State.cutFrom p s q).rx = s.rx := by
  unfold State.cutFrom State.countPublishLost; dsimp only; (repeat' split) <;> simp
@[simp] theorem State.cutFrom_pub (p : Port) (s : State) (q : Port) : (State.cutFrom p s q).pub = s.pub := by
  unfold State.cutFrom State.countPublishLost; dsimp only; (repeat' split) <;> simp
@[simp] theorem State.cutFrom_sched (p : Port) (s : State) (q : Port) : (State.cutFrom p s q).sched = s.sched := by
  unfold State.cutFrom State.countPublishLost; dsimp only; (repeat' split) <;> simp
@[simp] theorem State.cutFrom_inbound (p : Port) (s : State) (q : Port) : (State.cutFrom p s q).inbound = s.inbound := by
  unfold State.cutFrom State.countPublishLost; dsimp only; (repeat' split) <;> simp
@[simp] theorem State.cutFrom_roll (p : Port) (s : State) (q : Port) : (State.cutFrom p s q).roll = s.roll := by
  unfold State.cutFrom State.countPublishLost; dsimp only; (repeat' split) <;> simp
@[simp] theorem State.cutFrom_sig (p : Port) (s : State) (q : Port) : (State.cutFrom p s q).sig = s.sig := by
  unfold State.cutFrom State.countPublishLost; dsimp only; (repeat' split) <;> simp
@[simp] theorem State.cutFrom_att (p : Port) (s : State) (q : Port) : (State.cutFrom p s q).att = s.att := by
  unfold State.cutFrom State.countPublishLost; dsimp only; (repeat' split) <;> simp
@[simp] theorem State.cutFrom_lsp (p : Port) (s : State) (q : Port) : (State.cutFrom p s q).lsp = s.lsp := by
  unfold State.cutFrom State.countPublishLost; dsimp only; (repeat' split) <;> simp
@[simp] theorem State.cutFrom_rst (p : Port) (s : State) (q : Port) : (State.cutFrom p s q).rst = s.rst := by
  unfold State.cutFrom State.countPublishLost; dsimp only; (repeat' split) <;> simp

@[simp] theorem State.cutOutputs_pending (s : State) (p : Port) : (s.cutOutputs p).pending = s.pending := by
  have lost : ∀ (t : State) (h : HeldFrame), (t.loseHeld h).pending = t.pending := by
    intro t h; unfold State.loseHeld State.countPublishLost; split <;> simp
  unfold State.cutOutputs; dsimp only
  split <;> simp [foldl_keeps State.pending _ lost, foldl_keeps State.pending _ (State.cutFrom_pending p)]
@[simp] theorem State.cutOutputs_now (s : State) (p : Port) : (s.cutOutputs p).now = s.now := by
  have lost : ∀ (t : State) (h : HeldFrame), (t.loseHeld h).now = t.now := by
    intro t h; unfold State.loseHeld State.countPublishLost; split <;> simp
  unfold State.cutOutputs; dsimp only
  split <;> simp [foldl_keeps State.now _ lost, foldl_keeps State.now _ (State.cutFrom_now p)]
@[simp] theorem State.cutOutputs_ctl (s : State) (p : Port) : (s.cutOutputs p).ctl = s.ctl := by
  have lost : ∀ (t : State) (h : HeldFrame), (t.loseHeld h).ctl = t.ctl := by
    intro t h; unfold State.loseHeld State.countPublishLost; split <;> simp
  unfold State.cutOutputs; dsimp only
  split <;> simp [foldl_keeps State.ctl _ lost, foldl_keeps State.ctl _ (State.cutFrom_ctl p)]
@[simp] theorem State.cutOutputs_trk (s : State) (p : Port) : (s.cutOutputs p).trk = s.trk := by
  have lost : ∀ (t : State) (h : HeldFrame), (t.loseHeld h).trk = t.trk := by
    intro t h; unfold State.loseHeld State.countPublishLost; split <;> simp
  unfold State.cutOutputs; dsimp only
  split <;> simp [foldl_keeps State.trk _ lost, foldl_keeps State.trk _ (State.cutFrom_trk p)]
@[simp] theorem State.cutOutputs_subs (s : State) (p : Port) : (s.cutOutputs p).subs = s.subs := by
  have lost : ∀ (t : State) (h : HeldFrame), (t.loseHeld h).subs = t.subs := by
    intro t h; unfold State.loseHeld State.countPublishLost; split <;> simp
  unfold State.cutOutputs; dsimp only
  split <;> simp [foldl_keeps State.subs _ lost, foldl_keeps State.subs _ (State.cutFrom_subs p)]
@[simp] theorem State.cutOutputs_rx (s : State) (p : Port) : (s.cutOutputs p).rx = s.rx := by
  have lost : ∀ (t : State) (h : HeldFrame), (t.loseHeld h).rx = t.rx := by
    intro t h; unfold State.loseHeld State.countPublishLost; split <;> simp
  unfold State.cutOutputs; dsimp only
  split <;> simp [foldl_keeps State.rx _ lost, foldl_keeps State.rx _ (State.cutFrom_rx p)]
@[simp] theorem State.cutOutputs_pub (s : State) (p : Port) : (s.cutOutputs p).pub = s.pub := by
  have lost : ∀ (t : State) (h : HeldFrame), (t.loseHeld h).pub = t.pub := by
    intro t h; unfold State.loseHeld State.countPublishLost; split <;> simp
  unfold State.cutOutputs; dsimp only
  split <;> simp [foldl_keeps State.pub _ lost, foldl_keeps State.pub _ (State.cutFrom_pub p)]
@[simp] theorem State.cutOutputs_sched (s : State) (p : Port) : (s.cutOutputs p).sched = s.sched := by
  have lost : ∀ (t : State) (h : HeldFrame), (t.loseHeld h).sched = t.sched := by
    intro t h; unfold State.loseHeld State.countPublishLost; split <;> simp
  unfold State.cutOutputs; dsimp only
  split <;> simp [foldl_keeps State.sched _ lost, foldl_keeps State.sched _ (State.cutFrom_sched p)]
@[simp] theorem State.cutOutputs_inbound (s : State) (p : Port) : (s.cutOutputs p).inbound = s.inbound := by
  have lost : ∀ (t : State) (h : HeldFrame), (t.loseHeld h).inbound = t.inbound := by
    intro t h; unfold State.loseHeld State.countPublishLost; split <;> simp
  unfold State.cutOutputs; dsimp only
  split <;> simp [foldl_keeps State.inbound _ lost, foldl_keeps State.inbound _ (State.cutFrom_inbound p)]
@[simp] theorem State.cutOutputs_roll (s : State) (p : Port) : (s.cutOutputs p).roll = s.roll := by
  have lost : ∀ (t : State) (h : HeldFrame), (t.loseHeld h).roll = t.roll := by
    intro t h; unfold State.loseHeld State.countPublishLost; split <;> simp
  unfold State.cutOutputs; dsimp only
  split <;> simp [foldl_keeps State.roll _ lost, foldl_keeps State.roll _ (State.cutFrom_roll p)]
@[simp] theorem State.cutOutputs_sig (s : State) (p : Port) : (s.cutOutputs p).sig = s.sig := by
  have lost : ∀ (t : State) (h : HeldFrame), (t.loseHeld h).sig = t.sig := by
    intro t h; unfold State.loseHeld State.countPublishLost; split <;> simp
  unfold State.cutOutputs; dsimp only
  split <;> simp [foldl_keeps State.sig _ lost, foldl_keeps State.sig _ (State.cutFrom_sig p)]
@[simp] theorem State.cutOutputs_att (s : State) (p : Port) : (s.cutOutputs p).att = s.att := by
  have lost : ∀ (t : State) (h : HeldFrame), (t.loseHeld h).att = t.att := by
    intro t h; unfold State.loseHeld State.countPublishLost; split <;> simp
  unfold State.cutOutputs; dsimp only
  split <;> simp [foldl_keeps State.att _ lost, foldl_keeps State.att _ (State.cutFrom_att p)]
@[simp] theorem State.cutOutputs_lsp (s : State) (p : Port) : (s.cutOutputs p).lsp = s.lsp := by
  have lost : ∀ (t : State) (h : HeldFrame), (t.loseHeld h).lsp = t.lsp := by
    intro t h; unfold State.loseHeld State.countPublishLost; split <;> simp
  unfold State.cutOutputs; dsimp only
  split <;> simp [foldl_keeps State.lsp _ lost, foldl_keeps State.lsp _ (State.cutFrom_lsp p)]
@[simp] theorem State.cutOutputs_rst (s : State) (p : Port) : (s.cutOutputs p).rst = s.rst := by
  have lost : ∀ (t : State) (h : HeldFrame), (t.loseHeld h).rst = t.rst := by
    intro t h; unfold State.loseHeld State.countPublishLost; split <;> simp
  unfold State.cutOutputs; dsimp only
  split <;> simp [foldl_keeps State.rst _ lost, foldl_keeps State.rst _ (State.cutFrom_rst p)]

/-! ### Leaving service -/

@[simp] theorem State.leaveService_pending (s : State) (p : Port) : (s.leaveService p).pending = s.pending := by
  unfold State.leaveService; dsimp only; (repeat' split) <;> simp
@[simp] theorem State.leaveService_now (s : State) (p : Port) : (s.leaveService p).now = s.now := by
  unfold State.leaveService; dsimp only; (repeat' split) <;> simp
@[simp] theorem State.leaveService_sent (s : State) (p : Port) : (s.leaveService p).sent = s.sent := by
  unfold State.leaveService; dsimp only; (repeat' split) <;> simp
@[simp] theorem State.leaveService_ctl (s : State) (p : Port) : (s.leaveService p).ctl = s.ctl := by
  unfold State.leaveService; dsimp only; (repeat' split) <;> simp
@[simp] theorem State.leaveService_trk (s : State) (p : Port) : (s.leaveService p).trk = s.trk := by
  unfold State.leaveService; dsimp only; (repeat' split) <;> simp
@[simp] theorem State.leaveService_mgmt (s : State) (p : Port) : (s.leaveService p).mgmt = s.mgmt := by
  unfold State.leaveService; dsimp only; (repeat' split) <;> simp
@[simp] theorem State.leaveService_subs (s : State) (p : Port) : (s.leaveService p).subs = s.subs := by
  unfold State.leaveService; dsimp only; (repeat' split) <;> simp
@[simp] theorem State.leaveService_sched (s : State) (p : Port) : (s.leaveService p).sched = s.sched := by
  unfold State.leaveService; dsimp only; (repeat' split) <;> simp
@[simp] theorem State.leaveService_inbound (s : State) (p : Port) : (s.leaveService p).inbound = s.inbound := by
  unfold State.leaveService; dsimp only; (repeat' split) <;> simp
@[simp] theorem State.leaveService_roll (s : State) (p : Port) : (s.leaveService p).roll = s.roll := by
  unfold State.leaveService; dsimp only; (repeat' split) <;> simp
@[simp] theorem State.leaveService_lsp (s : State) (p : Port) : (s.leaveService p).lsp = s.lsp := by
  unfold State.leaveService; dsimp only; (repeat' split) <;> simp
@[simp] theorem State.leaveService_rst (s : State) (p : Port) : (s.leaveService p).rst = s.rst := by
  unfold State.leaveService; dsimp only; (repeat' split) <;> simp

/-- A port that has left service is not in service, and the other is as it was (R139). -/
theorem State.leaveService_unit (s : State) (p : Port) : (s.leaveService p).unit p = { s.unit p with inService := false } := by
  unfold State.leaveService
  split
  · dsimp only
    split <;> cases p <;> rfl
  · rename_i h
    cases hs : s.unit p
    simp_all

theorem State.leaveService_other (s : State) (p : Port) : (s.leaveService p).unit p.other = s.unit p.other := by
  unfold State.leaveService
  split
  · dsimp only
    split <;> cases p <;> rfl
  · rfl

/-! ### Leaving UP: the fields it never moves (R136) -/

@[simp] theorem State.endTrainAt_pending (s : State) (p : Port) : (s.endTrainAt p).pending = s.pending := by
  unfold State.endTrainAt; (repeat' split) <;> simp [State.endRecord]
@[simp] theorem State.abortTest_pending (s : State) (p : Port) : (s.abortTest p).pending = s.pending := by
  unfold State.abortTest; split <;> rfl
@[simp] theorem State.leaveUp_pending (s : State) (p : Port) (c : DownCause) : (s.leaveUp p c).pending = s.pending := by
  simp [State.leaveUp]
@[simp] theorem State.endTrainAt_now (s : State) (p : Port) : (s.endTrainAt p).now = s.now := by
  unfold State.endTrainAt; (repeat' split) <;> simp [State.endRecord]
@[simp] theorem State.abortTest_now (s : State) (p : Port) : (s.abortTest p).now = s.now := by
  unfold State.abortTest; split <;> rfl
@[simp] theorem State.leaveUp_now (s : State) (p : Port) (c : DownCause) : (s.leaveUp p c).now = s.now := by
  simp [State.leaveUp]
@[simp] theorem State.endTrainAt_ctl (s : State) (p : Port) : (s.endTrainAt p).ctl = s.ctl := by
  unfold State.endTrainAt; (repeat' split) <;> simp [State.endRecord]
@[simp] theorem State.abortTest_ctl (s : State) (p : Port) : (s.abortTest p).ctl = s.ctl := by
  unfold State.abortTest; split <;> rfl
@[simp] theorem State.leaveUp_ctl (s : State) (p : Port) (c : DownCause) : (s.leaveUp p c).ctl = s.ctl := by
  simp [State.leaveUp]
@[simp] theorem State.endTrainAt_inbound (s : State) (p : Port) : (s.endTrainAt p).inbound = s.inbound := by
  unfold State.endTrainAt; (repeat' split) <;> simp [State.endRecord]
@[simp] theorem State.abortTest_inbound (s : State) (p : Port) : (s.abortTest p).inbound = s.inbound := by
  unfold State.abortTest; split <;> rfl
@[simp] theorem State.leaveUp_inbound (s : State) (p : Port) (c : DownCause) : (s.leaveUp p c).inbound = s.inbound := by
  simp [State.leaveUp]
@[simp] theorem State.endTrainAt_roll (s : State) (p : Port) : (s.endTrainAt p).roll = s.roll := by
  unfold State.endTrainAt; (repeat' split) <;> simp [State.endRecord]
@[simp] theorem State.abortTest_roll (s : State) (p : Port) : (s.abortTest p).roll = s.roll := by
  unfold State.abortTest; split <;> rfl
@[simp] theorem State.leaveUp_roll (s : State) (p : Port) (c : DownCause) : (s.leaveUp p c).roll = s.roll := by
  simp [State.leaveUp]
@[simp] theorem State.endTrainAt_lsp (s : State) (p : Port) : (s.endTrainAt p).lsp = s.lsp := by
  unfold State.endTrainAt; (repeat' split) <;> simp [State.endRecord]
@[simp] theorem State.abortTest_lsp (s : State) (p : Port) : (s.abortTest p).lsp = s.lsp := by
  unfold State.abortTest; split <;> rfl
@[simp] theorem State.leaveUp_lsp (s : State) (p : Port) (c : DownCause) : (s.leaveUp p c).lsp = s.lsp := by
  simp [State.leaveUp]
@[simp] theorem State.endTrainAt_rst (s : State) (p : Port) : (s.endTrainAt p).rst = s.rst := by
  unfold State.endTrainAt; (repeat' split) <;> simp [State.endRecord]
@[simp] theorem State.abortTest_rst (s : State) (p : Port) : (s.abortTest p).rst = s.rst := by
  unfold State.abortTest; split <;> rfl
@[simp] theorem State.leaveUp_rst (s : State) (p : Port) (c : DownCause) : (s.leaveUp p c).rst = s.rst := by
  simp [State.leaveUp]

/-! ### The local port -/

/-- A word that is served: what it does, then the address moves on (R161). -/
theorem State.lspWrite_served (s : State) (a : Word) (act : State → State) (h : s.servesWrite = true) :
    s.lspWrite a act = (act s).moveOn a := by simp [State.lspWrite, h]

/-- A word that is not served does nothing (assumption log 15). -/
theorem State.lspWrite_ignored (s : State) (a : Word) (act : State → State) (h : s.servesWrite = false) :
    s.lspWrite a act = s := by simp [State.lspWrite, h]

/-- An action word in its three cases (R164): the transaction's action, an extra word, a word that is not served. -/
theorem State.localAction_acts (s : State) (act : State → State) (h : s.servesWrite = true) (ha : s.alreadyActed = false) :
    s.localAction act = act s.markActed := by simp [State.localAction, h, ha]

theorem State.localAction_extra (s : State) (act : State → State) (h : s.servesWrite = true) (ha : s.alreadyActed = true) :
    s.localAction act = s.localError := by simp [State.localAction, h, ha]

theorem State.localAction_ignored (s : State) (act : State → State) (h : s.servesWrite = false) : s.localAction act = s := by
  simp [State.localAction, h]

/-- The end of an action: the report, and LOCAL_ERROR where it is an error (R164). -/
theorem Acted.finish_eq (x : Acted) :
    x.finish =
      { x.state with
        lsp := { x.state.lsp with report := x.report }
        att := if x.report.isError then { x.state.att with localError := true } else x.state.att } := by
  unfold Acted.finish
  cases x.report.isError <;> rfl

/-- A burst gives the words that its addresses read. -/
theorem State.burstWords_congr (s t : State) (h : ∀ a, s.lspRead a = t.lspRead a) (a : Word) (n : Nat) :
    s.burstWords a n = t.burstWords a n := by
  induction n generalizing a with
  | zero => rfl
  | succ n ih => rw [State.burstWords, State.burstWords, h, ih]

/-- The words of a burst move neither with the clock nor with the transaction in progress. -/
theorem State.burstWords_of_report (s : State) (now : Nat) (l : LocalPort) (h : l.report = s.lsp.report) (a : Word) (n : Nat) :
    State.burstWords { s with now := now, lsp := l } a n = s.burstWords a n := by
  apply State.burstWords_congr
  intro b
  unfold State.lspRead
  split <;> first | rfl | simp [h]

@[simp] theorem State.burstWords_now (s : State) (now : Nat) (a : Word) (n : Nat) :
    State.burstWords { s with now := now } a n = s.burstWords a n := s.burstWords_of_report now s.lsp rfl a n

/-! ### ECHO and the elastic buffer -/

/-- A gap in forwarded traffic (R145): nothing waits in the elastic buffer, and of what arrives only a container, not yet being
sent (R3), may be to leave here. -/
theorem State.echoGap_iff (s : State) (p : Port) :
    s.echoGap p = true ↔
      (s.unit p).elastic = [] ∧ ∀ q a, (s.unit q).arriving = some a → a.out = some p → a.lead = .container := by
  have h : ∀ u : PortUnit, u.sendingOut p = false ↔ ∀ a, u.arriving = some a → a.out = some p → a.lead = .container := by
    intro u
    unfold PortUnit.sendingOut
    cases u.arriving <;> simp
  simp only [State.echoGap, Bool.and_eq_true, List.isEmpty_iff, Bool.not_eq_true', h]
  constructor
  · rintro ⟨⟨a, b⟩, c⟩
    exact ⟨a, fun q => by cases q; exacts [b, c]⟩
  · rintro ⟨a, b⟩
    exact ⟨⟨a, b .w⟩, b .e⟩

/-- Frames that leave one after the other stand in their order in `sent`; a restart's response among them leaves its mark (R124). -/
theorem State.foldl_depart (p : Port) (l : List HeldFrame) (s : State) :
    l.foldl (fun t h => t.depart p h) s =
      { s with
        sent := s.sent ++ l.map fun h => ⟨p, h.content⟩
        mgmt := { s.mgmt with
          pendingRestart :=
            if l.any (fun h => h.restarts) = true then s.mgmt.pendingRestart.map fun x => { x with left := true }
            else s.mgmt.pendingRestart } } := by
  induction l generalizing s with
  | nil => simp
  | cons h l ih =>
    rw [List.foldl_cons, ih]
    unfold State.depart State.emit
    cases h1 : h.restarts <;> cases h2 : l.any (fun h => h.restarts) <;> simp [h1, h2]
    all_goals (cases s.mgmt.pendingRestart <;> simp)

/-- The emptying of the elastic buffer (R145). -/
theorem State.flushElastic_eq (s : State) (p : Port) :
    s.flushElastic p =
      State.modUnit
        { s with
          sent := s.sent ++ (s.unit p).elastic.map fun h => ⟨p, h.content⟩
          mgmt := { s.mgmt with
            pendingRestart :=
              if (s.unit p).elastic.any (fun h => h.restarts) = true then
                s.mgmt.pendingRestart.map fun x => { x with left := true }
              else s.mgmt.pendingRestart } } p fun u => { u with elastic := [] } := by
  unfold State.flushElastic
  rw [State.foldl_depart]

/-! ### The step -/

/-- A step takes the front command (log 3). -/
theorem step_cons (c : Instr) (rest : List Instr) (s : State) :
    step { s with pending := c :: rest } = exec c { s with pending := rest } := rfl

theorem step_nil (s : State) (h : s.pending = []) : step s = .next s := by simp [step, h]

end Sys2Proof.Machine
end

