-- ==== Sys2Proof/Laws/Requests.lean ====
section
/-! SUPPORT. Taking a request: the four ways `State.deliver` goes (R89, R106 to R109). -/

namespace Sys2Proof.Machine

/-- The manager test of R107 as the active set gives it. -/
theorem State.isManager_iff (s : State) (src : Station) : s.mgmt.active.isManager src = true ↔ s.manages src := by
  simp only [TableSet.isManager, State.manages, List.any_eq_true, Vector.mem_toList_iff]
  constructor
  · rintro ⟨x, hx, h⟩
    obtain ⟨i, hi, rfl⟩ := Vector.mem_iff_getElem.1 hx
    cases hm : s.mgmt.active.managers[i] with
    | none => rw [hm] at h; simp at h
    | some m => rw [hm] at h; exact ⟨⟨i, hi⟩, m, hm, by simpa using h⟩
  · rintro ⟨i, m, h, hm⟩
    exact ⟨some m, by rw [← h]; exact Vector.getElem_mem _, by simpa using hm⟩

/-- Restarting the idle timer moves only the session's state. -/
theorem State.touchSession_eq (s : State) (src : Station) :
    s.touchSession src = { s with mgmt := { s.mgmt with session := (s.touchSession src).mgmt.session } } := by
  unfold State.touchSession
  split
  · split <;> rfl
  · rfl

@[simp] theorem State.asked_active (s : State) (dt : Nat) (src : Station) : (s.asked dt src).mgmt.active = s.mgmt.active := by
  rw [State.asked, State.touchSession_eq]; rfl

@[simp] theorem State.asked_cache (s : State) (dt : Nat) (src : Station) : (s.asked dt src).mgmt.cache = s.mgmt.cache := by
  rw [State.asked, State.touchSession_eq]; rfl

@[simp] theorem State.asked_responses (s : State) (dt : Nat) (src : Station) :
    (s.asked dt src).mgmt.responses = s.mgmt.responses := by
  rw [State.asked, State.touchSession_eq]; rfl

@[simp] theorem State.asked_segTest (s : State) (dt : Nat) (src : Station) : (s.asked dt src).mgmt.segTest = s.mgmt.segTest := by
  rw [State.asked, State.touchSession_eq]; rfl

@[simp] theorem State.asked_pendingRestart (s : State) (dt : Nat) (src : Station) :
    (s.asked dt src).mgmt.pendingRestart = s.mgmt.pendingRestart := by
  rw [State.asked, State.touchSession_eq]; rfl

@[simp] theorem State.asked_activation (s : State) (dt : Nat) (src : Station) :
    (s.asked dt src).mgmt.activation = s.mgmt.activation := by
  rw [State.asked, State.touchSession_eq]; rfl

@[simp] theorem State.asked_pending (s : State) (dt : Nat) (src : Station) : (s.asked dt src).pending = s.pending := by
  rw [State.asked, State.touchSession_eq]; rfl
@[simp] theorem State.asked_sent (s : State) (dt : Nat) (src : Station) : (s.asked dt src).sent = s.sent := by
  rw [State.asked, State.touchSession_eq]; rfl
@[simp] theorem State.asked_ctl (s : State) (dt : Nat) (src : Station) : (s.asked dt src).ctl = s.ctl := by
  rw [State.asked, State.touchSession_eq]; rfl
@[simp] theorem State.asked_trk (s : State) (dt : Nat) (src : Station) : (s.asked dt src).trk = s.trk := by
  rw [State.asked, State.touchSession_eq]; rfl
@[simp] theorem State.asked_subs (s : State) (dt : Nat) (src : Station) : (s.asked dt src).subs = s.subs := by
  rw [State.asked, State.touchSession_eq]; rfl
@[simp] theorem State.asked_rx (s : State) (dt : Nat) (src : Station) : (s.asked dt src).rx = s.rx := by
  rw [State.asked, State.touchSession_eq]; rfl
@[simp] theorem State.asked_pub (s : State) (dt : Nat) (src : Station) : (s.asked dt src).pub = s.pub := by
  rw [State.asked, State.touchSession_eq]; rfl
@[simp] theorem State.asked_sched (s : State) (dt : Nat) (src : Station) : (s.asked dt src).sched = s.sched := by
  rw [State.asked, State.touchSession_eq]; rfl
@[simp] theorem State.asked_inbound (s : State) (dt : Nat) (src : Station) : (s.asked dt src).inbound = s.inbound := by
  rw [State.asked, State.touchSession_eq]; rfl
@[simp] theorem State.asked_roll (s : State) (dt : Nat) (src : Station) : (s.asked dt src).roll = s.roll := by
  rw [State.asked, State.touchSession_eq]; rfl
@[simp] theorem State.asked_portW (s : State) (dt : Nat) (src : Station) : (s.asked dt src).portW = s.portW := by
  rw [State.asked, State.touchSession_eq]; rfl
@[simp] theorem State.asked_portE (s : State) (dt : Nat) (src : Station) : (s.asked dt src).portE = s.portE := by
  rw [State.asked, State.touchSession_eq]; rfl
@[simp] theorem State.asked_sig (s : State) (dt : Nat) (src : Station) : (s.asked dt src).sig = s.sig := by
  rw [State.asked, State.touchSession_eq]; rfl
@[simp] theorem State.asked_att (s : State) (dt : Nat) (src : Station) : (s.asked dt src).att = s.att := by
  rw [State.asked, State.touchSession_eq]; rfl
@[simp] theorem State.asked_lsp (s : State) (dt : Nat) (src : Station) : (s.asked dt src).lsp = s.lsp := by
  rw [State.asked, State.touchSession_eq]; rfl
@[simp] theorem State.asked_rst (s : State) (dt : Nat) (src : Station) : (s.asked dt src).rst = s.rst := by
  rw [State.asked, State.touchSession_eq]; rfl
@[simp] theorem State.asked_ctr (s : State) (dt : Nat) (src : Station) : (s.asked dt src).ctr = s.ctr := by
  rw [State.asked, State.touchSession_eq]; rfl
@[simp] theorem State.asked_now (s : State) (dt : Nat) (src : Station) : (s.asked dt src).now = s.now + dt := by
  rw [State.asked, State.touchSession_eq]; rfl

@[simp] theorem State.asked_unit (s : State) (dt : Nat) (src : Station) (p : Port) : (s.asked dt src).unit p = s.unit p := by
  cases p <;> simp [State.unit]

/-! ### The tap asked, by the session it holds (R116) -/

theorem State.asked_noSession (s : State) (dt : Nat) (src : Station) (h : s.mgmt.session = none) :
    s.asked dt src = s.elapse dt := by
  simp [State.asked, State.touchSession, h]

theorem State.asked_owner (s : State) (dt : Nat) (src : Station) (x : Session) (d : Nat) (h : s.mgmt.session = some x)
    (ho : x.owner = src) (hx : x.state = .opened d) :
    s.asked dt src =
      { s with
        now := s.now + dt
        mgmt := { s.mgmt with session := some { x with state := .opened (s.now + dt + 2000000) } } } := by
  simp [State.asked, State.touchSession, h, ho, hx, SessionState.isOpened, State.modMgmt, idleTime, State.elapse]

theorem State.asked_other (s : State) (dt : Nat) (src : Station) (x : Session) (h : s.mgmt.session = some x)
    (ho : x.owner ≠ src) : s.asked dt src = s.elapse dt := by
  simp [State.asked, State.touchSession, h, ho]

theorem State.asked_committing (s : State) (dt : Nat) (src : Station) (x : Session) (e : Option Byte)
    (h : s.mgmt.session = some x) (hx : x.state = .commitPending e) : s.asked dt src = s.elapse dt := by
  simp [State.asked, State.touchSession, h, hx, SessionState.isOpened]

theorem takesContainers_iff (t : TapState) : t.takesContainers = true ↔ t = .unconfigured ∨ t = .online ∨ t = .halted := by
  cases t <;> simp [TapState.takesContainers]

/-- A request whose conditions hold is executed: its run on the tap asked, then its response in queue and cache. -/
theorem State.deliver_executes {s : State} {src : Station} {tag : Byte} (h : s.executes src tag) (dt : Nat) (code : Byte)
    (run : State → Reply) :
    (s.elapse dt).deliver src tag code run =
      (run (s.asked dt src)).state.replied src tag
        (code :: (run (s.asked dt src)).status.code :: (run (s.asked dt src)).data) (run (s.asked dt src)).restarts := by
  obtain ⟨⟨ht, hr⟩, hm, hc⟩ := h
  have ht' := (takesContainers_iff s.ctl.tapState).2 ht
  have hm' := (State.isManager_iff (s.asked dt src) src).2 (by simpa [State.manages] using hm)
  have hr' : (s.elapse dt).mgmt.responses.length < responseRoom := by simpa [responseRoom] using hr
  have hcache : (s.asked dt src).cached src = s.cached src := by simp [State.cached]
  unfold State.deliver
  rw [if_pos (by simpa using ht'), if_pos hr']
  unfold State.takeRequest
  change (if (s.asked dt src).mgmt.active.isManager src then _ else _) = _
  rw [if_pos hm']
  change (match (s.asked dt src).cached src with | some c => _ | none => _) = _
  rw [hcache]
  cases hq : s.cached src with
  | none => rfl
  | some c => simp only [if_neg (hc c hq)]; rfl

/-- A full response queue turns a request away, counted (R89). -/
theorem State.deliver_full {s : State} (ht : s.ctl.tapState = .unconfigured ∨ s.ctl.tapState = .online ∨ s.ctl.tapState = .halted)
    (hr : 4 ≤ s.mgmt.responses.length) (dt : Nat) (src : Station) (tag code : Byte) (run : State → Reply) :
    (s.elapse dt).deliver src tag code run =
      { s with now := s.now + dt, ctr := { s.ctr with refusedHere := satInc s.ctr.refusedHere } } := by
  have ht' := (takesContainers_iff s.ctl.tapState).2 ht
  unfold State.deliver
  rw [if_pos (by simpa using ht'), if_neg (by simpa [responseRoom] using hr)]
  rfl

/-- A station outside the manager set is answered NOT_PERMITTED (R107). -/
theorem State.deliver_notPermitted {s : State} {src : Station} (h : s.hasRoom) (hm : ¬s.manages src) (dt : Nat) (tag code : Byte)
    (run : State → Reply) :
    (s.elapse dt).deliver src tag code run = (s.asked dt src).respond ⟨src, tag, [code, 0x09#8], false⟩ := by
  obtain ⟨ht, hr⟩ := h
  have ht' := (takesContainers_iff s.ctl.tapState).2 ht
  have hm' : ¬(s.asked dt src).mgmt.active.isManager src = true := by
    rw [State.isManager_iff]; simpa [State.manages] using hm
  unfold State.deliver
  rw [if_pos (by simpa using ht'), if_pos (by simpa [responseRoom] using hr)]
  unfold State.takeRequest
  change (if (s.asked dt src).mgmt.active.isManager src then _ else _) = _
  rw [if_neg hm']
  rfl

/-- A request under its station's last tag is answered from the cache (R108). -/
theorem State.deliver_cached {s : State} {src : Station} {c : CachedResponse} (h : s.hasRoom) (hm : s.manages src)
    (hc : s.cached src = some c) (dt : Nat) (code : Byte) (run : State → Reply) :
    (s.elapse dt).deliver src c.tag code run = (s.asked dt src).respond ⟨src, c.tag, c.payload, false⟩ := by
  obtain ⟨ht, hr⟩ := h
  have ht' := (takesContainers_iff s.ctl.tapState).2 ht
  have hm' := (State.isManager_iff (s.asked dt src) src).2 (by simpa [State.manages] using hm)
  have hcache : (s.asked dt src).cached src = s.cached src := by simp [State.cached]
  unfold State.deliver
  rw [if_pos (by simpa using ht'), if_pos (by simpa [responseRoom] using hr)]
  unfold State.takeRequest
  change (if (s.asked dt src).mgmt.active.isManager src then _ else _) = _
  rw [if_pos hm']
  change (match (s.asked dt src).cached src with | some c => _ | none => _) = _
  rw [hcache, hc]
  simp only [if_true]
  rfl

end Sys2Proof.Machine
end

