-- ==== Sys2Proof/Laws/Roll.lean ====
section
/-! SUPPORT. The roll unit: what it decides (R126), what the frame leaves with (R126, R169), the places a closed roll gives (R131), and a
ROLL that ends a train, from its beginning to its leaving. -/

namespace Sys2Proof.Machine

/-! ### Entries -/

theorem RollEntry.cleaned_station (x : RollEntry) : stationOf x.cleaned.station = stationOf x.station :=
  (by decide : ∀ b : BitVec 8, stationOf (b &&& 0x3F#8) = stationOf b) x.station

theorem RollEntry.cleaned_code (x : RollEntry) : x.cleaned.code = x.code :=
  (by decide : ∀ b : BitVec 8, BitVec.extractLsb' 0 3 (b &&& 0x77#8) = BitVec.extractLsb' 0 3 b) x.status

/-- A second cleaning changes nothing. -/
theorem RollEntry.cleaned_cleaned (x : RollEntry) : x.cleaned.cleaned = x.cleaned := by
  simp [RollEntry.cleaned, BitVec.and_assoc]

/-- WRAP_W and WRAP_E are the states in which one port is in service (R2, R139). -/
theorem State.isWrapped_eq (s : State) : s.isWrapped = (s.portW.inService != s.portE.inService) :=
  (by decide : ∀ a b, (decide (wrapOf a b = .wrapW) || decide (wrapOf a b = .wrapE)) = (a != b)) s.portW.inService s.portE.inService

/-- The sample, field by field (R125). -/
theorem State.rollSample_eq (s : State) :
    s.rollSample =
      ⟨s.ctl.tapState, decide (s.portW.monitor = .up), decide (s.portE.monitor = .up),
        s.portW.inService != s.portE.inService⟩ := by
  rw [← State.isWrapped_eq]
  rfl

/-! ### The decision -/

theorem rollDecision_appending {t : TapState} (own : Station) (f : RollFrame) (h : t = .unconfigured ∨ t = .online ∨ t = .halted) :
    rollDecision t own f =
      if (openEntries f).any fun x => decide (stationOf x.station = own) then .duplicate
      else if f.openCount.toNat < 63 then .ownAppend
      else .overflow := by
  rcases h with h | h | h <;> subst h <;> rfl

/-- The frame a decision sends (R126, R169). -/
theorem rollOut_eq (x : RollSample) (own : Station) (d : RollDecision) (f : RollFrame) :
    rollOut x own d f =
      if d = .ownAppend ∨ d = .anonymousAppend then
        { f with
          closed := f.closed.map RollEntry.cleaned
          openCount := f.openCount + 1
          slots := Vector.ofFn fun i => if i.val = f.openCount.toNat then x.entry own d else f.slots[i].cleaned }
      else f := by
  cases d <;> rfl

/-! ### The closed roll -/

/-- The place of a station's first entry (R131). -/
theorem listedAt_first {closed : List RollEntry} {st : Fin 63} {i : Nat} {x : RollEntry} (hx : closed[i]? = some x)
    (hs : (stationOf x.station).toNat = st.val)
    (hb : ∀ (j : Nat) (y : RollEntry), j < i → closed[j]? = some y → (stationOf y.station).toNat ≠ st.val) :
    listedAt closed st = some i := by
  unfold listedAt
  rw [List.findIdx?_eq_some_iff_getElem]
  have hlt : i < closed.length := by
    rcases Nat.lt_or_ge i closed.length with h | h
    · exact h
    · rw [List.getElem?_eq_none h] at hx
      cases hx
  refine ⟨hlt, ?_, ?_⟩
  · rw [List.getElem?_eq_getElem hlt] at hx
    cases hx
    simpa using hs
  · intro j hj
    simpa using hb j closed[j] hj (List.getElem?_eq_getElem (by omega))

/-- A station that no entry names has no place. -/
theorem listedAt_none {closed : List RollEntry} {st : Fin 63} (h : ∀ x ∈ closed, (stationOf x.station).toNat ≠ st.val) :
    listedAt closed st = none := by
  unfold listedAt
  rw [List.findIdx?_eq_none_iff]
  intro x hx
  simpa using h x hx

/-! ### A ROLL of the train in progress -/

/-- An outcome that cannot take the port down only joins the window (R137). -/
theorem State.windowAdd_ports (s : State) (p : Port) (error : Bool) (h : error = false ∨ (s.unit p).window.countP id < 7) :
    s.windowAdd p error = { s with portW := (s.windowAdd p error).portW, portE := (s.windowAdd p error).portE } := by
  unfold State.windowAdd
  split
  · dsimp only
    have : ¬(error = true ∧ windowLimit ≤ (windowPush (s.unit p).window error).countP id) := by
      rintro ⟨he, h2⟩
      rcases h with h | h
      · simp [h] at he
      · unfold windowPush windowLimit at h2
        have := (List.drop_sublist ((s.unit p).window.length + 1 - windowSize) ((s.unit p).window ++ [error])).countP_le (p := id)
        simp [he] at this h2
        omega
    rw [if_neg this]
    cases p <;> rfl
  · rfl

end Sys2Proof.Machine
end

