-- ==== Sys2Proof/Laws/StatusBlock.lean ====
section
/-! SUPPORT. What the local port reads, region by region of the address map, how a burst moves on, and the two words of a 32-bit
value (R161 to R163). -/

namespace Sys2Proof.Machine

set_option Elab.async false

theorem region_status (i : Fin 256) : region (BitVec.ofNat 16 i.val) = .status i.val := by
  revert i
  decide +kernel

theorem region_pub : ∀ (p : Fin 4) (w : Fin 128), region (pubAddress p w) = .pubWindow p w := by decide +kernel

/-- The addresses below 256 read the status block (R163). -/
theorem State.lspRead_status (s : State) (i : Nat) (h : i < 256) : s.lspRead (BitVec.ofNat 16 i) = s.statusWord i := by
  have := region_status ⟨i, h⟩
  simp only [State.lspRead] at *
  rw [this]

/-- A publish window reads DRAFT (R68). -/
theorem State.lspRead_pub (s : State) (p : Fin 4) (w : Fin 128) : s.lspRead (pubAddress p w) = s.pub[p].draft[w] := by
  simp only [State.lspRead, region_pub]

/-! ### The other regions, by address -/

theorem region_rx :
    ∀ (b : Fin 8) (w : Fin 128), region (BitVec.ofNat 16 (0x1000 + 128 * b.val + w.val)) = .rxWindow b w := by
  decide +kernel

theorem region_control : ∀ b : Fin 8, region (controlAddress b) = .bankControl b := by decide +kernel

theorem region_mailbox : ∀ (m : Fin 8) (i : Fin 55), region (mailboxAddress m i.val) = .mailbox m i.val := by decide +kernel

theorem region_inbound : ∀ i : Fin 54, region (BitVec.ofNat 16 (0x3200 + i.val)) = .inbound i.val := by decide +kernel

theorem region_stamp : ∀ i : Fin 5, region (BitVec.ofNat 16 (0x3280 + i.val)) = .stamp i.val := by decide +kernel

theorem region_censusHead : ∀ i : Fin 3, region (BitVec.ofNat 16 (0x0100 + i.val)) = .censusHead i := by decide +kernel

theorem region_census :
    ∀ (st : Fin 63) (i : Fin 6), region (BitVec.ofNat 16 (0x0104 + 6 * st.val + i.val)) = .census st i := by decide +kernel

/-- The words between the regions (R162, "any other address"). -/
theorem region_unmapped (a : Nat)
    (h : a = 0x0103 ∨ 0x027E ≤ a ∧ a < 0x1000 ∨ 0x1408 ≤ a ∧ a < 0x2000 ∨ 0x2200 ≤ a ∧ a < 0x3000 ∨
      0x3000 ≤ a ∧ a < 0x3200 ∧ 55 ≤ a % 64 ∨ 0x3236 ≤ a ∧ a < 0x3280 ∨ 0x3285 ≤ a ∧ a < 0x3300 ∨
      0x3302 ≤ a ∧ a < 0x10000) : region (BitVec.ofNat 16 a) = .unmapped := by
  have e : (BitVec.ofNat 16 a).toNat = a := by simp; omega
  unfold region
  rw [e]
  rcases h with h | h | h | h | h | h | h | h <;>
    repeat (first | rfl | rw [if_neg (by omega)] | rw [if_pos (by omega)])

/-- Outside the receive and publish windows no burst begins, and the address moves on by one but at the action word (R161). -/
theorem nextAddress_elsewhere (a : Word)
    (h : ¬(0x1000 ≤ a.toNat ∧ a.toNat < 0x1400 ∨ 0x2000 ≤ a.toNat ∧ a.toNat < 0x2200)) :
    readBurstOf a = none ∧ writeBurstOf a = none ∧ nextAddress a = if a.toNat = 0x3301 then a else a + 1 := by
  have ha := a.isLt
  have hr : a.toNat < 0x100 ∨ 0x100 ≤ a.toNat ∧ a.toNat < 0x103 ∨ a.toNat = 0x103 ∨ 0x104 ≤ a.toNat ∧ a.toNat < 0x27E ∨
      0x27E ≤ a.toNat ∧ a.toNat < 0x1000 ∨ 0x1400 ≤ a.toNat ∧ a.toNat < 0x1408 ∨ 0x1408 ≤ a.toNat ∧ a.toNat < 0x2000 ∨
      0x2200 ≤ a.toNat ∧ a.toNat < 0x3000 ∨ 0x3000 ≤ a.toNat ∧ a.toNat < 0x3200 ∧ a.toNat % 64 < 55 ∨
      0x3000 ≤ a.toNat ∧ a.toNat < 0x3200 ∧ ¬a.toNat % 64 < 55 ∨ 0x3200 ≤ a.toNat ∧ a.toNat < 0x3236 ∨
      0x3236 ≤ a.toNat ∧ a.toNat < 0x3280 ∨ 0x3280 ≤ a.toNat ∧ a.toNat < 0x3285 ∨ 0x3285 ≤ a.toNat ∧ a.toNat < 0x3300 ∨
      a.toNat = 0x3300 ∨ a.toNat = 0x3301 ∨ 0x3302 ≤ a.toNat := by omega
  have key : (∀ b w, region a ≠ .rxWindow b w) ∧ (∀ p w, region a ≠ .pubWindow p w) ∧
      (region a = .action ↔ a.toNat = 0x3301) := by
    unfold region
    dsimp only
    rcases hr with h | h | h | h | h | h | h | h | h | h | h | h | h | h | h | h | h <;>
      repeat (first | rw [if_neg (by omega)] | rw [if_pos (by omega)])
    all_goals
      simp only [ne_eq, reduceCtorEq, not_false_eq_true, implies_true, true_and, false_iff, true_iff]
      omega
  obtain ⟨h1, h2, h3⟩ := key
  unfold readBurstOf writeBurstOf nextAddress
  by_cases hx : a.toNat = 0x3301
  · simp [h3.2 hx, hx]
  · rw [if_neg hx]
    cases hg : region a <;> simp_all

/-! ### What the regions show -/

/-- A receive window reads FRONT (R64). -/
theorem State.lspRead_rx (s : State) (b : Fin 8) (w : Fin 128) :
    s.lspRead (BitVec.ofNat 16 (0x1000 + 128 * b.val + w.val)) = s.rx[b].frontBuf[w] := by
  simp only [State.lspRead, region_rx]

theorem State.lspRead_mailbox (s : State) (m : Fin 8) (i : Fin 55) :
    s.lspRead (mailboxAddress m i.val) = s.sched.mailboxes[m].windowWord i.val := by
  simp only [State.lspRead, region_mailbox]

theorem State.lspRead_inbound (s : State) (i : Fin 54) :
    s.lspRead (BitVec.ofNat 16 (0x3200 + i.val)) = s.inboundWord i.val := by
  simp only [State.lspRead, region_inbound]

theorem State.lspRead_stamp (s : State) (i : Fin 5) : s.lspRead (BitVec.ofNat 16 (0x3280 + i.val)) = s.stampWord i.val := by
  simp only [State.lspRead, region_stamp]

theorem State.lspRead_censusHead (s : State) (i : Fin 3) :
    s.lspRead (BitVec.ofNat 16 (0x0100 + i.val)) = s.censusHeadWord i.val := by
  simp only [State.lspRead, region_censusHead]

theorem State.lspRead_census (s : State) (st : Fin 63) (i : Fin 6) :
    s.lspRead (BitVec.ofNat 16 (0x0104 + 6 * st.val + i.val)) = s.roll.census[st].wordAt i.val := by
  simp only [State.lspRead, region_census]

theorem highWord_append_lowWord (c : BitVec 32) : highWord c ++ lowWord c = c := by
  unfold highWord lowWord
  ext i hi
  simp only [BitVec.getElem_append, BitVec.getElem_extractLsb']
  split
  · simp [BitVec.getLsbD_eq_getElem hi]
  · rename_i h
    rw [← BitVec.getLsbD_eq_getElem]
    congr 1
    omega

/-- The words beyond the block read 0 (12.3). -/
theorem State.statusWord_beyond (s : State) (i : Nat) (h : 41 ≤ i) : s.statusWord i = 0 := by
  unfold State.statusWord
  split <;> first | omega | (rw [if_neg (by omega), if_neg (by omega)])

theorem Mailbox.stateByte_lt (m : Mailbox) : m.stateByte < 256 := by
  unfold Mailbox.stateByte
  cases m.state with
  | done o f => cases o <;> simp [MailboxState.code, MailboxState.outcomeCode, MsgOutcome.code]
  | _ => simp [MailboxState.code, MailboxState.outcomeCode]

end Sys2Proof.Machine
end

