-- ==== Sys2Proof/Tests/Slice0.lean ====
section
/-! SUPPORT. Tests: the ill-formed commands that the check refuses, one step of each family on a small tap, and for each statement
with hypotheses a tap and operands that meet them. -/

namespace Sys2Proof.Tests

set_option Elab.async false

open Sys2Proof.Machine

set_option maxRecDepth 100000

/-! ### A small tap: station 14, ONLINE, both ports UP and in service -/

def upPort : PortUnit := { PortUnit.reset with monitor := .up, lock := true, farEnd := some .idle, inService := true }

def tap : State :=
  { State.reset with
    now := 1000
    ctl := ⟨.online, false, false⟩
    portW := upPort
    portE := upPort
    rst := ⟨.powerOn, false, 0, .idle, 14, false, false⟩ }

/-- The tap in a train of 2 blocks and 2 containers of cycle 7, received at Port W. -/
def inTrain (x : Position) : State :=
  { tap with
    trk := { tap.trk with
      lastCycle := 7
      valid := true
      record := .inTrain .w
      expected := some x
      blocks := 2
      containers := 2
      lastPeriod := some 1000
      trainTimer := some 2100
      gapTimer := some 1100
      cycleState := .running
      lastEpoch := some 3
      lastHeader := some 1000
      beganOnline := true } }

/-- The tap in a WRITE transaction that has named no action. -/
def writing : State := { tap with lsp := ⟨some ⟨.write, none, 0x3301, false⟩, .none, []⟩ }

def withMailbox (s : State) (m : Fin 8) (x : Mailbox) : State :=
  { s with sched := { s.sched with mailboxes := upd s.sched.mailboxes m x } }

/-- A message of 2 bytes to station 9, class USER. -/
def message : Vector Word 50 := ((Vector.replicate 50 0).set 0 0x0209#16).set 1 2

def header : HeaderFrame := ⟨8, 1000, 2, 2, 0, 4⟩

def turnedThrice : HeaderFrame := { header with turn := 3 }

def block (n : Byte) : BlockFrame := ⟨n, 0, 0, Vector.replicate 32 0x1234⟩

def emptyBox (i : Byte) : ContainerFrame := ⟨i, 0, 0, 0, 0, 0, 0, 0, 0, Vector.replicate 96 0⟩

/-- A FULL container from station 9. -/
def fullBox (i dest cls : Byte) : ContainerFrame := ⟨i, dest, 1, 0, 0, 9, cls, 5, 1, Vector.replicate 96 0x01⟩

/-- A ROLL with no closed entries and the open entries given. -/
def rollOf (l : List RollEntry) : RollFrame :=
  ⟨0, [], BitVec.ofNat 8 l.length, Vector.ofFn fun i => l.getD i.val ⟨0, 0⟩⟩

def echoOf (direction : Byte) : EchoFrame := ⟨direction, 0, echoPattern 0⟩

/-- What a command answers, looked at. -/
def after (r : Result) (f : State → Bool) : Bool :=
  match r with
  | .next t => f t
  | _ => false

/-! ### Ill-formed commands -/

theorem test_roll_short_is_ill_formed :
    Instr.wellFormed (.roll 0 .w { rollOf [] with closedCount := 2, closed := [⟨1, 0⟩] } none) = false := by decide

theorem test_roll_long_count_is_well_formed :
    Instr.wellFormed (.roll 0 .w { rollOf [] with closedCount := 64, closed := [⟨1, 0⟩] } none) = true := by decide

theorem test_known_kind_is_ill_formed : Instr.wellFormed (.unknownKind 0 .w ⟨0x05#8, []⟩ none) = false := by decide

theorem test_unknown_kind_is_well_formed : Instr.wellFormed (.unknownKind 0 .w ⟨0x06#8, []⟩ none) = true := by decide

theorem test_ignored_write_at_mask_is_ill_formed : Instr.wellFormed (.lspIgnoredWrite 0 0x3300#16) = false := by decide

theorem test_ignored_write_at_draft_is_ill_formed : Instr.wellFormed (.lspIgnoredWrite 0 0x2000#16) = false := by decide

theorem test_ignored_write_at_status_is_well_formed : Instr.wellFormed (.lspIgnoredWrite 0 0x0000#16) = true := by decide

theorem test_ignored_write_at_window_word_50_is_well_formed : Instr.wellFormed (.lspIgnoredWrite 0 0x3032#16) = true := by
  decide

theorem test_named_action_is_ill_formed : Instr.wellFormed (.badAction 0 9#4) = false := by decide

theorem test_unnamed_action_is_well_formed : Instr.wellFormed (.badAction 0 10#4) = true := by decide

theorem test_request_as_bad_command_is_ill_formed : Instr.wellFormed (.badCommand 0 0 0 [0x01#8]) = false := by decide

theorem test_long_bad_command_is_ill_formed : Instr.wellFormed (.badCommand 0 0 0 (List.replicate 97 0)) = false := by decide

theorem test_empty_bad_command_is_well_formed : Instr.wellFormed (.badCommand 0 0 0 []) = true := by decide

/-! ### Layouts, from bytes written out by hand (12.1, 12.2, 12.3) -/

theorem test_header_bytes :
    Frame.parse [0x01, 0x00, 0x00, 0x01, 0x02, 0x03, 0xE8, 0x04, 0x05, 0x02, 0x07] =
      some (.header ⟨0x102, 1000, 4, 5, 2, 7⟩) := by decide

theorem test_subscription_entry :
    decodeSub #v[1, 12, 1, 2, 63, 3, 24, 5] = some ⟨true, 12, 1, 2, 63, 3, 3, 5⟩ := by decide

theorem test_entry_offset_not_a_multiple_of_8 : decodeSub #v[1, 12, 1, 2, 63, 3, 20, 5] = none := by decide

theorem test_open_edit_payload : Request.decode [0x10, 0x12, 0x34, 0xFF] = some (.openEdit 0x1234) := by decide

theorem test_open_edit_short : Request.decode [0x10, 0x12] = none := by decide

theorem test_action_word_send : actionInstr 0 0x3005#16 = .send 0 5 := by decide

theorem test_write_at_hold : writeInstr 0 0x1403#16 1 = .bankControlWrite 0 3 1 := by decide

theorem test_burst_wraps_in_its_window : nextAddress 0x10FF#16 = 0x1080#16 := by decide

theorem test_no_word_spells_a_command : decodeTableWord 16 0x1234 = none := rfl

/-! ### One step of each family -/

theorem test_header_begins_a_train :
    after (exec (.header 0 .w header (some (Frame.check (.header header)))) tap) (fun t =>
      decide (t.trk.record = .inTrain .w ∧ t.trk.expected = some (.block 0) ∧ t.trk.trainTimer = some 2100 ∧
        t.sent = [⟨.e, .whole (.header header) (Frame.check (.header header))⟩])) = true := by decide +kernel

/-- A header whose period R6 substitutes enters the substituted period, not the measured interval (log 36). -/
theorem test_substituted_period_enters :
    (tap.trk.enteringInterval { header with period := 10 } 1300 = some 50) ∧
      ((inTrain .roll).trk.enteringInterval { header with period := 20001 } 1300 = some 20000) ∧
      ((inTrain .roll).trk.enteringInterval header 1300 = some 300) ∧ tap.trk.enteringInterval header 1300 = none := by decide

/-- While the POWER-ON cause lasts, a bad command byte serves nothing and is no error (log 15). -/
theorem test_no_error_while_a_cause_lasts :
    after (exec (.lspTransactionStart 0 (some 0x07#8) 0x0000#16 1) State.reset) (fun t =>
      decide (t.att.localError = false ∧ t.lsp.out = [0])) = true := by decide +kernel

/-- A request of length 0 from a station outside the manager set is answered under code 00h (log 38). -/
theorem test_empty_request_not_permitted :
    after (exec (.badCommand 0 3 9 []) tap) (fun t => decide (t.mgmt.responses = [⟨3, 9, [0x00, 0x09], false⟩])) = true := by
  decide +kernel

theorem test_discarded_header_is_counted :
    after (exec (.header 0 .w turnedThrice (some (Frame.check (.header turnedThrice))))
      { tap with portE := { upPort with inService := false } }) (fun t =>
        decide (t.ctr.overTurns = 1 ∧ t.portW.discard = true ∧ t.sent = [])) = true := by decide +kernel

theorem test_block_in_place :
    after (exec (.block 0 .w (block 0) (some (Frame.check (.block (block 0))))) (inTrain (.block 0))) (fun t =>
      decide (t.trk.expected = some (.block 1) ∧ t.trk.defect = false)) = true := by decide +kernel

theorem test_cut_block_is_a_defect :
    after (exec (.block 0 .w (block 0) none) (inTrain (.block 0))) (fun t =>
      decide (t.trk.defect = true ∧ t.portW.counters.lineErrors = 1 ∧ t.sent = [⟨.e, .cut (.block 0)⟩])) = true := by
  decide +kernel

theorem test_user_container :
    after (exec (.container 0 .w (fullBox 0 14 2) (some (Frame.check (.container (fullBox 0 14 2)))))
      (inTrain (.container 0))) (fun t => decide (t.inbound.length = 1 ∧ t.ctr.delivered = 1)) = true := by decide +kernel

theorem test_own_container_is_stripped :
    after (exec (.container 0 .w { fullBox 0 9 2 with source := 14 }
      (some (Frame.check (.container { fullBox 0 9 2 with source := 14 })))) (inTrain (.container 0))) (fun t =>
        decide (t.ctr.orphanStripped = 1)) = true := by decide +kernel

theorem test_roll_is_appended :
    after (exec (.roll 0 .w (rollOf [⟨9, 1⟩]) (some (Frame.check (.roll (rollOf [⟨9, 1⟩]))))) (inTrain .roll)) (fun t =>
      decide (t.roll.upstream = some 9 ∧ t.trk.record = .idle ∧ t.ctr.trainsDefective = 0)) = true := by decide +kernel

/-- The tap where Port W meets a frame beginning, and then its open count. -/
def reachesOpenCount (s : State) (lead : Lead) : State :=
  match exec (.frameBeginsToArrive 0 .w lead) s with
  | .next t =>
    match exec (.frameBeginsToArrive 0 .w .openCount) t with
    | .next u => u
    | _ => s
  | _ => s

/-- The status sampled as the open count arrives is the appended one, though STOP halts the tap before the ROLL ends (R125). -/
theorem test_roll_is_sampled_at_its_open_count :
    after (exec (.stopRise 0) (reachesOpenCount (inTrain .roll) .roll)) (fun t =>
      after (exec (.roll 0 .w (rollOf [⟨9, 1⟩]) (some (Frame.check (.roll (rollOf [⟨9, 1⟩]))))) t) (fun u =>
        u.ctl.tapState == .halted && u.sent.any fun x =>
          match x.content with
          | .whole (.roll g) _ => decide (g.slots[(1 : Fin 63)].code = 1)
          | _ => false)) = true := by decide +kernel

/-- A changed ROLL leaves with the bits outside its fields zero (R169). -/
theorem test_changed_roll_is_clean :
    after (exec (.roll 0 .w (rollOf [⟨0xC9, 0x89⟩]) (some (Frame.check (.roll (rollOf [⟨0xC9, 0x89⟩]))))) (inTrain .roll)) (fun t =>
      t.sent.any fun x =>
        match x.content with
        | .whole (.roll g) _ => decide (g.slots[(0 : Fin 63)] = ⟨9, 1⟩)
        | _ => false) = true := by decide +kernel

/-- A stomped CONTAINER inside a train is an order defect in the place of the expected BLOCK; no step acts on it (R12, R28). -/
theorem test_stomped_container_takes_a_place :
    let f := fullBox 0 0 1
    after (exec (.container 0 .w f (some (~~~Frame.check (.container f)))) (inTrain (.block 0))) (fun t =>
      decide (t.trk.defect = true ∧ t.trk.expected = some (.block 1) ∧ t.inbound = [] ∧
        t.sent = [⟨.e, .whole (.container f) (~~~Frame.check (.container f))⟩])) = true := by decide +kernel

theorem test_duplicate_faults :
    after (exec (.roll 0 .w (rollOf [⟨14, 1⟩]) (some (Frame.check (.roll (rollOf [⟨14, 1⟩]))))) (inTrain .roll)) (fun t =>
      decide (t.ctl.tapState = .faulted)) = true := by decide +kernel

theorem test_echo_request_waits_as_reply :
    after (exec (.echo 0 .w (echoOf 0) (some (Frame.check (.echo (echoOf 0))))) tap) (fun t =>
      decide (t.portW.waitingReply = some (echoOf 1) ∧ t.sent = [])) = true := by decide +kernel

theorem test_gap_timer_aborts :
    after (exec (.gapTimerExpiry 0) (inTrain .roll)) (fun t => decide (t.ctr.trainsAborted = 1 ∧ t.now = 1100)) = true := by
  decide +kernel

theorem test_lock_lost :
    after (exec (.lockLost 0 .w) tap) (fun t =>
      decide (t.portW.monitor = .down ∧ t.portW.hold = some 2000 ∧ t.wrapState = .wrapW)) = true := by decide +kernel

theorem test_post_from_a_pin :
    after (exec (.triggerPinChange 0 2 true)
      { tap with mgmt := { tap.mgmt with active := { tap.mgmt.active with
        channels := tap.mgmt.active.channels.set 0 (.triggerIn 2), users := tap.mgmt.active.users.set 9 (some 0) } } })
      (fun t => t.pub[1].posted) = true := by decide +kernel

theorem test_status_words_read :
    after (exec (.lspTransactionStart 0 (some 0x01#8) 0x0008#16 3) tap) (fun t => decide (t.lsp.out = [0x000E, 0, 0])) = true := by
  decide +kernel

/-- Words clocked out while the select is held are read as they then stand (R161). -/
theorem test_held_select_reads_present_words :
    after (exec (.lspTransactionStart 0 (some 0x01#8) 0x0008#16 1) tap) (fun t =>
      after (exec (.lspTransactionStart 0 none 0 1) { t with rst := { t.rst with count := 5 } }) (fun u =>
        decide (u.lsp.out = [0x000E, 5]))) = true := by decide +kernel

theorem test_send :
    after (exec (.send 0 5) (withMailbox writing 5 ⟨.free, message⟩)) (fun t =>
      decide (t.sched.mailboxes[5].state = .waiting ∧ t.lsp.report = .accepted)) = true := by decide +kernel

theorem test_identify :
    after (exec (.identify 0 0 9) tap) (fun t =>
      decide (t.mgmt.responses = [⟨0, 9, [0x01, 0x00, 0x64, 0x02, 14, 2, 0, 0], false⟩])) = true := by decide +kernel

theorem test_station_outside_the_set :
    after (exec (.identify 0 3 9) tap) (fun t => decide (t.mgmt.responses = [⟨3, 9, [0x01, 0x09], false⟩])) = true := by
  decide +kernel

theorem test_bypass_hold_and_straps :
    after (exec (.bypassHoldExpiry 0 14) { State.reset with rst := { State.reset.rst with hold := .running 2000 } })
      (fun t => decide (t.ctl.tapState = .unconfigured ∧ t.portE.hold = some 3000)) = true := by decide +kernel

/-- In BYPASS the fault pattern crosses from Port W to Port E, and a dead line stays dead. -/
theorem test_fill_crosses_the_passive_path :
    let arriving : Port → Option LineFill := fun p => match p with | .w => some .wait | .e => none
    State.reset.lineFill arriving .e = some .wait ∧ State.reset.lineFill arriving .w = none := by decide

/-- A restart drops an ECHO that is being sent, and lists nothing. -/
theorem test_restart_drops_an_echo :
    let s : State := { tap with portE := { upPort with tx := some (.request (echoOf 0)) } }
    (s.beginRestart .local).portE.tx = none ∧ (s.beginRestart .local).sent = s.sent := by decide

/-! ### Witnesses: for each statement with hypotheses, a tap and operands that meet them together; one for each clause -/

theorem inTrain_listens (x : Position) (p : Port) : (inTrain x).listens p := by
  cases p <;> refine ⟨?_, ?_, ?_, ?_⟩ <;> exact of_decide_eq_true rfl

theorem inTrain_lineFree (x : Position) (p : Port) : (inTrain x).lineFree p := fun out _ => by cases out <;> rfl

theorem tap_listens (p : Port) : tap.listens p := by cases p <;> refine ⟨?_, ?_, ?_, ?_⟩ <;> decide

theorem tap_lineFree (p : Port) : tap.lineFree p := fun out _ => by cases out <;> rfl

/-- The tap with a frame arriving at Port W that began earlier, with these decisions. -/
def arrivingAt (s : State) (a : Arriving) : State := { s with portW := { s.portW with arriving := some a } }

/-- The tap while an ECHO is being sent at Port E and a RESTART's response waits behind it. -/
def busyLine (s : State) : State :=
  { s with
    portE := { s.portE with tx := some (.reply (echoOf 1)), elastic := [⟨.cut .container, false, true⟩] }
    mgmt := { s.mgmt with pendingRestart := some ⟨0, some 1, false⟩ } }

/-- What was decided of a frame that the tracker sees and that leaves by Port E. -/
def seenFrame (lead : Lead) : Arriving := ⟨lead, true, some .e, false, false, [], none⟩

theorem seenFrame_meets {s : State} (lead : Lead) (h : s.ctl.tapState ≠ .bypass) :
    (arrivingAt s (seenFrame lead)).meets .w lead (seenFrame lead) :=
  State.meets_of_arriving (a := seenFrame lead) rfl h rfl rfl fun _ => rfl

/-- Two segments written into BLOCK 0 as its number arrived. -/
def writtenBlock : Arriving :=
  ⟨.block 0, true, some .e, false, true, [⟨0, Vector.replicate 8 0x55⟩, ⟨3, Vector.replicate 8 0xAA⟩], none⟩

theorem writtenBlock_meets {s : State} (h : s.ctl.tapState ≠ .bypass) :
    (arrivingAt s writtenBlock).meets .w (.block 0) writtenBlock :=
  State.meets_of_arriving (a := writtenBlock) rfl h rfl rfl fun h => absurd rfl (h 0)

theorem inTrain_meets (x : Position) (p : Port) (lead : Lead) (h : lead ≠ .header 3#2) :
    (inTrain x).meets p lead ((inTrain x).decides p lead) := State.meets_of_listens (inTrain_listens x p) (.inl h)

theorem meetsFirstPass_whole {s : State} {p : Port} {f : HeaderFrame} (hl : s.listens p) (hf : s.lineFree p)
    (ho : f.turn.extractLsb' 0 2 ≠ 3#2) (hr : ∀ q, s.trk.record ≠ .inTrain q)
    (hc : s.trk.valid = false ∨ f.cycle ≠ s.trk.lastCycle) : s.meetsFirstPass p f :=
  ⟨⟨_, State.meets_of_listens hl (.inl fun h => ho (Lead.header.inj h)), rfl⟩, hf, hr, hc⟩

theorem witness_StepRunsTheFrontCommand : tap.pending = [] := rfl

theorem witness_FrameBytesSpellTheFrame :
    ((Frame.roll { rollOf [] with closedCount := 1, closed := [⟨1, 0⟩] }).wellFormed = true ∧
      (Frame.roll { rollOf [] with closedCount := 63, closed := List.replicate 63 ⟨1, 0⟩ }).wellFormed = true ∧
      (Frame.roll { rollOf [] with closedCount := 64 }).wellFormed = true ∧
      (Frame.unknown ⟨0x06#8, [1, 2]⟩).wellFormed = true ∧ (Frame.header header).wellFormed = true) ∧
    (0#32 : Fcs) ≠ Frame.check (.unknown ⟨0x06#8, []⟩) ∧ (0#32 : Fcs) ≠ ~~~(Frame.check (.unknown ⟨0x06#8, []⟩)) :=
  ⟨by decide, by decide +kernel⟩

theorem witness_RequestPayloadSpellsTheRequest :
    ([0x10, 0x12, 0x34, 0xFF] : List Byte) = (Request.openEdit 0x1234).payload ++ [0xFF] ∧
    (Entry.sub ⟨true, 63, 3, 1, 63, 7, 15, 254⟩).inRange ∧ (Entry.pub ⟨true, 0, 0, 4, 3, 0, .onPost⟩).inRange ∧
      (Entry.params Params.default).inRange ∧ (Entry.channel .tables).inRange ∧ (Entry.user none).inRange ∧
      (Entry.manager (some 62)).inRange := by
  refine ⟨by decide, ?_, ?_, ?_, trivial, trivial, trivial⟩
  · unfold Entry.inRange SubEntry.inRange; decide
  · unfold Entry.inRange PubEntry.inRange; decide
  · unfold Entry.inRange Params.inRange; decide

theorem witness_StepKeepsRolesLaw : tap.RolesLaw ∧ step tap = .next tap := ⟨by unfold State.RolesLaw; decide, rfl⟩

theorem witness_StepKeepsQueueLaw : tap.QueueLaw ∧ step tap = .next tap := ⟨by unfold State.QueueLaw; decide, rfl⟩

theorem witness_StepKeepsServiceLaw : tap.ServiceLaw ∧ step tap = .next tap := ⟨fun p => by cases p <;> decide, rfl⟩

theorem witness_StepKeepsFreshnessLaw : tap.FreshnessLaw ∧ step tap = .next tap :=
  ⟨by unfold State.FreshnessLaw; decide, rfl⟩

theorem witness_StepKeepsTablesLaw : tap.TablesLaw ∧ step tap = .next tap :=
  ⟨⟨by decide +kernel, fun _ h => by cases h⟩, rfl⟩

/-- The tap between trains, after cycle 7. -/
def between : State := { inTrain .roll with trk := { (inTrain .roll).trk with record := .idle, expected := none } }

/-- The tap wrapped at Port W. -/
def wrapped : State := { tap with portE := { upPort with inService := false } }

theorem tap_meets : tap.meetsFirstPass .w header :=
  meetsFirstPass_whole (tap_listens .w) (tap_lineFree .w) (by decide) (fun q => by cases q <;> decide) (by decide)

theorem between_meets : between.meetsFirstPass .w header :=
  meetsFirstPass_whole (inTrain_listens .roll .w) (inTrain_lineFree .roll .w) (by decide) (fun q => by cases q <;> decide)
    (by decide)

/-- The same where the header began earlier. -/
theorem between_meets_begun : (arrivingAt between (seenFrame (.header 0))).meetsFirstPass .w header :=
  ⟨⟨_, seenFrame_meets _ (by decide), rfl⟩, fun out _ => by cases out <;> rfl, fun q => by cases q <;> decide, .inr (by decide)⟩

theorem between_meets_period (x : Word) : between.meetsFirstPass .w { header with period := x } :=
  meetsFirstPass_whole (inTrain_listens .roll .w) (inTrain_lineFree .roll .w)
    (by show (0 : Byte).extractLsb' 0 2 ≠ 3#2; decide) (fun q => by cases q <;> decide)
    (.inr (by show (8 : Cycle) ≠ 7; decide))

theorem witness_HeaderBeginsFirstPass :
    ((∀ x, between.meetsFirstPass .w { header with period := x }) ∧ (49#16).toNat < 50 ∧ 20000 < (20001#16).toNat ∧
      ¬((50#16).toNat < 50 ∨ 20000 < (50#16).toNat) ∧ ¬((20000#16).toNat < 50 ∨ 20000 < (20000#16).toNat)) ∧
    (tap.meetsFirstPass .w header ∧ tap.trk.lastHeader = none) ∧
      (between.meetsFirstPass .w header ∧ between.trk.lastHeader = some 1000 ∧ between.route .w = some .e ∧
        between.trk.interval = none) ∧
      ({ between with trk := { between.trk with interval := some ⟨3, 2, 4⟩ } } : State).trk.interval = some ⟨3, 2, 4⟩ :=
  ⟨⟨between_meets_period, by decide⟩, ⟨tap_meets, rfl⟩, ⟨between_meets, by decide⟩, rfl⟩

/-- A table set that binds TRIG_OUT users 0, 1 and 2, the STAMP user, and the return policy given. -/
def boundSet (x : ReturnPolicy) : TableSet :=
  { TableSet.empty with
    channels := (tap.mgmt.active.channels.set 0 .tables).set 4 .cycleStart
    users := (((tap.mgmt.active.users.set 0 (some 0)).set 1 (some 1)).set 2 (some 4)).set 20 (some 4)
    params := { Params.default with returnPolicy := x } }

/-- The tap between trains, Port E as given, with a commit due at epoch 4 from policy `x` to policy `y`. -/
def committing (x y : ReturnPolicy) (u : PortUnit) : State :=
  { between with
    mgmt := { between.mgmt with active := boundSet x, session := some ⟨0, .commitPending (some 4), boundSet y⟩ }
    portE := u }

theorem committing_meets (x y : ReturnPolicy) (u : PortUnit) (h : u.tx = none) :
    (committing x y u).meetsFirstPass .w header :=
  meetsFirstPass_whole ⟨by show TapState.online ≠ .bypass; decide, rfl, rfl, rfl⟩ (fun out _ => by cases out; exacts [rfl, h])
    (by decide) (fun q => by cases q <;> exact (fun h => by cases h)) (.inr (by show (8 : Cycle) ≠ 7; decide))

theorem committing_due (x y : ReturnPolicy) (u : PortUnit) :
    (committing x y u).commitDue ⟨0, .commitPending (some 4), boundSet y⟩ header.epoch := ⟨rfl, .inr rfl⟩

theorem witness_ActivationAtAHeader :
    (between.meetsFirstPass .w header ∧ ∀ x, ¬between.commitDue x header.epoch) ∧
    (let s := committing .auto .manual { upPort with inService := false }
    let new := boundSet .manual
    s.meetsFirstPass .w header ∧ s.commitDue ⟨0, .commitPending (some 4), new⟩ header.epoch ∧
      (∃ j : Fin 4, new.managers[j] = some 0) ∧ (∀ j : Fin 4, new.managers[j] ≠ some 62) ∧ s.readBurst 0 = false ∧
      new.users[trigUser 7] = none ∧ (new.users[trigUser 0] = some 0 ∧ new.channels[(0 : Fin 12)] = .tables) ∧
      (new.users[trigUser 1] = some 1 ∧ new.channels[(1 : Fin 12)] = .none) ∧ new.params.returnPolicy = .manual ∧
      s.mgmt.active.params.returnPolicy = .auto ∧ (s.unit .e).monitor = .up ∧ (s.unit .e).farEnd = some .idle ∧
      (s.unit .e).inService = false) ∧
    (let s := committing .manual .auto { PortUnit.reset with monitor := .qualifying, lock := true, qual := some 900 }
    s.meetsFirstPass .w header ∧ s.commitDue ⟨0, .commitPending (some 4), boundSet .auto⟩ header.epoch ∧
      (boundSet .auto).params.returnPolicy = .auto ∧ (s.unit .e).monitor = .qualifying ∧ (s.unit .e).qual = some 900) :=
  ⟨⟨between_meets, fun _ h => by cases h.1⟩,
    ⟨committing_meets _ _ _ rfl, committing_due _ _ _, ⟨0, rfl⟩, by decide, by decide, by decide, by decide, by decide, rfl, rfl,
      rfl, rfl, rfl⟩,
    ⟨committing_meets _ _ _ rfl, committing_due _ _ _, rfl, rfl, rfl⟩⟩

theorem witness_FirstPassPreparesTheTrain :
    (let s := { between with
      mgmt := { between.mgmt with active := boundSet .auto }
      pub := upd between.pub 1 { between.pub[(1 : Fin 4)] with posted := true } }
    s.meetsFirstPass .w { header with cycle := 9 } ∧ (∀ x, ¬s.commitDue x header.epoch) ∧
      (s.trk.valid = true ∧ (9 : Cycle) ≠ s.trk.lastCycle + 1) ∧
      (s.ctl.tapState ≠ .faulted ∧ s.pub[(1 : Fin 4)].posted = true ∧ s.writeBurst 1 = false) ∧
      s.pub[(3 : Fin 4)].posted = false ∧ s.mgmt.active.users[stampUser] = some 4 ∧
      s.mgmt.active.channels[(4 : Fin 12)] = .cycleStart ∧ s.sig.stamps.length < 4) ∧
    (∃ r : Flight, (withMailbox between 5 ⟨.inFlight ⟨2, 7, 1⟩ false, message⟩).sched.mailboxes[(5 : Fin 8)].state =
      .inFlight r false ∧ header.cycle = r.cycle + 1) := by
  refine ⟨⟨meetsFirstPass_whole ⟨?_, ?_, ?_, ?_⟩ (fun out _ => by cases out <;> rfl) (by decide)
    (fun q => by cases q <;> exact (fun h => by cases h)) (.inr ?_), fun _ h => (by cases h.1), ?_, ?_, ?_, ?_, ?_, ?_⟩,
    ⟨2, 7, 1⟩, ?_, ?_⟩ <;> decide

/-- The tap in a PASSING record at Port W. -/
def passing : State :=
  { inTrain .roll with trk := { (inTrain .roll).trk with record := .passing .w, expected := none } }

theorem passing_listens (p : Port) : passing.listens p := by cases p <;> refine ⟨?_, ?_, ?_, ?_⟩ <;> decide

theorem passing_lineFree (p : Port) : passing.lineFree p := fun out _ => by cases out <;> rfl

/-- Port W inside an over-turn discard. -/
def discarding : State := { wrapped with portW := { upPort with discard := true } }

theorem passing_meets (p : Port) (lead : Lead) (h : lead ≠ .header 3#2) : passing.meets p lead (passing.decides p lead) :=
  State.meets_of_listens (passing_listens p) (.inl h)

/-- What was decided of a HEADER that begins an over-turn discard. -/
def overTurned : Arriving := ⟨.header 3, false, none, true, false, [], none⟩

/-- One command, or begun earlier; PASSING at the port, at the other port, or nowhere; while an ECHO is being sent at Port E. -/
theorem witness_HeadersThatBeginNoFirstPass :
    (let s := busyLine (arrivingAt between (seenFrame (.header 0)))
    between.meets .w (.header 0) (between.decides .w (.header 0)) ∧ s.meets .w (.header 0) (seenFrame (.header 0)) ∧
      (s.unit .e).tx.isSome = true ∧ (∀ q, between.trk.record ≠ .inTrain q) ∧
      between.trk.valid = true ∧ ({ header with cycle := 7 } : HeaderFrame).cycle = between.trk.lastCycle) ∧
    ((∀ f, Frame.outcome (.header f) none ≠ .good) ∧ between.trk.record ≠ .passing .w ∧
      (passing.meets .w (.header 0) (passing.decides .w (.header 0)) ∧ (∀ q, passing.trk.record ≠ .inTrain q) ∧
        passing.trk.record = .passing .w) ∧
      (passing.meets .e (.header 0) (passing.decides .e (.header 0)) ∧ passing.trk.record ≠ .passing .e)) ∧
    ((wrapped.ctl.tapState ≠ .bypass ∧ (wrapped.unit .w).inService = true ∧ (wrapped.unit .w).arriving = none) ∧
      turnedThrice.turn.extractLsb' 0 2 = 3#2 ∧ wrapped.route .w = some .w) ∧
    (discarding.ctl.tapState ≠ .bypass ∧ (discarding.unit .w).inService = true ∧ (discarding.unit .w).arriving = none ∧
      (discarding.unit .w).discard = true ∧ discarding.route .w = some .w) ∧
    ((arrivingAt wrapped overTurned).ctl.tapState ≠ .bypass ∧
      ((arrivingAt wrapped overTurned).unit .w).arriving =
        some ⟨.header (turnedThrice.turn.extractLsb' 0 2), false, none, true, false, [], none⟩) := by
  refine ⟨⟨State.meets_of_listens (inTrain_listens .roll .w) (.inl (by decide)), State.meets_of_arriving (a := seenFrame (.header 0)) rfl (by decide) rfl rfl fun _ => rfl, by decide, fun q => by cases q <;> decide, by decide, by decide⟩,
    ⟨(fun f h => by cases h), by decide, ⟨passing_meets .w _ (by decide), fun q => by cases q <;> decide, rfl⟩,
      passing_meets .e _ (by decide), by decide⟩, ⟨by decide, by decide, by decide⟩, by decide, by decide⟩

theorem witness_HeaderInsideATrain :
    (let s := inTrain (.block 1)
    (s.meets .w (.header 0) (s.decides .w (.header 0)) ∧ s.trk.record = .inTrain .w) ∧
      (s.meets .e (.header 0) (s.decides .e (.header 0)) ∧ header.cycle ≠ s.trk.lastCycle) ∧
      (Port.w ≠ .e ∧ s.trk.valid = true ∧ ({ header with cycle := 7 } : HeaderFrame).cycle = s.trk.lastCycle)) ∧
    Frame.outcome (.header header) none ≠ .good ∧
    ∀ x : Position, (inTrain x).meets .w (.header 0) ((inTrain x).decides .w (.header 0)) ∧
      (busyLine (arrivingAt (inTrain x) (seenFrame (.header 0)))).meets .w (.header 0) (seenFrame (.header 0)) ∧
      (inTrain x).trk.record = .inTrain .w ∧ (inTrain x).trk.expected = some x :=
  ⟨⟨⟨inTrain_meets _ .w _ (by decide), by decide⟩, ⟨inTrain_meets _ .e _ (by decide), by decide⟩, by decide⟩,
    (fun h => by cases h), fun x => ⟨inTrain_meets x .w _ (by decide),
      State.meets_of_arriving (a := seenFrame (.header 0)) rfl (fun h => by cases h) rfl rfl fun _ => rfl, rfl, rfl⟩⟩

/-- The tap of a train with one publish entry, CONTINUOUS, and three subscriptions, all on block 0. -/
def publishing : State :=
  { inTrain (.block 0) with
    mgmt := { (inTrain (.block 0)).mgmt with
      active := { TableSet.empty with
        pubs := upd TableSet.empty.pubs 15 ⟨true, 0, 3, 1, 3, 15, .continuous⟩
        subs := upd (upd TableSet.empty.subs 0 ⟨true, 0, 0, 1, 62, 0, 0, 1⟩) 31 ⟨true, 0, 3, 1, 63, 7, 15, 1⟩ } } }

theorem publishing_listens (p : Port) : publishing.listens p := by
  cases p <;> refine ⟨?_, ?_, ?_, ?_⟩ <;> exact of_decide_eq_true rfl

theorem publishing_lineFree (p : Port) : publishing.lineFree p := fun out _ => by cases out <;> rfl

theorem witness_PublishUnitWrites :
    (publishing.listens .w ∧ publishing.trk.record = .inTrain .w ∧
      publishing.trk.expected = some (.block (0 : Byte).toNat) ∧ publishing.ctl.tapState = .online) ∧
    (publishing.publishWrites 0 ≠ [] ∧ publishing.publishWrites 1 = []) ∧
    (∃ w ∈ publishing.publishWrites 0, w.segment = 31 / 8) ∧ ∀ w ∈ publishing.publishWrites 0, w.segment ≠ 23 / 8 :=
  ⟨⟨publishing_listens .w, rfl, rfl, rfl⟩, by decide, by decide, by decide⟩

theorem witness_FreshnessFromWriteMaps :
    publishing.listens .w ∧ publishing.lineFree .w ∧ publishing.trk.record = .inTrain .w ∧
      publishing.trk.expected = some (.block (block 0).number.toNat) ∧ publishing.ctl.tapState = .online ∧
      (let x := publishing.mgmt.active.subs[(0 : Fin 32)]
      x.valid = true ∧ x.block.val = (block 0).number.toNat ∧ x.publisher.toNat = 62) ∧
      (let x := publishing.mgmt.active.subs[(31 : Fin 32)]
      x.valid = true ∧ x.block.val = (block 0).number.toNat ∧ x.publisher.toNat = 63) ∧
      publishing.mgmt.active.subs[(1 : Fin 32)].valid = false :=
  ⟨publishing_listens .w, publishing_lineFree .w, rfl, rfl, rfl, by decide, by decide, by decide⟩

/-- The tap of a train with subscriptions 30 and 31 on block 0, the two last slots of bank 7. -/
def sharing : State :=
  { publishing with
    mgmt := { publishing.mgmt with
      active := { TableSet.empty with
        subs := upd (upd TableSet.empty.subs 30 ⟨true, 0, 0, 1, 62, 7, 14, 1⟩) 31 ⟨true, 0, 3, 1, 63, 7, 15, 1⟩ } } }

theorem witness_ExpectedBlockIsPublishedAndCaptured :
    ((publishing.meets .w (.block 0) (publishing.decides .w (.block 0)) ∧ publishing.trk.record = .inTrain .w ∧
      publishing.trk.expected = some (.block (block 0).number.toNat) ∧ (publishing.decides .w (.block 0)).capture = true) ∧
      (busyLine (arrivingAt publishing writtenBlock)).meets .w (.block 0) writtenBlock ∧
      (busyLine (arrivingAt publishing writtenBlock)).trk.record = .inTrain .w ∧ writtenBlock.capture = true ∧
      writtenBlock.writes ≠ publishing.publishWrites 0) ∧
    (let sub (e : Fin 32) : SubEntry := publishing.mgmt.active.subs[e]
    let on (e : Fin 32) : Prop := (sub e).valid = true ∧ (sub e).block.val = (block 0).number.toNat
    let holds (e : Fin 32) (i : Fin 128) : Prop :=
      8 * (sub e).slot.val ≤ i.val ∧ i.val < 8 * (sub e).slot.val + 8 * (sub e).count.val
    (on 0 ∧ holds 0 0 ∧ holds 0 7 ∧ ¬holds 0 8) ∧ (on 31 ∧ holds 31 120 ∧ holds 31 127 ∧ ¬holds 31 119) ∧
      ∀ d : Fin 32, d ≠ 31 → on d → (sub d).bank ≠ (sub 31).bank) ∧
    (let sub (e : Fin 32) : SubEntry := sharing.mgmt.active.subs[e]
    sharing.TablesLaw ∧ (sub 30).valid = true ∧ (sub 31).valid = true ∧ (sub 30).block = (sub 31).block ∧
      (sub 30).bank = (sub 31).bank) ∧
    ({ tap with mgmt := { tap.mgmt with active := { tap.mgmt.active with
      subs := upd tap.mgmt.active.subs 31 ⟨true, 63, 3, 1, 9, 7, 15, 1⟩ } } } : State).mgmt.active.subs[(31 : Fin 32)].block.val =
        (block 63).number.toNat :=
  ⟨⟨⟨State.meets_of_listens (publishing_listens .w) (.inl (by decide)), rfl, rfl, rfl⟩,
      State.meets_of_arriving (a := writtenBlock) rfl (by decide) rfl rfl (fun h => absurd rfl (h 0)), rfl, rfl, by decide⟩, by decide,
    ⟨⟨by decide +kernel, fun _ h => by cases h⟩, by decide⟩, by decide⟩

/-- What stands in its place but was not handed on, and every way a BLOCK or CONTAINER may stand out of place; one command, or
begun earlier. -/
theorem witness_FramesOutOfPlace :
    ((∀ x, (∀ lead, lead ≠ .header 3#2 → (inTrain x).meets .w lead ((inTrain x).decides .w lead)) ∧
        (∀ lead, (busyLine (arrivingAt (inTrain x) (seenFrame lead))).meets .w lead (seenFrame lead)) ∧
        (inTrain x).trk.record = .inTrain .w ∧ (inTrain x).trk.expected = some x) ∧
      ((block 1).number.toNat = 0 + 1 ∧ (1 : Nat) < (inTrain (.block 0)).trk.blocks.toNat) ∧
      ((block 2).number.toNat = 2 ∧ (inTrain (.block 0)).trk.blocks.toNat ≤ 2) ∧ (block 0).number.toNat < 1 ∧
      ((emptyBox 1).index.toNat = 1 ∧ (1 : Nat) < (inTrain (.block 0)).trk.containers.toNat) ∧
      ((emptyBox 2).index.toNat = 2 ∧ (inTrain (.container 0)).trk.containers.toNat ≤ 2) ∧ (emptyBox 0).index.toNat < 1) ∧
    (let s : State := { inTrain (.block 1) with ctl := ⟨.halted, true, false⟩ }
    s.meets .w (.block 1) (s.decides .w (.block 1)) ∧ s.trk.record = .inTrain .w ∧
      s.trk.expected = some (.block (block 1).number.toNat) ∧ (s.decides .w (.block 1)).capture = false ∧
      (seenFrame (.block 1)).capture = false) ∧
    (passing.meets .w .roll (passing.decides .w .roll) ∧ passing.trk.record = .passing .w ∧
      (passing.decides .w .roll).roll = none ∧ (seenFrame .roll).roll = none) ∧
    ((tap.meets .w .unknown (tap.decides .w .unknown) ∧ tap.trk.record = .idle ∧ tap.trk.record.port ≠ some .w) ∧
      (passing.meets .e .container (passing.decides .e .container) ∧ passing.trk.record.port ≠ some .e)) ∧
    (discarding.passesBy .w .roll
        ((discarding.unit .w).inService = true ∧ (discarding.unit .w).discard = true ∨ (discarding.unit .w).inService = false) ∧
      (arrivingAt tap ⟨.roll, false, none, false, false, [], none⟩).passesBy .w .roll False) ∧
    (wrapped.passesBy .e (.header 0) ((wrapped.unit .e).inService = false) ∧
      (arrivingAt tap ⟨.header 0, false, none, false, false, [], none⟩).passesBy .w (.header 0) False) := by
  refine ⟨⟨fun x => ⟨fun lead h => inTrain_meets x .w lead h,
      fun lead => State.meets_of_arriving (a := seenFrame lead) rfl (fun h => by cases h) rfl rfl fun _ => rfl, rfl, rfl⟩, by decide⟩,
    ⟨State.meets_of_listens ⟨by decide, by decide, by decide, by decide⟩ (.inl (by decide)), by decide⟩,
    ⟨passing_meets .w _ (by decide), by decide⟩,
    ⟨⟨State.meets_of_listens (tap_listens .w) (.inl (by decide)), by decide, by decide⟩, passing_meets .e _ (by decide), by decide⟩,
    ⟨⟨by decide, .inr (by decide)⟩, by decide, .inl rfl⟩, ⟨by decide, .inr (by decide)⟩, by decide, .inl rfl⟩

theorem witness_DefectsInsideATrain :
    (∀ x : Position, (∀ lead, lead ≠ .header 3#2 → (inTrain x).meets .w lead ((inTrain x).decides .w lead)) ∧
      (∀ lead, (busyLine (arrivingAt (inTrain x) (seenFrame lead))).meets .w lead (seenFrame lead)) ∧
      (busyLine (arrivingAt (inTrain x) writtenBlock)).meets .w (.block 0) writtenBlock ∧
      (inTrain x).trk.record = .inTrain .w ∧ (inTrain x).trk.expected = some x) ∧
    (Frame.outcome (.block (block 0)) none ≠ .good ∧ Frame.outcome (.container (emptyBox 0)) none ≠ .good) ∧
    (publishing.meets .w (.block 0) (publishing.decides .w (.block 0)) ∧ publishing.trk.record = .inTrain .w ∧
      (publishing.decides .w (.block 0)).writes ≠ []) :=
  ⟨fun x => ⟨fun lead h => inTrain_meets x .w lead h,
      fun lead => State.meets_of_arriving (a := seenFrame lead) rfl (fun h => by cases h) rfl rfl fun _ => rfl,
      State.meets_of_arriving (a := writtenBlock) rfl (fun h => by cases h) rfl rfl (fun h => absurd rfl (h 0)), rfl, rfl⟩,
    ⟨(fun h => by cases h), fun h => by cases h⟩,
    State.meets_of_listens (publishing_listens .w) (.inl (by decide)), rfl, by decide⟩

theorem witness_ContainersAreTakenAndFilled :
    (let s := inTrain (.container 1)
    let f := fullBox 1 14 2
    s.listens .w ∧ s.lineFree .w ∧ s.trk.record = .inTrain .w ∧ s.trk.expected = some (.container f.index.toNat) ∧
      s.ctl.tapState = .online ∧ f.malformed = false ∧ f.isFull = true ∧ stationOf f.dest = s.rst.station ∧
      stationOf f.dest ≠ 63#6 ∧ stationOf f.source ≠ s.rst.station ∧ f.isRefused = false ∧ f.cls = 0x02#8 ∧
      s.inbound.length < 8 ∧ (∀ m : Fin 8, s.sched.mailboxes[m].state = .free) ∧ s.mgmt.responses = []) ∧
    (let s := withMailbox (inTrain (.container 1)) 5 ⟨.waiting, message⟩
    s.listens .w ∧ s.lineFree .w ∧ s.trk.record = .inTrain .w ∧ s.trk.expected = some (.container (1 : Fin 8).val) ∧
      s.ctl.tapState = .online ∧ (emptyBox 1).index.toNat = (1 : Fin 8).val ∧ (emptyBox 1).isFull = false ∧
      s.mgmt.responses = [] ∧ s.sched.fills < s.mgmt.active.params.fillQuota.toNat ∧ s.mgmt.active.params.order = .fixed ∧
      s.mgmt.active.params.urgent = none ∧ s.sched.mailboxes[(5 : Fin 8)].state = .waiting ∧
      (∀ n : Fin 8, n.val < (5 : Fin 8).val → s.sched.mailboxes[n].state ≠ .waiting) ∧
      ∀ n : Fin 8, s.sched.mailboxes[n].dueAt 1 = none) := by
  refine ⟨⟨inTrain_listens _ .w, inTrain_lineFree _ .w, ?_⟩, ?_, ?_, ?_⟩
  · decide
  · exact ⟨by decide, by decide, by decide, by decide⟩
  · exact fun out _ => by cases out <;> rfl
  · decide

def responding (n : Nat) : State :=
  { inTrain (.container 1) with
    mgmt := { (inTrain (.container 1)).mgmt with
      responses := List.replicate n ⟨9, 1, [0x24, 0x00], true⟩, pendingRestart := some ⟨0, none, false⟩ } }

theorem witness_ContainersPassThroughTheSteps :
    (let s := inTrain (.container 1)
    let t := busyLine (arrivingAt s (seenFrame .container))
    s.meets .w .container (s.decides .w .container) ∧ t.meets .w .container (seenFrame .container) ∧
      s.trk.record = .inTrain .w ∧ s.trk.expected = some (.container (1 : Fin 8).val) ∧
      (fullBox 1 14 2).index.toNat = (1 : Fin 8).val ∧ (fullBox 1 14 2).malformed = false ∧ s.ctl.tapState = .online ∧
      ({ fullBox 1 14 2 with length := 97 } : ContainerFrame).malformed = true) ∧
    (let s : State := { inTrain (.container 1) with ctl := ⟨.faulted, false, false⟩ }
    s.meets .w .container (s.decides .w .container) ∧ s.trk.record = .inTrain .w ∧
      s.trk.expected = some (.container (1 : Fin 8).val) ∧ s.ctl.tapState = .faulted) := by
  refine ⟨⟨inTrain_meets _ .w _ (by decide),
    State.meets_of_arriving (a := seenFrame .container) rfl (by decide) rfl rfl (fun _ => rfl), by decide⟩, ?_⟩
  exact ⟨State.meets_of_listens ⟨by decide, by decide, by decide, by decide⟩ (.inl (by decide)), by decide⟩

/-- A RESTART's response placed while an ECHO is being sent waits with its mark, and is marked as left when it leaves (R124, R145). -/
theorem test_restart_response_waits_behind_an_echo :
    let f := emptyBox 1
    let s := { responding 1 with portE := { upPort with tx := some (.reply (echoOf 1)) } }
    after (exec (.container 0 .w f (some (Frame.check (.container f)))) s) (fun t =>
      decide (t.sent = [] ∧ t.mgmt.pendingRestart = some ⟨0, some 1, false⟩) && t.portE.elastic.all (fun h => h.restarts) &&
        after (exec (.echoReplySent 0 .e) t) (fun u =>
          decide (u.mgmt.pendingRestart = some ⟨0, some 1, true⟩ ∧ u.sent.length = 2))) = true := by decide +kernel

/-- A BLOCK whose number came earlier leaves with the words decided then, though it is stomped (R75, R76). -/
theorem test_begun_block_leaves_as_written :
    after (exec (.block 0 .w (block 0) (some (~~~Frame.check (.block (block 0))))) (arrivingAt (inTrain (.block 0)) writtenBlock))
      (fun t => decide (t.ctr.publishLost = 1 ∧ t.trk.defect = true) && t.sent.any fun x =>
        match x.content with
        | .whole (.block g) _ => decide (g.words[(0 : Fin 32)] = 0x55 ∧ g.words[(8 : Fin 32)] = 0x1234 ∧ g.thisMap = 0x4000)
        | _ => false) = true := by decide +kernel

theorem witness_EmptyContainersAreFilled :
    ((responding 1).mgmt.responses = ⟨9, 1, [0x24, 0x00], true⟩ :: [] ∧ (responding 2).mgmt.responses ≠ [] ∧
      (responding 0).mgmt.responses = []) ∧
    ((0 : Nat) < tap.mgmt.active.params.fillQuota.toNat ∧ tap.mgmt.active.params.urgent = none ∧
      tap.mgmt.active.params.order = .fixed ∧ (withMailbox tap 5 ⟨.waiting, message⟩).sched.mailboxes[(5 : Fin 8)].state = .waiting ∧
      ∀ n : Fin 8, n.val < (5 : Fin 8).val → (withMailbox tap 5 ⟨.waiting, message⟩).sched.mailboxes[n].state ≠ .waiting) ∧
    (let x : Params := { Params.default with order := .rotating, urgent := some 3 }
    let s := withMailbox { tap with mgmt := { tap.mgmt with active := { tap.mgmt.active with params := x } } } 5 ⟨.waiting, message⟩
    x.order = .rotating ∧ (∀ u, x.urgent = some u → s.sched.mailboxes[u].state ≠ .waiting) ∧
      ∃ i, i < 8 ∧ s.sched.mailboxes[Fin.ofNat 8 (s.sched.pointer.val + 1 + i)].state = .waiting ∧
        ∀ j, j < i → s.sched.mailboxes[Fin.ofNat 8 (s.sched.pointer.val + 1 + j)].state ≠ .waiting) ∧
    (let s := responding 1
    s.listens .w ∧ s.lineFree .w ∧ s.trk.record = .inTrain .w ∧ s.trk.expected = some (.container (1 : Fin 8).val) ∧
      s.ctl.tapState = .online ∧ (emptyBox 1).index.toNat = (1 : Fin 8).val ∧ (emptyBox 1).isFull = false ∧
      (∀ n : Fin 8, s.sched.mailboxes[n].dueAt 1 = none) ∧ s.route .w ≠ none ∧ s.mgmt.pendingRestart = some ⟨0, none, false⟩) := by
  refine ⟨by decide, by decide, ⟨rfl, ?_, ⟨5, ?_⟩⟩, ?_⟩
  · intro u h
    cases h
    decide
  · decide
  · exact ⟨⟨by decide, by decide, by decide, by decide⟩, fun out _ => by cases out <;> rfl, by decide⟩

theorem witness_ContainerSteps :
    (let s := withMailbox tap 3 ⟨.inFlight ⟨2, 7, 1⟩ true, message⟩
    let f : ContainerFrame := { fullBox 2 9 2 with source := 14, tag := 1 }
    s.sched.mailboxes[(3 : Fin 8)].state = .inFlight ⟨2, 7, 1⟩ true ∧ (∀ n : Fin 8, n < 3 → s.sched.mailboxes[n].dueAt 2 = none) ∧
      (∀ n : Fin 8, s.sched.mailboxes[n].dueAt 1 = none) ∧ stationOf s.sched.mailboxes[(3 : Fin 8)].dest ≠ 63#6 ∧
      stationOf (withMailbox tap 3 ⟨.inFlight ⟨2, 7, 1⟩ true, message.set 0 0x023F#16⟩).sched.mailboxes[(3 : Fin 8)].dest = 63#6 ∧
      (f.isFull = true ∧ stationOf f.source = s.rst.station ∧ f.tag = 1 ∧ f.cls = 0x02#8) ∧ f.isRefused = false ∧
      ({ f with refused := 1 } : ContainerFrame).isRefused = true ∧ (fullBox 2 9 2).tag ≠ 1) ∧
      ((fullBox 0 9 2).isFull = true ∧ stationOf (fullBox 0 9 2).source = ({ tap with rst := { tap.rst with station := 9 } } :
        State).rst.station) ∧
      ((fullBox 0 14 1).isFull = true ∧ stationOf (fullBox 0 14 1).dest = tap.rst.station ∧ (fullBox 0 14 1).isRefused = false ∧
        (fullBox 0 14 1).cls = 0x01#8) ∧
      ((fullBox 0 14 2).withRefused.isRefused = true ∧ (fullBox 0 14 0).cls = 0x00#8 ∧ 4 ≤ (responding 4).mgmt.responses.length ∧
        (fullBox 0 14 2).cls = 0x02#8 ∧
        8 ≤ ({ tap with inbound := List.replicate 8 ⟨9, 1, 0, Vector.replicate 96 0, 7, false⟩ } : State).inbound.length) ∧
      ((fullBox 0 63 2).isFull = true ∧ stationOf (fullBox 0 63 2).dest = 63#6 ∧ (fullBox 0 63 2).cls = 0x02#8 ∧
        tap.inbound.length < 8 ∧ (fullBox 0 63 0).cls ≠ 0x02#8) := by
  refine ⟨by decide, by decide, by decide, by decide, by decide⟩

theorem witness_RequestsAreDelivered :
    (tap.ctl.tapState = .online ∧ (fullBox 0 14 0).isFull = true ∧ stationOf (fullBox 0 14 0).dest = tap.rst.station ∧
      (fullBox 0 14 0).isRefused = false ∧ (fullBox 0 14 0).cls = 0x00#8 ∧
      (∃ extra, (fullBox 0 14 0).message = Request.identify.payload ++ extra) ∧
      ∀ (r : Request) (extra : List Byte), ({ fullBox 0 14 0 with length := 0 } : ContainerFrame).message ≠ r.payload ++ extra) ∧
    (let s := { tap with mgmt := { tap.mgmt with responses := List.replicate 4 ⟨0, 1, [1, 0], false⟩ } }
    s.ctl.tapState = .online ∧ 4 ≤ s.mgmt.responses.length) ∧
    (tap.hasRoom ∧ ¬tap.manages 3) ∧
    (let s := { tap with mgmt := { tap.mgmt with cache := tap.mgmt.cache.set 0 (some ⟨9, [1, 0]⟩) } }
    s.hasRoom ∧ s.manages 0 ∧ s.cached 0 = some ⟨9, [1, 0]⟩ ∧ (⟨9, [1, 0]⟩ : CachedResponse).tag = 9) := by
  refine ⟨⟨by decide, by decide, by decide, by decide, by decide, ⟨[], by decide⟩, fun _ _ h => by cases h⟩, by decide,
    ⟨⟨.inr (.inl rfl), by decide⟩, by unfold State.manages; decide⟩, ?_⟩
  exact ⟨⟨.inr (.inl rfl), by decide⟩, ⟨0, 0, by decide, by decide⟩, by decide, rfl⟩

/-- The tap of a train at whose ROLL bank 0 is complete: its one subscription is captured. -/
def complete (hold : Bool) : State :=
  { publishing with
    mgmt := { publishing.mgmt with
      active := { TableSet.empty with subs := upd TableSet.empty.subs 0 ⟨true, 0, 0, 1, 62, 0, 0, 1⟩ } }
    subs := upd publishing.subs 0 ⟨.unseen, 0, none, true, true⟩
    rx := upd publishing.rx 0 { RxBank.reset with hold := hold } }

/-- The tap at a close that completes banks 0 and 7, each under HOLD, whose BANK_READY(0) reaches the TAKE users of both. -/
def takers : State :=
  { complete true with
    mgmt := { (complete true).mgmt with
      active := { TableSet.empty with
        subs := upd (upd TableSet.empty.subs 0 ⟨true, 0, 0, 1, 62, 0, 0, 1⟩) 31 ⟨true, 0, 3, 1, 63, 7, 15, 1⟩
        channels := TableSet.empty.channels.set 3 (.bankReady 0)
        users := (TableSet.empty.users.set 12 (some 3)).set 19 (some 3) } }
    subs := upd (complete true).subs 31 ⟨.unseen, 0, none, true, true⟩
    rx := upd (complete true).rx 7 { RxBank.reset with hold := true } }

theorem witness_CloseOfACycle :
    ((complete false).trk.beganOnline = true ∧ (complete false).mgmt.active.users[takeUser 0] = none ∧
      (complete false).rx[(0 : Fin 8)].hold = false ∧ (complete false).readBurst 0 = false ∧
      (complete false).mgmt.active.subs[(0 : Fin 32)].valid = true) ∧
    (takers.trk.beganOnline = true ∧ (∀ b : Fin 8, b = 0 ∨ b = 7 → takers.owed b = true ∧ takers.allCaptured b = true ∧
        takers.rx[b].hold = true) ∧
      takers.bound (.bankReady 0) (takeUser 0) = true ∧ takers.bound (.bankReady 0) (takeUser 7) = true ∧ (0 : Fin 8) < 7) := by
  decide

/-- Under HOLD the TAKE users take all the same: bank 0 after its own completion, bank 7 before its own, of nothing yet. -/
theorem test_take_users_at_a_close :
    let t := takers.close .good none
    (t.rx[(0 : Fin 8)].front = .z ∧ t.rx[(0 : Fin 8)].readyNew = false) ∧
      t.rx[(7 : Fin 8)].front = .x ∧ t.rx[(7 : Fin 8)].readyNew = true := by decide +kernel

theorem witness_CompletionOfABank :
    ∀ hold : Bool, (complete hold).owed 0 = true ∧ (complete hold).allCaptured 0 = true ∧
      (complete hold).rx[(0 : Fin 8)].hold = hold ∧ (complete hold).readBurst 0 = false ∧
      ({ complete hold with lsp := ⟨some ⟨.read, some (.read 0), 0x1000, false⟩, .none, []⟩ } : State).readBurst 0 = true ∧
      (complete hold).bound (.bankReady 0) (takeUser 0) = false ∧ (complete hold).bound (.bankReady 0) (takeUser 7) = false := by
  decide

theorem witness_CensusRecords :
    (let closed : List RollEntry := List.replicate 62 ⟨63, 3⟩ ++ [⟨62, 0x51⟩]
    closed[62]? = some ⟨62, 0x51⟩ ∧ (stationOf (62 : Byte)).toNat = (62 : Fin 63).val ∧
      (∀ x ∈ closed.take 62, (stationOf x.station).toNat ≠ (62 : Fin 63).val) ∧ closed.length ≤ 63 ∧
      ∀ x ∈ closed, (stationOf x.station).toNat ≠ (0 : Fin 63).val) ∧
    (tap.roll.census[(0 : Fin 63)].presence = .neverSeen ∧ (⟨.missing, none, 2, 0⟩ : CensusRecord).presence = .missing ∧
      (3 : Byte) ≤ satInc (2 : Byte) ∧ ¬(4 : Byte) ≤ satInc (2 : Byte)) := by decide

theorem witness_RollClosesGood :
    (inTrain .roll).listens .w ∧ (inTrain .roll).lineFree .w ∧ (inTrain .roll).trk.record = .inTrain .w ∧
      (inTrain .roll).trk.expected = some .roll ∧ (inTrain .roll).trk.defect = false ∧
      (inTrain .roll).ctl.tapState = .online ∧ (rollOf [⟨9, 1⟩]).malformed = false ∧ (rollOf [⟨9, 1⟩]).openCount.toNat < 63 ∧
      ∀ x ∈ openEntries (rollOf [⟨9, 1⟩]), stationOf x.station ≠ (inTrain .roll).rst.station :=
  ⟨inTrain_listens _ .w, inTrain_lineFree _ .w, by decide, by decide, by decide, by decide, by decide, by decide, by decide⟩

theorem witness_RollDecisions :
    ((∃ x ∈ openEntries (rollOf [⟨14, 1⟩]), stationOf x.station = 14#6) ∧
      (∀ x ∈ openEntries (rollOf [⟨9, 1⟩]), stationOf x.station ≠ 14#6) ∧
      (∀ x ∈ openEntries (rollOf (List.replicate 63 ⟨63, 3⟩)), stationOf x.station ≠ 14#6) ∧
      (rollOf (List.replicate 63 ⟨63, 3⟩)).openCount.toNat = 63) ∧
    ((rollOf []).openCount = 0 ∧ (rollOf (List.replicate 63 ⟨63, 3⟩)).openCount.toNat = (62 : Fin 63).val + 1) := by decide

/-- The tap of a train at whose Port W a ROLL is arriving, its sample taken in UNCONFIGURED with neither port UP. -/
def sampled : State :=
  { inTrain .roll with
    portW := { upPort with arriving := some ⟨.roll, true, some .e, false, false, [], some ⟨.unconfigured, false, false, false⟩⟩ } }

/-- One command, or begun earlier with its sample; an error window with room, and one that the ROLL's error fills. -/
theorem witness_RollEndsTheTrain :
    (let s := inTrain .roll
    s.meets .w .roll (s.decides .w .roll) ∧ (s.decides .w .roll).roll = some ⟨.online, true, true, false⟩ ∧
      s.trk.record = .inTrain .w) ∧
    (∃ a, sampled.meets .w .roll a ∧ a.roll = some ⟨.unconfigured, false, false, false⟩ ∧ sampled.trk.record = .inTrain .w) ∧
    ((rollOf []).malformed = false ∧ (rollOf (List.replicate 64 ⟨1, 0⟩)).malformed = true) ∧
    (Frame.outcome (.roll (rollOf [])) none ≠ .good ∧ Frame.outcome (.roll (rollOf [])) (some (~~~Frame.check (.roll (rollOf [])))) ≠
      .good ∧ Frame.outcome (.roll (rollOf [])) (some (Frame.check (.roll (rollOf [])) ^^^ 1)) = .bad) :=
  ⟨⟨inTrain_meets .roll .w .roll (by decide), by decide, rfl⟩,
    ⟨_, State.meets_of_arriving (a := ⟨.roll, true, some .e, false, false, [], some ⟨.unconfigured, false, false, false⟩⟩) rfl
      (by decide) rfl rfl (fun _ => rfl), rfl, rfl⟩, by decide, (fun h => by cases h), by decide +kernel, by decide +kernel⟩

/-- A ROLL with a bad check, the eighth error of the window: the train closes DEFECTIVE and the port goes DOWN (R12, R28, R137). -/
theorem test_bad_roll_takes_the_port_down :
    let f := rollOf [⟨9, 1⟩]
    let s := inTrain .roll
    after (exec (.roll 0 .w f (some (Frame.check (.roll f) ^^^ 1)))
      { s with portW := { s.portW with window := List.replicate 7 true } }) (fun t =>
        decide (t.ctr.trainsDefective = 1 ∧ t.portW.monitor = .down ∧ t.roll.upstream = none ∧ t.sent.length = 1)) = true := by
  decide +kernel

theorem witness_DuplicateNumberFaults :
    (inTrain .roll).listens .w ∧ (inTrain .roll).lineFree .w ∧ (inTrain .roll).trk.record = .inTrain .w ∧
      (inTrain .roll).ctl.tapState = .online ∧ (rollOf [⟨14, 1⟩]).malformed = false ∧
      ∃ x ∈ openEntries (rollOf [⟨14, 1⟩]), stationOf x.station = (inTrain .roll).rst.station :=
  ⟨inTrain_listens _ .w, inTrain_lineFree _ .w, by decide, by decide, by decide, ⟨14, 1⟩, by decide, by decide⟩

/-- The tap with a test of 3 requests on Port W, the last one in its wait. -/
def testing (phase : TestPhase) : State :=
  { tap with mgmt := { tap.mgmt with segTest := ⟨.running, .w, 3, 3, 2, 0, 0, 2, phase⟩ } }

theorem witness_SegmentTestDecides :
    (tap.ctl.tapState ≠ .bypass ∧ ((testing (.waiting 1200)).unit .w).arriving = none ∧
      ((testing (.waiting 1200)).unit .w).monitor = .up ∧ (echoOf 1).direction = 0x01#8 ∧
      (testing (.waiting 1200)).mgmt.segTest.state = .running ∧ (testing (.waiting 1200)).mgmt.segTest.port = .w ∧
      (testing (.waiting 1200)).mgmt.segTest.phase = .waiting 1200) ∧
    (let x := (testing (.waiting 1200)).mgmt.segTest
    let good (f : EchoFrame) : Check := Frame.outcome (.echo f) (some (Frame.check (.echo f)))
    let reply (seq : Byte) (i : Nat) : EchoFrame := ⟨0x01#8, seq, echoPattern i⟩
    Frame.outcome (.echo (echoOf 1)) none ≠ .good ∧ (good (reply 2 0) = .good ∧ (reply 2 0).seq = BitVec.ofNat 8 x.request ∧
        (reply 2 0).pattern ≠ echoPattern x.request) ∧
      (good (reply 2 2) = .good ∧ (reply 2 2).seq = BitVec.ofNat 8 x.request ∧ (reply 2 2).pattern = echoPattern x.request) ∧
      good (reply 1 2) = .good ∧ (reply 1 2).seq ≠ BitVec.ofNat 8 x.request) := by
  refine ⟨by decide, (fun h => by cases h), ⟨by decide +kernel, by decide, by decide +kernel⟩,
    ⟨by decide +kernel, by decide, rfl⟩, by decide +kernel, by decide⟩

/-- A reply whose check is stomped counts as bad and decides the request (R146). -/
theorem test_stomped_reply_is_bad :
    after (exec (.echo 0 .w (echoOf 1) (some (~~~Frame.check (.echo (echoOf 1))))) (testing (.waiting 1200))) (fun t =>
      decide (t.mgmt.segTest.bad = 1 ∧ t.mgmt.segTest.state = .done ∧ t.portW.counters.passedBad = 1)) = true := by decide +kernel

theorem witness_TrackerTimers :
    ((((inTrain .roll).listens .w ∧ (inTrain .roll).trk.record.port = some .w ∧ Lead.roll ≠ .echo ∧ Lead.roll ≠ .openCount ∧
      Lead.roll ≠ .header 3#2) ∧
      ((inTrain .roll).trk.gapTimer = some 1100 ∧ (inTrain .roll).trk.record = .inTrain .w ∧
        (inTrain .roll).ctl.tapState ≠ .bypass ∧ ((inTrain .roll).unit .w).arriving = none) ∧
      (∃ a, (sampled.unit .w).arriving = some a ∧ a.lead = .roll ∧ a.seen = true) ∧
      (passing.trk.gapTimer = some 1100 ∧ passing.trk.record = .passing .w) ∧
      ((inTrain (.block 0)).ctl.tapState ≠ .bypass ∧ ((inTrain (.block 0)).unit .w).arriving = none ∧
        (∃ t, exec (.frameBeginsToArrive 1 .w (Frame.block (block 0)).lead) (inTrain (.block 0)) = .next t) ∧
        ∃ t, exec (.frameBeginsToArrive 1 .w (Frame.header header).lead) (inTrain (.block 0)) = .next t)) ∧
    ((between.trk.trainTimer = some 2100 ∧ between.trk.lastPeriod = some 1000 ∧ ∀ q, between.trk.record ≠ .inTrain q) ∧
      ((inTrain .roll).trk.trainTimer = some 2100 ∧ (inTrain .roll).trk.lastPeriod = some 1000 ∧
        (inTrain .roll).trk.record = .inTrain .w))) :=
  ⟨⟨⟨inTrain_listens _ .w, by decide, by decide, by decide, by decide⟩, by decide, ⟨_, rfl, rfl, rfl⟩, by decide,
      by decide, rfl, ⟨_, rfl⟩, _, rfl⟩, ⟨⟨by decide, by decide, fun q => by cases q <;> decide⟩, by decide⟩⟩

/-- The tap at whose ports a written BLOCK and a HEADER are arriving, both leaving by Port W. -/
def busyPorts : State :=
  { passing with
    portW := { upPort with arriving := some ⟨.header 0, true, some .w, false, false, [], none⟩ }
    portE := { upPort with
      arriving := some ⟨.block 0, true, some .w, false, true, [⟨3, Vector.replicate 8 0⟩], none⟩
      tx := some (.reply (echoOf 1)) } }

/-- The tap whose pin 6 follows RING_CHANGE. -/
def ringing : State :=
  { tap with mgmt := { tap.mgmt with active := { tap.mgmt.active with
    channels := tap.mgmt.active.channels.set 2 .ringChange, users := tap.mgmt.active.users.set 6 (some 2) } } }

theorem witness_LockLostLeavesUp :
    tap.ctl.tapState ≠ .bypass ∧ (tap.unit .w).monitor = .up ∧ (inTrain .roll).trk.record = .inTrain .w ∧
      (passing.trk.record.port = some .w) ∧ (testing .prepared).mgmt.segTest.state = .running ∧
      (testing .prepared).mgmt.segTest.port = .w ∧ busyPorts.ctl.tapState ≠ .bypass ∧ (busyPorts.unit .w).monitor = .up ∧
      (busyPorts.unit .e).monitor = .up ∧ (busyPorts.unit .w).tx = none ∧ (busyPorts.unit .e).tx.isSome = true ∧
      ((busyPorts.unit .e).arriving.bind fun a => a.out) = some .w ∧ ringing.ctl.tapState ≠ .bypass ∧
      (ringing.unit .w).monitor = .up ∧ ringing.bound .ringChange (trigUser 6) = true := by decide

/-- The tap with Port W as given. -/
def withW (u : PortUnit) : State := { tap with portW := u }

def downPort : PortUnit := { PortUnit.reset with monitor := .down }

def qualifyingPort : PortUnit := { PortUnit.reset with monitor := .qualifying, lock := true, qual := some 900 }

theorem witness_MonitorLosesItsPlace :
    ((withW qualifyingPort).ctl.tapState ≠ .bypass ∧ ((withW qualifyingPort).unit .w).arriving = none ∧
      ((withW qualifyingPort).unit .w).monitor = .qualifying ∧ ((withW qualifyingPort).unit .w).lock = true) ∧
      (((withW downPort).unit .w).arriving = none ∧ ((withW downPort).unit .w).monitor = .down) ∧
      (let w := (withW { upPort with window := List.replicate 57 false ++ List.replicate 7 true }).unit .w
      w.monitor = .up ∧ w.arriving = none ∧ 8 ≤ ((w.window ++ [true]).drop (w.window.length - 63)).countP id ∧
        ((w.window ++ [false]).drop (w.window.length - 63)).countP id < 8) ∧
      ((tap.unit .w).monitor = .up ∧ (tap.unit .w).lock = true) := by decide

/-- The tap with Port W as given, under return policy MANUAL. -/
def manual (u : PortUnit) : State :=
  { withW u with mgmt := { tap.mgmt with active := { tap.mgmt.active with
    params := { tap.mgmt.active.params with returnPolicy := .manual } } } }

theorem witness_QualificationAndReturn :
    (((((withW downPort).unit .w).monitor = .down ∧ ((withW downPort).unit .w).hold = none ∧
      ((withW downPort).unit .w).farEnd ≠ some .fault) ∧
      (let s := withW { downPort with hold := some 1500, lock := true }
      (s.unit .w).monitor = .down ∧ (s.unit .w).hold = some 1500 ∧ (s.unit .w).lock = true ∧ (s.unit .w).farEnd ≠ some .fault) ∧
      (let s := withW { downPort with hold := some 1500 }
      s.ctl.tapState ≠ .bypass ∧ (s.unit .w).hold = some 1500 ∧ (s.unit .w).lock = false) ∧
      (let s := withW { downPort with lock := true, farEnd := some .fault }
      (s.unit .w).monitor = .down ∧ (s.unit .w).hold = none ∧ (s.unit .w).lock = true ∧ FarSignal.wait ≠ .fault)) ∧
    (((withW qualifyingPort).ctl.tapState ≠ .bypass ∧ ((withW qualifyingPort).unit .w).monitor = .qualifying ∧
      ((withW qualifyingPort).unit .w).qual = some 900) ∧
    (let s := withW { upPort with inService := false }
    s.ctl.tapState ≠ .bypass ∧ (s.unit .w).monitor = .up ∧ (s.unit .w).farEnd = some .idle ∧ (s.unit .w).inService = false ∧
      s.mgmt.active.params.returnPolicy = .auto ∧ s.trk.record = .idle ∧
      ∀ q, (s.unit q).arriving = none ∧ (s.unit q).elastic = []))) ∧
    ((withW qualifyingPort).unit .w).farEnd ≠ some .idle ∧
    (let s := withW { qualifyingPort with farEnd := some .idle }
    s.ctl.tapState ≠ .bypass ∧ (s.unit .w).monitor = .qualifying ∧ (s.unit .w).qual = some 900 ∧
      (s.unit .w).farEnd = some .idle ∧ s.mgmt.active.params.returnPolicy ≠ .manual) ∧
    (let s := manual { qualifyingPort with farEnd := some .idle }
    s.ctl.tapState ≠ .bypass ∧ (s.unit .w).monitor = .qualifying ∧ (s.unit .w).qual = some 900 ∧
      (s.unit .w).farEnd = some .idle ∧ s.mgmt.active.params.returnPolicy = .manual ∧ (s.unit .w).inService = false ∧
      (s.unit .w).returnReady = false) ∧
    (let s := manual { upPort with inService := false, farEnd := some .wait }
    s.ctl.tapState ≠ .bypass ∧ (s.unit .w).monitor = .up ∧ (s.unit .w).lock = true ∧
      s.mgmt.active.params.returnPolicy = .manual ∧ (s.unit .w).inService = false ∧ (s.unit .w).returnReady = false) ∧
    ((tap.unit .w).monitor = .up ∧ (tap.unit .w).lock = true ∧ (tap.unit .w).inService = true) :=
  ⟨⟨by decide, by decide, by decide, by decide, by decide, by decide, by decide, by decide, fun q => by cases q <;> decide⟩,
    by decide⟩

/-- The end of qualification raises RING_CHANGE: the pin that follows it goes high. -/
theorem test_ring_change_drives_a_pin :
    after (exec (.qualificationComplete 0 .w) { ringing with portW := { qualifyingPort with qual := some 900 } }) (fun t =>
      decide (t.portW.monitor = .up ∧ t.att.ring = true ∧ t.sig.pins[(6 : Fin 8)].high = true)) = true := by decide +kernel

/-- A gap at Port W with a container still arriving for it, and no gap: a BLOCK being sent there, or a frame that waits. -/
theorem witness_EchoTransmission :
    let gap (s : State) (p : Port) : Prop :=
      (s.unit p).elastic = [] ∧ ∀ q a, (s.unit q).arriving = some a → a.out = some p → a.lead = .container
    (tap.ctl.tapState ≠ .bypass ∧ (tap.unit .w).arriving = none ∧ (tap.unit .w).monitor = .up ∧
      (echoOf 0).direction = 0x00#8) ∧
    (let s : State := { arrivingAt tap (seenFrame .container) with portE := { upPort with waitingReply := some (echoOf 1) } }
    s.ctl.tapState ≠ .bypass ∧ (s.unit .e).monitor = .up ∧ (s.unit .e).tx = none ∧ gap s .e ∧
      (s.unit .e).waitingReply = some (echoOf 1)) ∧
    (let s := testing .prepared
    gap s .w ∧ (s.unit .w).waitingReply = none ∧ s.mgmt.segTest.state = .running ∧ s.mgmt.segTest.port = .w ∧
      s.mgmt.segTest.phase = .prepared) ∧
    (¬gap (arrivingAt tap (seenFrame (.block 0))) .e ∧ ((arrivingAt tap (seenFrame (.block 0))).unit .e).tx = none ∧
      ¬gap (withW { upPort with elastic := [⟨.cut .roll, false, false⟩] }) .w) ∧
    (((busyLine tap).unit .e).tx = some (.reply (echoOf 1)) ∧ ((busyLine tap).unit .e).elastic ≠ []) ∧
    (let s := withW { upPort with tx := some (.request (echoOf 0)) }
    (s.unit .w).tx = some (.request (echoOf 0)) ∧ (s.unit .w).elastic = []) := by
  refine ⟨by decide, ⟨by decide, by decide, by decide, ⟨by decide, fun q a h _ => ?_⟩, by decide⟩,
    ⟨⟨by decide, fun q a h => by cases q <;> cases h⟩, by decide, by decide, by decide, by decide⟩,
    ⟨fun h => absurd (h.2 .w _ rfl rfl) (by decide), by decide, fun h => absurd h.1 (by decide)⟩, by decide, by decide⟩
  cases q <;> cases h
  rfl

/-- A BLOCK that ends while an ECHO is being sent waits behind what waits there, and leaves after it when the ECHO has left; the
RESTART's response among them is then marked as left (R124, R145). -/
theorem test_frames_wait_behind_an_echo :
    let f := block 0
    after (exec (.block 0 .w f (some (Frame.check (.block f)))) (busyLine (inTrain (.block 0)))) (fun t =>
      decide (t.sent = [] ∧ t.portE.elastic.length = 2) &&
        after (exec (.echoReplySent 0 .e) t) (fun u =>
          decide (u.sent = [⟨.e, .whole (.echo (echoOf 1)) (Frame.check (.echo (echoOf 1)))⟩, ⟨.e, .cut .container⟩,
              ⟨.e, .whole (.block f) (Frame.check (.block f))⟩] ∧ u.portE.elastic = [] ∧
            u.mgmt.pendingRestart = some ⟨0, some 1, true⟩))) = true := by decide +kernel

/-- The tap with channel 0 remote, followed by the STAMP user and TRIG_OUT user 3. -/
def following : State :=
  { tap with
    mgmt := { tap.mgmt with active := { tap.mgmt.active with
      users := (tap.mgmt.active.users.set 20 (some 0)).set 3 (some 0), channels := tap.mgmt.active.channels.set 1 .tables } }
    sig := { tap.sig with pins := upd tap.sig.pins 3 ⟨true, some 999⟩ } }

theorem witness_RisingEdgeReachesItsUsers :
    (let s : State := { following with
      mgmt := { following.mgmt with active := { following.mgmt.active with
        users := (following.mgmt.active.users.set 11 (some 11)).set 19 (some 11),
        channels := following.mgmt.active.channels.set 11 (.bankReady 7) } } }
    s.bound (.bankReady 7) (postUser 3) = true ∧ s.bound (.bankReady 7) (takeUser 7) = true ∧
      s.bound (.bankReady 7) (trigUser 3) = false ∧ s.bound .none (trigUser 3) = true ∧
      s.mgmt.active.users[stampUser] = some 0 ∧ s.mgmt.active.channels[(0 : Fin 12)] = .none) ∧
    (tap.bound .tables stampUser = false) ∧
      (following.bound .none stampUser = true ∧ following.sig.stamps.length < 4) ∧
      (let s := { following with sig := { following.sig with stamps := List.replicate 4 ⟨0, 0, 0⟩ } }
      s.bound .none stampUser = true ∧ 4 ≤ s.sig.stamps.length) := by decide

theorem witness_PinsAndPulses :
    (let s := { tap with sig := { tap.sig with trigIn := upd tap.sig.trigIn 0 true } }
    s.pinIsOutput 0 = false ∧ s.sig.trigIn[(0 : Fin 8)] = true) ∧
    (tap.pinIsOutput 7 = false ∧ tap.sig.trigIn[(7 : Fin 8)] = false) ∧
    (following.mgmt.active.users[trigUser 3] = some 0 ∧ following.sig.pins[(3 : Fin 8)] = ⟨true, some 999⟩ ∧
      following.channelLevel 0 = false) ∧
    (let s := { tap with sig := { tap.sig with pulses := upd tap.sig.pulses 11 (some 1001) } }
    s.sig.pulses[(11 : Fin 12)] = some 1001) ∧
    (tap.ctl.tapState = .online ∧ ({ tap with ctl := ⟨.halted, false, true⟩ } : State).ctl.tapState = .halted ∧
      ({ tap with ctl := ⟨.halted, false, true⟩ } : State).ctl.commandCause = false) := by decide

theorem witness_RestartCauseAndCount :
    tap.rst.rstLow = false ∧ (writing.servesWrite = true ∧ writing.alreadyActed = false) ∧
      (let s := { tap with mgmt := { tap.mgmt with pendingRestart := some ⟨1, some 0, true⟩ } }
      s.mgmt.pendingRestart = some ⟨1, some 0, true⟩ ∧ (true = true ∨ 2 ≤ 1)) ∧
      (let s := { tap with mgmt := { tap.mgmt with pendingRestart := some ⟨2, none, false⟩ } }
      s.mgmt.pendingRestart = some ⟨2, none, false⟩ ∧ 2 ≤ 2) := by decide

theorem witness_RestartValues :
    tap.lsp.txn = none ∧ writing.lsp.txn = some ⟨.write, none, 0x3301, false⟩ := by decide

theorem witness_BypassAndItsEnd :
    State.reset.ctl.tapState = .bypass ∧ tap.ctl.tapState ≠ .bypass ∧
    (State.reset.rst.supplySettling = true ∧ State.reset.rst.cause = .powerOn ∧ State.reset.rst.hold = .waiting) ∧
      (let s := tap.beginRestart .pin
      s.rst.rstLow = true ∧ s.rst.cause = .pin ∧ s.rst.hold = .waiting) ∧
      (let s := tap.beginRestart .local
      s.rst.hold = .running 3000 ∧ s.ctl.tapState = .bypass ∧ (63#6).toNat = 63 ∧ 1 ≤ (1#6).toNat ∧ (62#6).toNat ≤ 62) := by
  decide

theorem witness_Transactions :
    (State.reset.lsp.txn = none ∧ State.reset.rst.supplySettling = true) ∧
    (tap.lsp.txn = none ∧ tap.rst.supplySettling = false ∧ tap.rst.rstLow = false ∧ 0x03#8 ≠ 0x01#8 ∧ 0x03#8 ≠ 0x02#8) ∧
      (let s := { tap with lsp := ⟨some ⟨.read, some (.read 7), 0x1380, false⟩, .none, []⟩ }
      s.lsp.txn = some ⟨.read, some (.read 7), 0x1380, false⟩) ∧
      (let s := { tap with lsp := ⟨some ⟨.write, (some 3).map Burst.write, 0x2180, false⟩, .none, []⟩ }
      s.lsp.txn = some ⟨.write, (some 3).map Burst.write, 0x2180, false⟩) ∧
      (let dead := { tap with lsp := ⟨some ⟨.dead, none, 0, false⟩, .none, []⟩ }
      dead.lsp.txn = some ⟨.dead, none, 0, false⟩) ∧
      writing.lsp.txn = some ⟨.write, (none : Option (Fin 4)).map Burst.write, 0x3301, false⟩ := by decide

theorem witness_BurstsMoveThroughTheMap :
    (let window (n : Nat) : Prop := 0x1000 ≤ n ∧ n < 0x1400 ∨ 0x2000 ≤ n ∧ n < 0x2200
    (window 0x107F ∧ 0x107F % 128 = 127) ∧ (window 0x13FF ∧ 0x13FF % 128 = 127) ∧ (window 0x21FF ∧ 0x21FF % 128 = 127) ∧
      (window 0x1000 ∧ 0x1000 % 128 ≠ 127) ∧ ¬window 0x0FFF ∧ ¬window 0x1400 ∧ ¬window 0x1FFF ∧ ¬window 0x2200) ∧
    (nextAddress 0x107F#16 = 0x1000#16 ∧ nextAddress 0x13FF#16 = 0x1380#16 ∧ nextAddress 0x21FF#16 = 0x2180#16 ∧
      nextAddress 0x3301#16 = 0x3301#16 ∧ nextAddress 0x0FFF#16 = 0x1000#16 ∧ nextAddress 0xFFFF#16 = 0#16) := by decide

/-- The tap with something in every window: a due flight, an inbound record, a stamp, a listed station. -/
def showing : State :=
  { withMailbox (withMailbox tap 7 ⟨.inFlight ⟨2, 7, 1⟩ true, message⟩) 0 ⟨.done .sent none, message⟩ with
    inbound := [⟨9, 1, 2, Vector.replicate 96 0x61, 7, true⟩]
    sig := { tap.sig with stamps := [⟨11, 7, 3⟩], overflow := true }
    roll := { tap.roll with
      censusCycle := some 7
      census := upd tap.roll.census 62 ⟨.present, some ⟨.halted, true, false, true, 62, 5, 7⟩, 1, 2⟩ } }

theorem witness_WindowsShowTheState :
    (tap.inbound = [] ∧ tap.sig.stamps = [] ∧ tap.roll.censusCycle = none ∧ tap.roll.census[(0 : Fin 63)].listing = none ∧
      tap.sched.mailboxes[(0 : Fin 8)].state = .free) ∧
    (showing.sched.mailboxes[(7 : Fin 8)].state = .inFlight ⟨2, 7, 1⟩ true ∧
      showing.sched.mailboxes[(0 : Fin 8)].state = .done .sent none ∧
      showing.inbound = ⟨9, 1, 2, Vector.replicate 96 0x61, 7, true⟩ :: [] ∧ showing.sig.stamps = ⟨11, 7, 3⟩ :: [] ∧
      showing.sig.stamps.length ≤ 4 ∧ showing.roll.censusCycle = some 7 ∧
      showing.roll.census[(62 : Fin 63)].listing = some ⟨.halted, true, false, true, 62, 5, 7⟩) ∧
    ((0x31F7 : Nat) % 64 = 55 ∧ (0x31FF : Nat) % 64 = 63) := by decide

theorem witness_WrittenWords :
    (writing.lsp.txn = some ⟨.write, none, 0x3301, false⟩ ∧ (⟨.write, none, 0x3301, false⟩ : Txn).kind = .write) ∧
      (let dead := { tap with lsp := ⟨some ⟨.dead, none, 0, false⟩, .none, []⟩ }
      dead.lsp.txn = some ⟨.dead, none, 0, false⟩ ∧ (⟨.dead, none, 0, false⟩ : Txn).kind ≠ .write) := by decide

theorem witness_StatusBlockShowsTheState :
    (tap.trk.interval = none ∧ tap.mgmt.activation = none ∧ tap.roll.upstream = none) ∧
      ({ tap.trk with interval := some ⟨3, 2, 4⟩ } : Tracker).interval = some ⟨3, 2, 4⟩ ∧
      ({ tap.mgmt with activation := some ⟨5, 7⟩ } : Management).activation = some ⟨5, 7⟩ ∧
      ({ tap.roll with upstream := some 62 } : RollUnit).upstream = some 62 ∧
      41 ≤ (255 : Fin 256).val := by decide

theorem witness_BankAndMailboxActions :
    ((writing.lsp.txn = some ⟨.write, none, 0x3301, false⟩ ∧
      ((7#12).toNat = (7 : Fin 8).val ∧
        ({ writing with rx := upd writing.rx 7 { RxBank.reset with readyNew := true } } : State).rx[(7 : Fin 8)].readyNew =
          true) ∧
      writing.rx[(7 : Fin 8)].readyNew = false ∧ 8 ≤ (8#12).toNat ∧ (3#12).toNat = (3 : Fin 4).val ∧ 4 ≤ (4#12).toNat) ∧
    (writing.lsp.txn = some ⟨.write, none, 0x3301, false⟩ ∧ (5#12).toNat = (5 : Fin 8).val ∧
      (let box := (withMailbox writing 5 ⟨.free, message⟩).sched.mailboxes[(5 : Fin 8)]
      box.state = .free ∧ box.dest.toNat ≤ 63 ∧ box.dest.toNat ≠ writing.rst.station.toNat ∧ box.cls = 0x02#8 ∧
        box.length.toNat ≤ 96) ∧
      (withMailbox writing 5 ⟨.waiting, message⟩).sched.mailboxes[(5 : Fin 8)].state ≠ .free ∧
      (withMailbox writing 5 ⟨.done .sent none, message⟩).sched.mailboxes[(5 : Fin 8)].state = .done .sent none ∧
      ∀ o f, writing.sched.mailboxes[(5 : Fin 8)].state ≠ .done o f)) :=
  ⟨(by
  decide),
    ⟨by decide, by decide, by decide, by decide, by decide, fun _ _ h => by cases h⟩⟩

theorem witness_QueueAndCauseActions :
    (writing.lsp.txn = some ⟨.write, none, 0x3301, false⟩ ∧ writing.inbound = [] ∧ writing.sig.stamps = []) ∧
      ({ writing with inbound := [⟨9, 1, 0, Vector.replicate 96 0, 7, false⟩] } : State).inbound =
        ⟨9, 1, 0, Vector.replicate 96 0, 7, false⟩ :: [] ∧
      ({ writing with sig := { writing.sig with stamps := [⟨0, 0, 0⟩] } } : State).sig.stamps = ⟨0, 0, 0⟩ :: [] ∧
      (⟨.write, none, 0x3301, true⟩ : Txn).acted = true ∧ (⟨.write, none, 0x3301, false⟩ : Txn).acted = false ∧
      10 ≤ (10#4).toNat ∧ (15#4 : BitVec 4).toNat = 15 ∧ 8 ≤ (8#12).toNat := by decide

/-- Station 0 is in the manager set of the empty tables, and its cache record is empty. -/
theorem tap_executes (tag : Byte) : tap.executes 0 tag :=
  ⟨⟨.inr (.inl rfl), by decide⟩, ⟨0, 0, by decide, by decide⟩, fun _ h => by cases h⟩

theorem witness_ReadingAndCounterRequests : tap.executes 0 9 ∧ 6 ≤ (6#8).toNat := ⟨tap_executes 9, by decide⟩

theorem witness_RecordRequests :
    tap.executes 0 9 ∧ (2 ≤ (2#8).toNat ∧ 6 ≤ (6#8).toNat ∧
      ({ tap with mgmt := { tap.mgmt with session := some ⟨0, .opened 9, TableSet.empty⟩ } } : State).mgmt.session =
        some ⟨0, .opened 9, TableSet.empty⟩ ∧ publishing.mgmt.active.subs[(31 : Fin 32)].valid = true ∧
      tap.mgmt.active.subs[(31 : Fin 32)].valid = false) ∧ (62 < (63#8).toNat ∧ (62#8).toNat ≤ 62 ∧ (9#8).toNat > 8 ∧ 63 < (62#8).toNat + (2#8).toNat ∧
      (62#8).toNat + (1#8).toNat ≤ 63 ∧ 31 < (32#8).toNat ∧ 32 < (31#8).toNat + (2#8).toNat ∧
      (31#8).toNat + (1#8).toNat ≤ 32 ∧ (31#8).toNat < Table.subscription.entries ∧
      Table.subscription.entries ≤ (32#8).toNat ∧ tap.mgmt.session = none) := ⟨tap_executes 9, by decide, by decide⟩

/-- The tap with an edit session of station 0. -/
def editing (x : SessionState) : State :=
  { tap with mgmt := { tap.mgmt with session := some ⟨0, x, { TableSet.empty with id := 5 }⟩ } }

/-- The tap with an edit session of station 5. -/
def otherEdits : State :=
  { tap with mgmt := { tap.mgmt with session := some ⟨5, .opened 3000, { TableSet.empty with id := 5 }⟩ } }

theorem otherEdits_executes (tag : Byte) :
    otherEdits.executes 0 tag ∧ ∃ x, otherEdits.mgmt.session = some x ∧ x.owner ≠ 0 ∧ x.state = .opened 3000 :=
  ⟨tap_executes tag, _, rfl, by decide, rfl⟩

theorem editing_executes (x : SessionState) (tag : Byte) : (editing x).executes 0 tag := tap_executes tag

/-- For each table, bytes at the ends of the ranges that spell an entry, and bytes one past an end that spell none. -/
theorem witness_EntryFields :
    ((decodeEntry .subscription #v[0xFF, 63, 3, 1, 63, 7, 120, 254]).isSome ∧
        decodeEntry .subscription #v[1, 64, 0, 1, 0, 0, 0, 1] = none ∧
        decodeEntry .subscription #v[1, 0, 1, 4, 0, 0, 0, 1] = none ∧
        decodeEntry .subscription #v[1, 0, 0, 1, 64, 0, 0, 1] = none ∧
        decodeEntry .subscription #v[1, 0, 0, 1, 0, 0, 128, 1] = none ∧
        decodeEntry .subscription #v[1, 0, 0, 1, 0, 0, 0, 255] = none) ∧
      ((decodeEntry .publish #v[1, 63, 0, 4, 3, 120, 1, 9]).isSome ∧ decodeEntry .publish #v[1, 0, 0, 1, 4, 0, 0, 0] = none ∧
        decodeEntry .publish #v[1, 0, 0, 1, 0, 0, 2, 0] = none) ∧
      ((decodeEntry .channel #v[4, 7, 0, 0, 0, 0, 0, 0]).isSome ∧ decodeEntry .channel #v[4, 8, 0, 0, 0, 0, 0, 0] = none ∧
        decodeEntry .channel #v[5, 4, 0, 0, 0, 0, 0, 0] = none ∧ (decodeEntry .channel #v[12, 31, 0, 0, 0, 0, 0, 0]).isSome ∧
        (decodeEntry .channel #v[14, 255, 0, 0, 0, 0, 0, 0]).isSome ∧ decodeEntry .channel #v[15, 0, 0, 0, 0, 0, 0, 0] = none) ∧
      ((decodeEntry .user #v[11, 0, 0, 0, 0, 0, 0, 0]).isSome ∧ decodeEntry .user #v[12, 0, 0, 0, 0, 0, 0, 0] = none) ∧
      ((decodeEntry .manager #v[62, 0, 0, 0, 0, 0, 0, 0]).isSome ∧ decodeEntry .manager #v[63, 0, 0, 0, 0, 0, 0, 0] = none ∧
        (decodeEntry .manager #v[255, 0, 0, 0, 0, 0, 0, 0]).isSome) ∧
      ((decodeEntry .parameters #v[1, 1, 255, 4, 1, 255, 15, 0]).isSome ∧
        decodeEntry .parameters #v[0, 1, 1, 5, 0, 0, 1, 0] = none ∧ decodeEntry .parameters #v[0, 1, 1, 1, 0, 8, 1, 0] = none ∧
        decodeEntry .parameters #v[0, 1, 1, 1, 0, 0, 16, 0] = none) := by decide

theorem witness_EditRequests :
    (otherEdits.executes 0 9 ∧ ∃ x, otherEdits.mgmt.session = some x ∧ x.owner ≠ 0 ∧ x.state = .opened 3000) ∧
    (tap.executes 0 9 ∧ tap.mgmt.session = none ∧ (editing (.opened 3000)).executes 0 9 ∧
      (∃ x, (editing (.opened 3000)).mgmt.session = some x ∧ (∃ d, x.state = .opened d) ∧ x.owner = 0) ∧
      ∃ x, (editing (.commitPending none)).mgmt.session = some x ∧ ∀ d, x.state ≠ .opened d) ∧
    (∃ x, (editing (.opened 3000)).mgmt.session = some x ∧ x.owner = 0 ∧ x.state = .opened 3000) ∧
      (11#8).toNat < Table.channel.entries ∧ decodeEntry .channel #v[10, 0, 0, 0, 0, 0, 0, 0] = some (.channel .tables) ∧
      decodeEntry .channel #v[15, 0, 0, 0, 0, 0, 0, 0] = none ∧ Table.channel.entries ≤ (12#8).toNat ∧
      6 ≤ (6#8).toNat ∧ ((20 : Nat) < Table.user.entries ∧ (11 : Nat) < (Entry.channel .none).table.entries) ∧
      ∃ x e, (editing (.commitPending none)).mgmt.session = some x ∧ x.owner = 0 ∧ x.state = .commitPending e :=
  ⟨otherEdits_executes 9, ⟨tap_executes 9, rfl, editing_executes _ 9, ⟨_, rfl, ⟨3000, rfl⟩, rfl⟩, _, rfl, fun _ h => by cases h⟩,
    ⟨_, rfl, rfl, rfl⟩, by decide, by decide, by decide, by decide, by decide, by decide, _, none, rfl, rfl, rfl⟩

theorem witness_CommitRequest :
    (otherEdits.executes 0 9 ∧ ∃ x, otherEdits.mgmt.session = some x ∧ x.owner ≠ 0 ∧ x.state = .opened 3000) ∧
    (editing (.opened 3000)).executes 0 9 ∧
      (∃ x, (editing (.opened 3000)).mgmt.session = some x ∧ x.owner = 0 ∧ x.state = .opened 3000 ∧
        x.staged.firstInvalid = none) ∧
      (editing (.opened 3000)).trk.lastEpoch ≠ some 4 ∧ (inTrain .roll).trk.lastEpoch = some 3 ∧
      ({ TableSet.empty with managers := Vector.replicate 4 none } : TableSet).firstInvalid = some ⟨.manager, 0, 4⟩ ∧
      2 ≤ (2#8).toNat ∧ (1#8).toNat ≤ 1 ∧ tap.mgmt.session = none ∧
      (∃ x m, (editing (.commitPending (some 4))).mgmt.session = some x ∧ x.owner = 0 ∧ x.state = .commitPending m) :=
  ⟨otherEdits_executes 9, editing_executes _ 9, ⟨_, rfl, rfl, rfl, by decide +kernel⟩, by decide, by decide, by decide +kernel, by decide, by decide,
    rfl, _, _, rfl, rfl, rfl⟩

/-- A table set sound but for the entries given. -/
def sound : TableSet := { TableSet.empty with
  subs := Vector.replicate 32 ⟨false, 0, 0, 1, 0, 0, 0, 1⟩, pubs := Vector.replicate 16 ⟨false, 0, 0, 1, 0, 0, .continuous⟩ }

theorem witness_CommitValidation :
    ((∀ i : Fin 32, 1 ≤ sound.subs[i].count.val ∧ sound.subs[i].first.val + sound.subs[i].count.val ≤ 4 ∧
        sound.subs[i].ageLimit ≠ 0 ∧ sound.subs[i].ageLimit ≠ 255) ∧
      (∀ i : Fin 16, 1 ≤ sound.pubs[i].count.val ∧ sound.pubs[i].first.val + sound.pubs[i].count.val ≤ 4) ∧
      sound.firstInvalid = none) ∧
    (({ sound with subs := upd sound.subs 31 ⟨true, 0, 0, 2, 0, 0, 15, 1⟩ } : TableSet).firstInvalid = some ⟨.subscription, 31, 1⟩ ∧
      ({ sound with subs := upd (upd sound.subs 30 ⟨true, 0, 0, 1, 0, 0, 15, 1⟩) 31 ⟨true, 9, 3, 1, 0, 0, 15, 1⟩ } :
        TableSet).firstInvalid = some ⟨.subscription, 31, 2⟩ ∧
      ({ sound with pubs := upd sound.pubs 15 ⟨true, 0, 0, 2, 0, 15, .onPost⟩ } : TableSet).firstInvalid = some ⟨.publish, 15, 1⟩ ∧
      ({ sound with pubs := upd (upd sound.pubs 0 ⟨true, 63, 2, 2, 0, 0, .onPost⟩) 15 ⟨true, 63, 3, 1, 0, 2, .onPost⟩ } :
        TableSet).firstInvalid = some ⟨.publish, 15, 2⟩ ∧
      ({ sound with users := sound.users.set 7 (some 0), channels := sound.channels.set 11 (.triggerIn 7) } :
        TableSet).firstInvalid = some ⟨.user, 7, 3⟩) := by decide +kernel

theorem witness_SessionEnds :
    (otherEdits.executes 0 9 ∧ ∃ x, otherEdits.mgmt.session = some x ∧ x.owner ≠ 0 ∧ x.state = .opened 3000) ∧
    (editing (.opened 3000)).executes 0 9 ∧ tap.executes 0 9 ∧ tap.mgmt.session = none ∧
      (∃ x, (editing (.opened 3000)).mgmt.session = some x ∧ x.owner = 0 ∧ x.state = .opened 3000) ∧
      ∀ e : Option Byte, (editing (.commitPending e)).executes 0 9 ∧
        ∃ x, (editing (.commitPending e)).mgmt.session = some x ∧ x.state = .commitPending e :=
  ⟨otherEdits_executes 9, editing_executes _ 9, tap_executes 9, rfl, ⟨_, rfl, rfl, rfl⟩, fun _ => ⟨editing_executes _ 9, _, rfl, rfl⟩⟩

theorem witness_ControlRequests :
    (((tap.executes 0 9 ∧ tap.ctl.tapState = .online) ∧
      (let s := { tap with ctl := ⟨.halted, true, true⟩ }
      s.executes 0 9 ∧ s.ctl.tapState = .halted) ∧
      (let s := { tap with ctl := ⟨.unconfigured, false, false⟩ }
      s.executes 0 9 ∧ s.ctl.tapState = .unconfigured)) ∧
    (tap.executes 0 9 ∧ (tap.unit .w).returnReady = false ∧
      (let s := withW { upPort with inService := false, returnReady := true }
      s.executes 0 9 ∧ (s.unit .w).returnReady = true) ∧
      2 ≤ (2#8).toNat ∧ tap.mgmt.pendingRestart = none ∧
      ({ tap with mgmt := { tap.mgmt with pendingRestart := some ⟨0, none, false⟩ } } : State).mgmt.pendingRestart ≠ none)) :=
  ⟨(by
  refine ⟨⟨tap_executes 9, rfl⟩, ⟨⟨⟨.inr (.inr rfl), by decide⟩, ⟨0, 0, by decide, by decide⟩, fun _ h => by cases h⟩, rfl⟩,
    ⟨⟨.inl rfl, by decide⟩, ⟨0, 0, by decide, by decide⟩, fun _ h => by cases h⟩, rfl⟩),
    (by
  refine ⟨tap_executes 9, by decide, ⟨⟨⟨.inr (.inl rfl), by decide⟩, ⟨0, 0, by decide, by decide⟩, fun _ h => by cases h⟩,
    by decide⟩, by decide, by decide, by decide⟩)⟩

theorem witness_PulseAndSegmentTestRequests :
    (tap.executes 0 9 ∧ (11#8).toNat = (11 : Fin 12).val ∧ tap.mgmt.active.channels[(11 : Fin 12)] = .none ∧
      tap.sig.pulses[(11 : Fin 12)] = none ∧
      ({ tap with sig := { tap.sig with pulses := upd tap.sig.pulses 11 (some 1001) } } : State).sig.pulses[(11 : Fin 12)] ≠
        none ∧
      following.mgmt.active.channels[(1 : Fin 12)] ≠ .none ∧ 12 ≤ (12#8).toNat) ∧
    (tap.executes 0 9 ∧ 2 ≤ (2#8).toNat ∧ (3 : Byte) ≠ 0 ∧ tap.mgmt.segTest.state ≠ .running ∧ (tap.unit .w).monitor = .up ∧
      (testing .prepared).mgmt.segTest.state = .running ∧ ((withW downPort).unit .w).monitor ≠ .up) :=
  ⟨⟨tap_executes 9, by decide, by decide, by decide, by decide, by decide, by decide⟩, tap_executes 9, by decide, by decide,
    by decide, by decide, by decide, by decide⟩

/-- A closed roll that lists station 9 changes a presence at the tap; an empty one changes none. -/
theorem witness_CensusUpdateRaisesOneEvent :
    (∃ st : Fin 63, (tap.roll.census[st].update [⟨9, 1⟩] st tap.trk.lastCycle tap.mgmt.active.params.lostThreshold).presence ≠
      tap.roll.census[st].presence) ∧
      ∀ st : Fin 63, (tap.roll.census[st].update [] st tap.trk.lastCycle tap.mgmt.active.params.lostThreshold).presence =
        tap.roll.census[st].presence := ⟨⟨9, by decide⟩, by decide⟩

end Sys2Proof.Tests
end

section
/-! PROOFS. The law of service (R2): whatever a command does, a port whose monitor is not UP stays out of service. -/

namespace Sys2Proof.Machine

/-! ### What keeps the law -/

/-- The law reads the port units alone. -/
theorem State.ServiceLaw.of_ports {s t : State} (h : s.ServiceLaw) (hw : t.portW = s.portW) (he : t.portE = s.portE) :
    t.ServiceLaw := by
  intro q
  have hq := h q
  cases q <;> simpa only [State.unit, hw, he] using hq

/-- A port unit that meets the law takes the place of another. -/
theorem State.ServiceLaw.setUnit {s : State} (h : s.ServiceLaw) (p : Port) {u : PortUnit}
    (hu : u.inService = true → u.monitor = .up) : (s.setUnit p u).ServiceLaw := by
  intro q
  by_cases hq : q = p
  · subst hq
    rw [State.unit_setUnit]
    exact hu
  · rw [State.unit_setUnit_ne s p q u hq]
    exact h q

theorem State.ServiceLaw.modUnit {s : State} (h : s.ServiceLaw) (p : Port) {f : PortUnit → PortUnit}
    (hf : ∀ u : PortUnit, (u.inService = true → u.monitor = .up) → (f u).inService = true → (f u).monitor = .up) :
    (s.modUnit p f).ServiceLaw :=
  h.setUnit p (hf _ (h p))

/-- What every pass of a fold keeps, the fold keeps. -/
theorem State.ServiceLaw.foldl {γ : Type} {g : State → γ → State}
    (hg : ∀ (t : State) (x : γ), t.ServiceLaw → (g t x).ServiceLaw) (l : List γ) {s : State} (h : s.ServiceLaw) :
    (l.foldl g s).ServiceLaw := by
  induction l generalizing s with
  | nil => exact h
  | cons x l ih => exact ih (hg s x h)

theorem State.ServiceLaw.elapse {s : State} (h : s.ServiceLaw) (dt : Nat) : (s.elapse dt).ServiceLaw := h.of_ports rfl rfl

theorem State.ServiceLaw.reach {s : State} (h : s.ServiceLaw) (t : Nat) : (s.reach t).ServiceLaw := h.of_ports rfl rfl

theorem State.ServiceLaw.modTrk {s : State} (h : s.ServiceLaw) (f : Tracker → Tracker) : (s.modTrk f).ServiceLaw :=
  h.of_ports rfl rfl

theorem State.ServiceLaw.count {s : State} (h : s.ServiceLaw) (f : TapCounters → TapCounters) : (s.count f).ServiceLaw :=
  h.of_ports rfl rfl

theorem State.ServiceLaw.raise {s : State} (h : s.ServiceLaw) (x : Source) : (s.raise x).ServiceLaw := h.of_ports rfl rfl

theorem State.ServiceLaw.ringChange {s : State} (h : s.ServiceLaw) : s.ringChange.ServiceLaw := h.of_ports rfl rfl

theorem State.ServiceLaw.close {s : State} (h : s.ServiceLaw) (k : CloseKind) (l : Option (List RollEntry)) :
    (s.close k l).ServiceLaw := h.of_ports (State.close_portW s k l) (State.close_portE s k l)

/-! ### Frames on their way out -/

theorem State.ServiceLaw.depart {s : State} (h : s.ServiceLaw) (p : Port) (x : HeldFrame) : (s.depart p x).ServiceLaw := by
  unfold State.depart
  dsimp only
  split <;> exact h.of_ports rfl rfl

theorem State.ServiceLaw.sendOut {s : State} (h : s.ServiceLaw) (p : Port) (x : HeldFrame) : (s.sendOut p x).ServiceLaw := by
  unfold State.sendOut
  split
  · exact h.modUnit p fun _ k => by exact k
  · exact h.depart p x

theorem State.ServiceLaw.flushElastic {s : State} (h : s.ServiceLaw) (p : Port) : (s.flushElastic p).ServiceLaw :=
  (State.ServiceLaw.foldl (fun _ x k => k.depart p x) _ h).modUnit p fun _ k => by exact k

/-- The end of a frame that ends early. -/
theorem State.ServiceLaw.endPartial {s : State} (h : s.ServiceLaw) (p : Port) : (s.endPartial p).ServiceLaw := by
  unfold State.endPartial
  split
  · exact h
  · have k : ∀ f : PortCounters → PortCounters,
        (s.modUnit p fun u => { u.count f with arriving := none }).ServiceLaw := fun f => h.modUnit p fun _ k => by exact k
    dsimp only
    split
    · split
      · exact (k _).sendOut _ _
      · exact ((k _).sendOut _ _).count _
    · exact k _

theorem State.ServiceLaw.cutFrom {s : State} (h : s.ServiceLaw) (p q : Port) : (State.cutFrom p s q).ServiceLaw := by
  unfold State.cutFrom State.countPublishLost
  dsimp only
  split
  · exact h
  · split
    · refine State.ServiceLaw.modUnit ?_ q fun _ k => by exact k
      repeat' split
      all_goals exact h.of_ports rfl rfl
    · exact h

theorem State.ServiceLaw.loseHeld {s : State} (h : s.ServiceLaw) (x : HeldFrame) : (s.loseHeld x).ServiceLaw := by
  unfold State.loseHeld
  split
  · exact h.count _
  · exact h

theorem State.ServiceLaw.cutOutputs {s : State} (h : s.ServiceLaw) (p : Port) : (s.cutOutputs p).ServiceLaw := by
  have h1 : (bothPorts.foldl (State.cutFrom p) s).ServiceLaw := State.ServiceLaw.foldl (fun _ q k => k.cutFrom p q) _ h
  have h2 : ∀ l : List HeldFrame, (l.foldl State.loseHeld (bothPorts.foldl (State.cutFrom p) s)).ServiceLaw :=
    fun l => State.ServiceLaw.foldl (fun _ x k => k.loseHeld x) l h1
  unfold State.cutOutputs
  refine State.ServiceLaw.modUnit ?_ p fun _ k => by exact k
  split
  · exact (h2 _).of_ports rfl rfl
  · exact h2 _

/-! ### The monitor and the lane switch -/

theorem State.ServiceLaw.abortTest {s : State} (h : s.ServiceLaw) (p : Port) : (s.abortTest p).ServiceLaw := by
  unfold State.abortTest
  split <;> exact h.of_ports rfl rfl

theorem State.ServiceLaw.endTrainAt {s : State} (h : s.ServiceLaw) (p : Port) : (s.endTrainAt p).ServiceLaw := by
  unfold State.endTrainAt
  split
  · split
    · exact h.close _ _
    · exact h
  · split
    · exact h.of_ports rfl rfl
    · exact h
  · exact h

/-- A port that leaves service meets the law, whatever its monitor; the other port is as it was. -/
theorem State.serviceLaw_leaveService (s : State) (p : Port)
    (h : (s.unit p.other).inService = true → (s.unit p.other).monitor = .up) : (s.leaveService p).ServiceLaw := by
  intro q
  by_cases hq : q = p
  · subst hq
    simp [State.leaveService_unit]
  · obtain rfl : q = p.other := by cases p <;> cases q <;> simp_all [Port.other]
    rw [State.leaveService_other]
    exact h

/-- The monitor leaves UP, and the port leaves service with it. -/
theorem State.ServiceLaw.leaveUp {s : State} (h : s.ServiceLaw) (p : Port) (c : DownCause) : (s.leaveUp p c).ServiceLaw := by
  unfold State.leaveUp
  refine State.ServiceLaw.endTrainAt (State.ServiceLaw.abortTest (State.ServiceLaw.cutOutputs ?_ p) p) p
  refine State.serviceLaw_leaveService _ p ?_
  rw [State.ringChange_unit, State.unit_modUnit_other]
  exact h.endPartial p p.other

theorem State.ServiceLaw.goDown {s : State} (h : s.ServiceLaw) (p : Port) (c : DownCause) : (s.goDown p c).ServiceLaw := by
  unfold State.goDown
  split
  · exact h.leaveUp p c
  · rename_i hm
    refine h.setUnit p fun hs => ?_
    have hup := h p hs
    rw [hm] at hup
    cases hup
  · exact h

theorem State.ServiceLaw.windowAdd {s : State} (h : s.ServiceLaw) (p : Port) (error : Bool) :
    (s.windowAdd p error).ServiceLaw := by
  have k : ∀ w : List Bool, (s.modUnit p fun u => { u with window := w }).ServiceLaw := fun w => h.modUnit p fun _ k => by exact k
  unfold State.windowAdd
  dsimp only
  repeat' split
  · exact (k _).leaveUp _ _
  · exact k _
  · exact h

theorem State.ServiceLaw.refit {s : State} (h : s.ServiceLaw) (p : Port) : (s.refit p).ServiceLaw := by
  unfold State.refit
  dsimp only
  repeat' split
  · exact State.ServiceLaw.ringChange (h.setUnit p (h p))
  · exact h
  · exact h.setUnit p (h p)

theorem State.ServiceLaw.enterUp {s : State} (h : s.ServiceLaw) (p : Port) : (s.enterUp p).ServiceLaw := by
  unfold State.enterUp
  exact ((h.modUnit p fun _ _ _ => rfl).ringChange).refit p

theorem State.ServiceLaw.tryQualify {s : State} (h : s.ServiceLaw) (p : Port) : (s.tryQualify p).ServiceLaw := by
  refine h.modUnit p fun u k => ?_
  unfold PortUnit.tryQualify
  split
  · rename_i hq
    intro hs
    have hup := k hs
    rw [hq.1] at hup
    cases hup
  · exact k

theorem State.ServiceLaw.newPolicy {s : State} (h : s.ServiceLaw) (old : ReturnPolicy) (p : Port) :
    (State.newPolicy old s p).ServiceLaw := by
  unfold State.newPolicy
  split
  · exact h.modUnit p fun _ k => by exact k
  · split
    · exact h.refit p
    · exact h

theorem State.ServiceLaw.newQualification {s : State} (h : s.ServiceLaw) (p : Port) : (s.newQualification p).ServiceLaw := by
  unfold State.newQualification
  split
  · split
    · exact h.enterUp p
    · exact h
  · exact h

theorem State.ServiceLaw.activatePorts {s : State} (h : s.ServiceLaw) (old : ReturnPolicy) :
    (s.activatePorts old).ServiceLaw :=
  State.ServiceLaw.foldl (fun _ p k => k.newQualification p) _ (State.ServiceLaw.foldl (fun _ p k => k.newPolicy old p) _ h)

/-! ### The commands of the port units -/

theorem State.ServiceLaw.lockLost {s : State} (h : s.ServiceLaw) (p : Port) : (s.lockLost p).ServiceLaw := by
  unfold State.lockLost
  exact (((h.modUnit p fun _ k => by exact k).endPartial p).goDown p .loss).refit p

theorem State.ServiceLaw.lockGained {s : State} (h : s.ServiceLaw) (p : Port) : (s.lockGained p).ServiceLaw := by
  unfold State.lockGained
  exact (h.modUnit p fun _ k => by exact k).tryQualify p

theorem State.ServiceLaw.farEnd {s : State} (h : s.ServiceLaw) (p : Port) (sig : FarSignal) : (s.farEnd p sig).ServiceLaw := by
  have k : (s.modUnit p fun u => { u with farEnd := some sig }).ServiceLaw := h.modUnit p fun _ k => by exact k
  unfold State.farEnd
  split
  · refine State.ServiceLaw.refit ?_ p
    split
    · exact k.goDown p .remote
    · exact k.tryQualify p
  · exact h

theorem State.ServiceLaw.downHoldExpiry {s : State} (h : s.ServiceLaw) (p : Port) : (s.downHoldExpiry p).ServiceLaw := by
  unfold State.downHoldExpiry
  split
  · exact ((h.reach _).modUnit p fun _ k => by exact k).tryQualify p
  · exact h

theorem State.ServiceLaw.qualificationComplete {s : State} (h : s.ServiceLaw) (p : Port) :
    (s.qualificationComplete p).ServiceLaw := by
  unfold State.qualificationComplete
  split
  · exact (h.reach _).enterUp p
  · exact h

/-- Only a fit port, whose monitor is UP, returns to service (R141). -/
theorem State.ServiceLaw.returnService {s : State} (h : s.ServiceLaw) (p : Port) (hd : s.dueToReturn p = true) :
    (s.returnService p).ServiceLaw := by
  have hup : (s.unit p).monitor = .up := by
    simp only [State.dueToReturn, PortUnit.fit, Bool.and_eq_true, decide_eq_true_eq] at hd
    exact hd.1.1.1
  unfold State.returnService
  exact (h.setUnit p (fun _ => by exact hup)).ringChange

theorem State.ServiceLaw.echoStart {s : State} (h : s.ServiceLaw) (p : Port) : (s.echoStart p).ServiceLaw := by
  unfold State.echoStart
  split
  · exact h.modUnit p fun _ k => by exact k
  · split
    · exact (h.modUnit p fun _ k => by exact k).of_ports rfl rfl
    · exact h

theorem State.ServiceLaw.echoSent {s : State} (h : s.ServiceLaw) (p : Port) (f : EchoFrame) : (s.echoSent p f).ServiceLaw := by
  have k : (s.emit p (.whole (.echo f) (Frame.check (.echo f)))).ServiceLaw := h.of_ports rfl rfl
  unfold State.echoSent
  exact (k.modUnit p fun _ k => by exact k).flushElastic p

theorem State.ServiceLaw.replySent {s : State} (h : s.ServiceLaw) (p : Port) : (s.replySent p).ServiceLaw := by
  unfold State.replySent
  split
  · exact (h.echoSent p _).modUnit p fun _ k => by exact k
  · exact h

theorem State.ServiceLaw.requestSent {s : State} (h : s.ServiceLaw) (p : Port) : (s.requestSent p).ServiceLaw := by
  unfold State.requestSent
  split
  · exact (h.echoSent p _).of_ports rfl rfl
  · exact h

theorem State.ServiceLaw.echoWaitExpiry {s : State} (h : s.ServiceLaw) : s.echoWaitExpiry.ServiceLaw := by
  unfold State.echoWaitExpiry
  dsimp only
  split
  · exact h.of_ports rfl rfl
  · exact h

/-! ### The tracker -/

theorem State.ServiceLaw.badFrame {s : State} (h : s.ServiceLaw) : s.badFrame.ServiceLaw := by
  have k : s.orderDefect.ServiceLaw := h.modTrk _
  unfold State.badFrame
  dsimp only
  split
  · exact k.modTrk _
  · exact k.modTrk _
  · exact k.close _ _
  · exact k
  · exact k

theorem State.ServiceLaw.armGap {s : State} (h : s.ServiceLaw) (p : Port) : (s.armGap p).ServiceLaw := by
  unfold State.armGap
  split
  · exact h.modTrk _
  · exact h

theorem State.ServiceLaw.stopGap {s : State} (h : s.ServiceLaw) (p : Port) : (s.stopGap p).ServiceLaw := by
  unfold State.stopGap
  split
  · exact h.modTrk _
  · exact h

theorem State.ServiceLaw.setTapState {s : State} (h : s.ServiceLaw) (t : TapState) : (s.setTapState t).ServiceLaw :=
  h.of_ports (State.setTapState_portW s t) (State.setTapState_portE s t)

theorem State.activateTapState_portW (s : State) : s.activateTapState.portW = s.portW := by
  unfold State.activateTapState
  split <;> simp

theorem State.activateTapState_portE (s : State) : s.activateTapState.portE = s.portE := by
  unfold State.activateTapState
  split <;> simp

theorem State.changeover_portW (s : State) (old : TableSet) : (s.changeover old).portW = s.portW := rfl

theorem State.changeover_portE (s : State) (old : TableSet) : (s.changeover old).portE = s.portE := rfl

/-- An activation moves the ports only as their new parameters say. -/
theorem State.ServiceLaw.activate {s : State} (h : s.ServiceLaw) (x : Session) : (s.activate x).ServiceLaw := by
  unfold State.activate
  refine State.ServiceLaw.activatePorts ?_ _
  refine h.of_ports ?_ ?_
  · simp only [State.raise_portW, State.setSticky_portW, State.changeover_portW, State.activateTapState_portW]
  · simp only [State.raise_portE, State.setSticky_portE, State.changeover_portE, State.activateTapState_portE]

theorem State.ServiceLaw.activateDue {s : State} (h : s.ServiceLaw) (epoch : Byte) : (s.activateDue epoch).ServiceLaw := by
  unfold State.activateDue
  split
  · exact h.activate _
  · exact h

theorem State.ServiceLaw.publishHeader {s : State} (h : s.ServiceLaw) : s.publishHeader.ServiceLaw := by
  have swap : ∀ t : State, t.ServiceLaw →
      ((List.finRange 4).foldl (fun t p => if s.swaps p then t.raise (.postTaken p) else t) t).ServiceLaw := fun t k =>
    State.ServiceLaw.foldl (fun t p k => by split; exacts [k.raise _, k]) _ k
  unfold State.publishHeader
  split
  iterate 3 exact swap _ (h.of_ports rfl rfl)
  iterate 2 exact h

theorem State.ServiceLaw.firstPass {s : State} (h : s.ServiceLaw) (p : Port) (f : HeaderFrame) : (s.firstPass p f).ServiceLaw := by
  unfold State.firstPass
  refine State.ServiceLaw.armGap (State.ServiceLaw.modTrk (State.ServiceLaw.raise ?_ _) _) p
  refine State.ServiceLaw.of_ports ?_ (State.schedulerHeader_portW _ f) (State.schedulerHeader_portE _ f)
  refine State.ServiceLaw.of_ports (State.ServiceLaw.publishHeader (State.ServiceLaw.activateDue ?_ f.epoch)) rfl rfl
  split <;> exact h.of_ports rfl rfl

theorem State.ServiceLaw.takeHeader {s : State} (h : s.ServiceLaw) (p : Port) (f : HeaderFrame) :
    (s.takeHeader p f).ServiceLaw := by
  unfold State.takeHeader State.beginPassing
  split
  · exact h.firstPass p f
  · exact (h.modTrk _).armGap p

theorem State.ServiceLaw.trackHeader {s : State} (h : s.ServiceLaw) (p : Port) (f : HeaderFrame) (check : Check) :
    (s.trackHeader p f check).ServiceLaw := by
  unfold State.trackHeader
  split
  · split
    · split
      · exact (h.close _ _).takeHeader p f
      · split
        · exact (h.close _ _).firstPass p f
        · exact h
    · split
      · exact h.badFrame.armGap p
      · exact h
  · split
    · exact h.takeHeader p f
    · exact h
  · split
    · exact h.takeHeader p f
    · exact h.armGap p

theorem State.ServiceLaw.gapTimerExpiry {s : State} (h : s.ServiceLaw) : s.gapTimerExpiry.ServiceLaw := by
  unfold State.gapTimerExpiry
  dsimp only
  split
  · split
    · exact (h.reach _).close _ _
    · exact h.of_ports rfl rfl
    · exact h.of_ports rfl rfl
  · exact h

theorem State.ServiceLaw.enterSilent {s : State} (h : s.ServiceLaw) : s.enterSilent.ServiceLaw := h.of_ports rfl rfl

theorem State.ServiceLaw.missedClose {s : State} (h : s.ServiceLaw) : s.missedClose.ServiceLaw := by
  unfold State.missedClose
  dsimp only
  split
  · exact ((h.close _ _).modTrk _).enterSilent
  · exact (h.close _ _).modTrk _

theorem State.ServiceLaw.rearmTrain {s : State} (h : s.ServiceLaw) : s.rearmTrain.ServiceLaw := h.modTrk _

theorem State.ServiceLaw.trainTimerExpiry {s : State} (h : s.ServiceLaw) : s.trainTimerExpiry.ServiceLaw := by
  unfold State.trainTimerExpiry
  dsimp only
  split
  · rename_i t _
    have k : (s.reach t).missedClose.rearmTrain.ServiceLaw := (h.reach t).missedClose.rearmTrain
    split
    · exact (h.reach t).rearmTrain
    · exact k
    · exact k
  · exact h

end Sys2Proof.Machine
end

section
/-! PROOFS. Ports out of service (R2): the requests, the local port and the frames keep the law. -/

namespace Sys2Proof.Machine

/-! ### Requests -/

theorem State.ServiceLaw.clearGroup {s : State} (h : s.ServiceLaw) (g : Group) : (s.clearGroup g).ServiceLaw := by
  cases g with
  | port p => exact h.modUnit p fun _ k => by exact k
  | train => exact h.count _
  | ring => exact h.count _
  | image => exact h.count _
  | message => exact h.count _

theorem State.ServiceLaw.pulse {s : State} (h : s.ServiceLaw) (c : Fin 12) : (s.pulse c).ServiceLaw := by
  unfold State.pulse
  dsimp only
  split <;> exact h.of_ports rfl rfl

/-- Of the requests RETURN WRAP and CLEAR COUNTERS alone move a port unit, and neither its monitor nor its service. -/
theorem State.ServiceLaw.runRequest {s : State} (h : s.ServiceLaw) (r : Request) (src : Station) :
    (runRequest r src s).state.ServiceLaw := by
  have halted : ∀ (x : Bool) (t : TapState), ((s.setCommandCause x).setTapState t).ServiceLaw := fun x t =>
    State.ServiceLaw.setTapState (by exact h.of_ports rfl rfl) t
  have accepted : ∀ p, (s.modUnit p fun u => { u with returnAccepted := true }).ServiceLaw := fun p =>
    h.modUnit p fun _ k => by exact k
  cases r
  all_goals
    simp only [Machine.runRequest, runIdentify, runReadStatus, runReadCounters, runClearCounters, runReadCensus,
      runReadSubscriptionState, runReadEntry, runOpenEdit, runStageEntry, runClearStaged, runCommit, runAbandonEdit,
      runQueryEdit, runHalt, runResume, runReturnWrap, runPulse, runRestart, runSegmentTestStart, runSegmentTestResult]
  all_goals (repeat' split)
  all_goals first
    | exact h.of_ports rfl rfl
    | exact halted _ _
    | exact accepted _
    | exact h.clearGroup _
    | exact h.pulse _

theorem State.ServiceLaw.touchSession {s : State} (h : s.ServiceLaw) (src : Station) : (s.touchSession src).ServiceLaw := by
  unfold State.touchSession
  repeat' split
  all_goals exact h.of_ports rfl rfl

theorem State.serviceLaw_executeRequest {s : State} (src : Station) (tag code : Byte) {run : State → Reply}
    (hr : (run s).state.ServiceLaw) : (s.executeRequest src tag code run).ServiceLaw := by
  unfold State.executeRequest State.remember State.respond
  dsimp only
  exact hr.of_ports (by simp only [State.modMgmt_portW]) (by simp only [State.modMgmt_portE])

/-- A request taken, whichever way it is answered (R106 to R108). -/
theorem State.ServiceLaw.takeRequest {s : State} (h : s.ServiceLaw) (src : Station) (tag code : Byte) {run : State → Reply}
    (hr : ∀ t : State, t.ServiceLaw → (run t).state.ServiceLaw) : (s.takeRequest src tag code run).ServiceLaw := by
  have k := h.touchSession src
  unfold State.takeRequest
  dsimp only
  split
  · split
    · split
      · exact k.of_ports rfl rfl
      · exact State.serviceLaw_executeRequest src tag code (hr _ k)
    · exact State.serviceLaw_executeRequest src tag code (hr _ k)
  · exact k.of_ports rfl rfl

theorem State.ServiceLaw.deliver {s : State} (h : s.ServiceLaw) (src : Station) (tag code : Byte) {run : State → Reply}
    (hr : ∀ t : State, t.ServiceLaw → (run t).state.ServiceLaw) : (s.deliver src tag code run).ServiceLaw := by
  unfold State.deliver
  split
  · split
    · exact h.takeRequest src tag code hr
    · exact h.count _
  · exact h

theorem State.ServiceLaw.takePayload {s : State} (h : s.ServiceLaw) (src : Station) (tag : Byte) (payload : List Byte) :
    (s.takePayload src tag payload).ServiceLaw := by
  unfold State.takePayload
  split
  · exact h.takeRequest src tag _ fun _ k => k.runRequest _ src
  · exact h.takeRequest src tag _ fun _ k => k

/-! ### Containers: the steps move no port unit but by a request -/

theorem State.ServiceLaw.outcomeStep {s : State} (h : s.ServiceLaw) (i : Fin 8) (f : ContainerFrame) :
    (s.outcomeStep i f).state.ServiceLaw := by
  unfold State.outcomeStep
  dsimp only
  repeat' split
  all_goals exact h.of_ports rfl rfl

theorem State.ServiceLaw.stripStep {s : State} (h : s.ServiceLaw) (f : ContainerFrame) : (s.stripStep f).state.ServiceLaw := by
  unfold State.stripStep
  split <;> exact h.of_ports rfl rfl

theorem State.ServiceLaw.deliveryStep {s : State} (h : s.ServiceLaw) (f : ContainerFrame) :
    (s.deliveryStep f).state.ServiceLaw := by
  unfold State.deliveryStep
  split
  · split
    · split
      · exact h.takePayload _ _ _
      · exact h.count _
    · split
      · split <;> exact h.of_ports rfl rfl
      · exact h.count _
  · exact h

theorem State.ServiceLaw.broadcastStep {s : State} (h : s.ServiceLaw) (f : ContainerFrame) : (s.broadcastStep f).ServiceLaw := by
  unfold State.broadcastStep
  repeat' split
  all_goals exact h.of_ports rfl rfl

theorem State.ServiceLaw.fillStep {s : State} (h : s.ServiceLaw) (t : TapState) (took : Bool) (i : Fin 8) (f : ContainerFrame) :
    (s.fillStep t took i f).1.ServiceLaw := by
  unfold State.fillStep
  repeat' split
  all_goals exact h.of_ports rfl rfl

theorem State.ServiceLaw.containerSteps {s : State} (h : s.ServiceLaw) (t : TapState) (i : Fin 8) (f : ContainerFrame) :
    (s.containerSteps t i f).state.ServiceLaw := by
  have k := (((h.outcomeStep i f).stripStep (s.outcomeStep i f).frame).deliveryStep
    ((s.outcomeStep i f).state.stripStep (s.outcomeStep i f).frame).frame).broadcastStep
    (((s.outcomeStep i f).state.stripStep (s.outcomeStep i f).frame).state.deliveryStep
      ((s.outcomeStep i f).state.stripStep (s.outcomeStep i f).frame).frame).frame
  unfold State.containerSteps
  dsimp only
  split
  · exact k
  · exact k.fillStep _ _ _ _

theorem State.ServiceLaw.actOnContainer {s : State} (h : s.ServiceLaw) (f : ContainerFrame) :
    (s.actOnContainer f).state.ServiceLaw := by
  unfold State.actOnContainer
  split
  · exact h.count _
  · split
    · exact h.containerSteps _ _ _
    · exact h

/-! ### A frame from its beginning to its end -/

theorem State.ServiceLaw.beginArrival {s : State} (h : s.ServiceLaw) (p : Port) (lead : Lead) :
    (s.beginArrival p lead).ServiceLaw := by
  have k : (s.modUnit p fun u => { u with arriving := some (s.arrivalOf p lead), discard := s.discardAfter p lead }).ServiceLaw :=
    h.modUnit p fun _ k => by exact k
  unfold State.beginArrival
  dsimp only
  split
  · exact k.stopGap p
  · exact k

theorem State.ServiceLaw.frameBegins {s : State} (h : s.ServiceLaw) (p : Port) (lead : Lead) :
    (s.frameBegins p lead).ServiceLaw := by
  unfold State.frameBegins
  split
  · exact h
  · split
    · exact h.beginArrival p _
    · split
      · exact h.modUnit p fun _ k => by exact k
      · exact h

theorem State.ServiceLaw.arrived {s : State} (h : s.ServiceLaw) (p : Port) (lead : Lead) : (s.arrived p lead).1.ServiceLaw := by
  unfold State.arrived
  split
  · split
    · exact h
    · exact h.beginArrival p lead
  · exact h.beginArrival p lead

theorem State.ServiceLaw.countFrame {s : State} (h : s.ServiceLaw) (p : Port) (a : Arriving) (check : Check) :
    (s.countFrame p a check).ServiceLaw := by
  have k : (s.countPort p fun c => c.received check (decide (a.lead = .unknown))).ServiceLaw :=
    h.modUnit p fun _ k => by exact k
  unfold State.countFrame
  dsimp only
  split
  · exact k.count _
  · exact k

theorem State.ServiceLaw.countLost {s : State} (h : s.ServiceLaw) (a : Arriving) (check : Check) :
    (s.countLost a check).ServiceLaw := by
  unfold State.countLost
  split
  · exact h.count _
  · exact h

theorem State.ServiceLaw.forward {s : State} (h : s.ServiceLaw) (a : Arriving) (x : SentContent) (w r : Bool) :
    (s.forward a x w r).ServiceLaw := by
  unfold State.forward
  split
  · exact h.sendOut _ _
  · exact h

/-- The end of a frame keeps the law where the frame's own effect does. -/
theorem State.ServiceLaw.receive {s : State} (h : s.ServiceLaw) (p : Port) (f : Frame) (fcs : Option Fcs)
    {act : Arriving → Check → State → Passed} (ha : ∀ a c (t : State), t.ServiceLaw → (act a c t).state.ServiceLaw) :
    (s.receive p f fcs act).ServiceLaw := by
  unfold State.receive
  split
  · exact h.of_ports rfl rfl
  · refine State.ServiceLaw.windowAdd (State.ServiceLaw.forward (State.ServiceLaw.countLost (ha _ _ _ ?_) _ _) _ _ _ _) p _
    refine State.ServiceLaw.countFrame (State.ServiceLaw.modUnit (h.arrived p f.lead) p ?_) p _ _
    exact fun _ k => k

theorem State.ServiceLaw.passHeader {s : State} (h : s.ServiceLaw) (p : Port) (f : HeaderFrame) (a : Arriving) (c : Check) :
    (passHeader p f a c s).state.ServiceLaw := by
  unfold Machine.passHeader
  dsimp only
  split
  · exact h.trackHeader p f c
  · exact h

theorem State.ServiceLaw.goodBlock {s : State} (h : s.ServiceLaw) (f : BlockFrame) (capture : Bool) :
    (s.goodBlock f capture).ServiceLaw := by
  have k : (if capture then s.captureBlock f else s).ServiceLaw := by
    split
    · exact h.of_ports (State.captureBlock_portW s f) (State.captureBlock_portE s f)
    · exact h
  unfold State.goodBlock
  dsimp only
  split
  · split
    · exact k.modTrk _
    · split
      · exact h.of_ports rfl rfl
      · exact h.modTrk _
  · exact h.modTrk _
  · exact h.modTrk _
  · exact h
  · exact h

theorem State.ServiceLaw.passBlock {s : State} (h : s.ServiceLaw) (p : Port) (f : BlockFrame) (a : Arriving) (c : Check) :
    (passBlock p f a c s).state.ServiceLaw := by
  unfold Machine.passBlock State.trackBlock
  dsimp only
  split
  · split
    · refine State.ServiceLaw.armGap ?_ p
      split
      · exact h.goodBlock _ _
      · exact h.badFrame
    · exact h.armGap p
  · exact h

theorem State.ServiceLaw.goodContainer {s : State} (h : s.ServiceLaw) (f : ContainerFrame) :
    (s.goodContainer f).state.ServiceLaw := by
  unfold State.goodContainer
  dsimp only
  split
  · exact h
  · exact h
  · split
    · exact (h.actOnContainer f).modTrk _
    · split <;> exact h.of_ports rfl rfl

theorem State.ServiceLaw.passContainer {s : State} (h : s.ServiceLaw) (p : Port) (f : ContainerFrame) (a : Arriving) (c : Check) :
    (passContainer p f a c s).state.ServiceLaw := by
  unfold Machine.passContainer State.trackContainer
  dsimp only
  split
  · split
    · split
      · exact (h.goodContainer f).armGap p
      · exact h.badFrame.armGap p
    · exact h.armGap p
  · exact h

theorem State.ServiceLaw.rollEffect {s : State} (h : s.ServiceLaw) (d : RollDecision) (f : RollFrame) :
    (s.rollEffect d f).ServiceLaw := by
  cases d with
  | nothing => exact h
  | duplicate => exact h.of_ports (State.enterFaulted_portW s) (State.enterFaulted_portE s)
  | overflow => exact h.count _
  | ownAppend => exact h.of_ports rfl rfl
  | anonymousAppend => exact h.of_ports rfl rfl

theorem State.ServiceLaw.takeRoll {s : State} (h : s.ServiceLaw) (x : Option RollSample) (f : RollFrame) (c : Check) :
    (s.takeRoll x f c).1.ServiceLaw := by
  unfold State.takeRoll
  split
  · exact h
  · split
    · exact h
    · dsimp only
      split
      · exact h.rollEffect _ f
      · exact h

theorem State.ServiceLaw.endAtRoll {s : State} (h : s.ServiceLaw) (p : Port) (f : RollFrame) (c : Check) :
    (s.endAtRoll p f c).ServiceLaw := by
  unfold State.endAtRoll State.endTrain
  split
  · split
    · split
      · exact h.close _ _
      · exact h.close _ _
    · exact h
  · split
    · exact h.of_ports rfl rfl
    · exact h
  · exact h

theorem State.ServiceLaw.passRoll {s : State} (h : s.ServiceLaw) (p : Port) (f : RollFrame) (a : Arriving) (c : Check) :
    (passRoll p f a c s).state.ServiceLaw := by
  unfold Machine.passRoll State.trackRoll
  dsimp only
  split
  · exact (h.takeRoll _ f c).endAtRoll p f c
  · exact h

theorem State.ServiceLaw.passEcho {s : State} (h : s.ServiceLaw) (p : Port) (f : EchoFrame) (a : Arriving) (c : Check) :
    (passEcho p f a c s).state.ServiceLaw := by
  have judged : (s.judgeReply p f c).ServiceLaw := by
    unfold State.judgeReply
    dsimp only
    repeat' split
    all_goals exact h.of_ports rfl rfl
  unfold Machine.passEcho State.receiveEcho
  dsimp only
  split
  · split
    · split
      · exact h.modUnit p fun _ k => by exact k
      · exact h
    · split
      · exact judged
      · exact h
  · exact h

theorem State.ServiceLaw.passUnknown {s : State} (h : s.ServiceLaw) (p : Port) (f : UnknownFrame) (a : Arriving) (c : Check) :
    (passUnknown p f a c s).state.ServiceLaw := by
  unfold Machine.passUnknown State.trackUnknown
  dsimp only
  split
  · split
    · exact (h.modTrk _).armGap p
    · exact h.armGap p
  · exact h

/-! ### Pins, restarts and the local port -/

/-- A restart takes both ports out of service (R135, R149). -/
theorem State.serviceLaw_beginRestart (s : State) (kind : RestartKind) : (s.beginRestart kind).ServiceLaw := by
  intro q hq
  cases q <;> cases hq

theorem State.ServiceLaw.startHold {s : State} (h : s.ServiceLaw) (kind : RestartKind) : (s.startHold kind).ServiceLaw := by
  unfold State.startHold
  split <;> exact h.of_ports rfl rfl

theorem State.ServiceLaw.powerSettled {s : State} (h : s.ServiceLaw) : s.powerSettled.ServiceLaw := by
  unfold State.powerSettled
  split
  · exact State.ServiceLaw.startHold (by exact h.of_ports rfl rfl) _
  · exact h

theorem State.ServiceLaw.rstNLow {s : State} (h : s.ServiceLaw) : s.rstNLow.ServiceLaw := by
  unfold State.rstNLow
  split
  · exact h
  · exact State.serviceLaw_beginRestart s .pin

theorem State.ServiceLaw.rstNHigh {s : State} (h : s.ServiceLaw) : s.rstNHigh.ServiceLaw := by
  unfold State.rstNHigh
  split
  · exact State.ServiceLaw.startHold (by exact h.of_ports rfl rfl) _
  · exact h

/-- A tap that leaves bypass has both ports out of service (R135). -/
theorem State.ServiceLaw.leaveBypass {s : State} (h : s.ServiceLaw) : s.leaveBypass.ServiceLaw := by
  unfold State.leaveBypass
  refine State.ServiceLaw.setTapState (State.ServiceLaw.modUnit (h.modUnit .w ?_) .e ?_) _
  all_goals
    intro u _ hs
    cases hs

theorem State.ServiceLaw.bypassHoldExpiry {s : State} (h : s.ServiceLaw) (straps : Station) :
    (s.bypassHoldExpiry straps).ServiceLaw := by
  unfold State.bypassHoldExpiry
  split
  · dsimp only
    split
    · exact State.ServiceLaw.leaveBypass (h.of_ports rfl rfl)
    · exact h.of_ports rfl rfl
  · exact h
  · exact h

theorem State.ServiceLaw.stopRise {s : State} (h : s.ServiceLaw) : s.stopRise.ServiceLaw := by
  unfold State.stopRise
  dsimp only
  split
  · exact State.ServiceLaw.setTapState (by exact h.of_ports rfl rfl) _
  · exact h.of_ports rfl rfl

theorem State.ServiceLaw.stopFall {s : State} (h : s.ServiceLaw) : s.stopFall.ServiceLaw := by
  unfold State.stopFall
  dsimp only
  split
  · exact State.ServiceLaw.setTapState (by exact h.of_ports rfl rfl) _
  · exact h.of_ports rfl rfl

theorem State.ServiceLaw.pinChange {s : State} (h : s.ServiceLaw) (k : Fin 8) (level : Bool) : (s.pinChange k level).ServiceLaw := by
  unfold State.pinChange
  dsimp only
  repeat' split
  all_goals exact h.of_ports rfl rfl

theorem State.ServiceLaw.trigOutFall {s : State} (h : s.ServiceLaw) (k : Fin 8) : (s.trigOutFall k).ServiceLaw := by
  unfold State.trigOutFall
  dsimp only
  repeat' split
  all_goals exact h.of_ports rfl rfl

theorem State.ServiceLaw.pulseEnd {s : State} (h : s.ServiceLaw) (c : Fin 12) : (s.pulseEnd c).ServiceLaw := by
  unfold State.pulseEnd
  split <;> exact h.of_ports rfl rfl

theorem State.ServiceLaw.endTransaction {s : State} (h : s.ServiceLaw) : s.endTransaction.ServiceLaw := by
  unfold State.endTransaction
  dsimp only
  repeat' split
  all_goals exact h.of_ports rfl rfl

theorem State.ServiceLaw.transactionStart {s : State} (h : s.ServiceLaw) (command : Byte) (a : Word) (words : Nat) :
    (s.transactionStart command a words).ServiceLaw := by
  have k := h.endTransaction
  unfold State.transactionStart
  dsimp only
  repeat' split
  all_goals exact k.of_ports rfl rfl

/-- A written word keeps the law where its act does. -/
theorem State.ServiceLaw.lspWrite {s : State} (h : s.ServiceLaw) (a : Word) {act : State → State} (ha : (act s).ServiceLaw) :
    (s.lspWrite a act).ServiceLaw := by
  unfold State.lspWrite
  split
  · exact ha.of_ports rfl rfl
  · exact h

theorem State.ServiceLaw.writeMessage {s : State} (h : s.ServiceLaw) (m : Fin 8) (w : Fin 50) (value : Word) :
    (s.writeMessage m w value).ServiceLaw := by
  unfold State.writeMessage
  dsimp only
  split <;> exact h.of_ports rfl rfl

/-- A local action keeps the law where its act does. -/
theorem State.ServiceLaw.localAction {s : State} (h : s.ServiceLaw) {act : State → State}
    (ha : ∀ t : State, t.ServiceLaw → (act t).ServiceLaw) : (s.localAction act).ServiceLaw := by
  unfold State.localAction
  repeat' split
  · exact h.of_ports rfl rfl
  · exact ha _ (h.of_ports rfl rfl)
  · exact h

theorem State.ServiceLaw.finish {x : Acted} (h : x.state.ServiceLaw) : x.finish.ServiceLaw := by
  unfold Acted.finish
  dsimp only
  split <;> exact h.of_ports rfl rfl

theorem State.ServiceLaw.takeAction {s : State} (h : s.ServiceLaw) (o : BitVec 12) : (s.takeAction o).state.ServiceLaw := by
  unfold State.takeAction
  repeat' split
  all_goals exact h.of_ports rfl rfl

theorem State.ServiceLaw.postAction {s : State} (h : s.ServiceLaw) (o : BitVec 12) : (s.postAction o).state.ServiceLaw := by
  unfold State.postAction
  split <;> exact h.of_ports rfl rfl

theorem State.ServiceLaw.sendAction {s : State} (h : s.ServiceLaw) (o : BitVec 12) : (s.sendAction o).state.ServiceLaw := by
  unfold State.sendAction
  repeat' split
  all_goals exact h.of_ports rfl rfl

theorem State.ServiceLaw.cancelAction {s : State} (h : s.ServiceLaw) (o : BitVec 12) : (s.cancelAction o).state.ServiceLaw := by
  unfold State.cancelAction
  repeat' split
  all_goals exact h.of_ports rfl rfl

theorem State.ServiceLaw.clearAction {s : State} (h : s.ServiceLaw) (o : BitVec 12) : (s.clearAction o).state.ServiceLaw := by
  unfold State.clearAction
  repeat' split
  all_goals exact h.of_ports rfl rfl

theorem State.ServiceLaw.releaseAction {s : State} (h : s.ServiceLaw) : s.releaseAction.state.ServiceLaw := by
  unfold State.releaseAction
  split <;> exact h.of_ports rfl rfl

theorem State.ServiceLaw.popAction {s : State} (h : s.ServiceLaw) : s.popAction.state.ServiceLaw := by
  unfold State.popAction
  split <;> exact h.of_ports rfl rfl

end Sys2Proof.Machine
end

section
/-! PROOFS. Ports out of service (R2): every command keeps the law. -/

namespace Sys2Proof.Machine

/-! ### Every command -/

/-- What a command answers, where it answers `u`. -/
theorem State.ServiceLaw.of_next {u t : State} (h : (.next u : Result) = .next t) (hu : u.ServiceLaw) : t.ServiceLaw := by
  cases h
  exact hu

/-- A command that BYPASS ignores. -/
theorem State.ServiceLaw.unlessBypass {s t : State} (h : s.ServiceLaw) (ht : t.ServiceLaw) :
    (if s.inBypass then s else t).ServiceLaw := by
  split
  · exact h
  · exact ht

/-- The rows of the requests are deliveries (R89). -/
theorem exec_requestRow_keepsService (r : Request) (dt : Nat) (src : Station) (tag : Byte) {s t : State} (h : s.ServiceLaw)
    (e : exec (requestRow r dt src tag) s = .next t) : t.ServiceLaw := by
  have k : ∀ code, ((s.elapse dt).deliver src tag code (runRequest r src)).ServiceLaw := fun code =>
    (h.elapse dt).deliver src tag code fun _ k => k.runRequest r src
  cases r <;> exact State.ServiceLaw.of_next e (k _)

theorem exec_keepsService (c : Instr) {s t : State} (h : s.ServiceLaw) (e : exec c s = .next t) : t.ServiceLaw := by
  cases c with
  | header dt p f fcs => exact .of_next e ((h.elapse dt).receive p _ fcs fun a c _ k => k.passHeader p f a c)
  | block dt p f fcs => exact .of_next e ((h.elapse dt).receive p _ fcs fun a c _ k => k.passBlock p f a c)
  | container dt p f fcs => exact .of_next e ((h.elapse dt).receive p _ fcs fun a c _ k => k.passContainer p f a c)
  | roll dt p f fcs => exact .of_next e ((h.elapse dt).receive p _ fcs fun a c _ k => k.passRoll p f a c)
  | echo dt p f fcs => exact .of_next e ((h.elapse dt).receive p _ fcs fun a c _ k => k.passEcho p f a c)
  | unknownKind dt p f fcs => exact .of_next e ((h.elapse dt).receive p _ fcs fun a c _ k => k.passUnknown p f a c)
  | gapTimerExpiry dt => exact .of_next e (h.elapse dt).gapTimerExpiry
  | trainTimerExpiry dt => exact .of_next e (h.elapse dt).trainTimerExpiry
  | lockLost dt p => exact .of_next e ((h.elapse dt).unlessBypass ((h.elapse dt).lockLost p))
  | lockGained dt p => exact .of_next e ((h.elapse dt).unlessBypass ((h.elapse dt).lockGained p))
  | farEndRecognised dt p sig => exact .of_next e ((h.elapse dt).unlessBypass ((h.elapse dt).farEnd p sig))
  | downHoldExpiry dt p => exact .of_next e ((h.elapse dt).unlessBypass ((h.elapse dt).downHoldExpiry p))
  | qualificationComplete dt p => exact .of_next e ((h.elapse dt).unlessBypass ((h.elapse dt).qualificationComplete p))
  | returnToService dt p =>
    refine .of_next e ?_
    split
    · rename_i hd
      simp only [Bool.and_eq_true] at hd
      exact (h.elapse dt).returnService p hd.1.2
    · exact h.elapse dt
  | echoTransmitStart dt p =>
    refine .of_next e ?_
    split
    · exact (h.elapse dt).echoStart p
    · exact h.elapse dt
  | echoReplySent dt p => exact .of_next e ((h.elapse dt).replySent p)
  | echoRequestSent dt p => exact .of_next e ((h.elapse dt).requestSent p)
  | echoWaitExpiry dt => exact .of_next e (h.elapse dt).echoWaitExpiry
  | sessionIdleExpiry dt =>
    refine .of_next e ?_
    unfold State.sessionIdleExpiry
    repeat' split
    all_goals exact h.of_ports rfl rfl
  | stopRise dt => exact .of_next e (h.elapse dt).stopRise
  | stopFall dt => exact .of_next e (h.elapse dt).stopFall
  | triggerPinChange dt k level => exact .of_next e ((h.elapse dt).pinChange k level)
  | trigOutFall dt k => exact .of_next e ((h.elapse dt).trigOutFall k)
  | pulseEnd dt c => exact .of_next e ((h.elapse dt).pulseEnd c)
  | powerOn dt => exact .of_next e (State.serviceLaw_beginRestart _ _)
  | powerSettled dt => exact .of_next e (h.elapse dt).powerSettled
  | rstNLow dt => exact .of_next e (h.elapse dt).rstNLow
  | rstNHigh dt => exact .of_next e (h.elapse dt).rstNHigh
  | remoteRestartBegin dt =>
    refine .of_next e ?_
    split
    · exact State.serviceLaw_beginRestart _ _
    · exact h.elapse dt
  | bypassHoldExpiry dt straps => exact .of_next e ((h.elapse dt).bypassHoldExpiry straps)
  | lspTransactionStart dt command address words =>
    cases command with
    | none => exact .of_next e (h.of_ports rfl rfl)
    | some x => exact .of_next e ((h.elapse dt).transactionStart x address words)
  | lspSelectRelease dt words => exact .of_next e (State.ServiceLaw.endTransaction (by exact h.of_ports rfl rfl))
  | publishWindowWrite dt p w value => exact .of_next e ((h.elapse dt).lspWrite _ (h.of_ports rfl rfl))
  | bankControlWrite dt b value => exact .of_next e ((h.elapse dt).lspWrite _ (h.of_ports rfl rfl))
  | mailboxWrite dt m w value => exact .of_next e ((h.elapse dt).lspWrite _ ((h.elapse dt).writeMessage m w value))
  | attentionMaskWrite dt value => exact .of_next e ((h.elapse dt).lspWrite _ (h.of_ports rfl rfl))
  | lspIgnoredWrite dt address => exact .of_next e ((h.elapse dt).lspWrite _ (h.of_ports rfl rfl))
  | take dt o => exact .of_next e ((h.elapse dt).localAction fun _ k => (k.takeAction o).finish)
  | post dt o => exact .of_next e ((h.elapse dt).localAction fun _ k => (k.postAction o).finish)
  | send dt o => exact .of_next e ((h.elapse dt).localAction fun _ k => (k.sendAction o).finish)
  | cancel dt o => exact .of_next e ((h.elapse dt).localAction fun _ k => (k.cancelAction o).finish)
  | clear dt o => exact .of_next e ((h.elapse dt).localAction fun _ k => (k.clearAction o).finish)
  | release dt => exact .of_next e ((h.elapse dt).localAction fun _ k => k.releaseAction.finish)
  | popStamp dt => exact .of_next e ((h.elapse dt).localAction fun _ k => k.popAction.finish)
  | clearCauses dt o => exact .of_next e ((h.elapse dt).localAction fun _ k => .finish (by exact k.of_ports rfl rfl))
  | localRestart dt => exact .of_next e ((h.elapse dt).localAction fun _ _ => State.serviceLaw_beginRestart _ _)
  | badAction dt code => exact .of_next e ((h.elapse dt).localAction fun _ k => .finish (by exact k.of_ports rfl rfl))
  | identify dt src tag => exact exec_requestRow_keepsService .identify dt src tag h e
  | readStatus dt src tag => exact exec_requestRow_keepsService .readStatus dt src tag h e
  | readCounters dt src tag g => exact exec_requestRow_keepsService (.readCounters g) dt src tag h e
  | clearCounters dt src tag g => exact exec_requestRow_keepsService (.clearCounters g) dt src tag h e
  | readCensus dt src tag x n => exact exec_requestRow_keepsService (.readCensus x n) dt src tag h e
  | readSubscriptionState dt src tag x n => exact exec_requestRow_keepsService (.readSubscriptionState x n) dt src tag h e
  | readEntry dt src tag x y i => exact exec_requestRow_keepsService (.readEntry x y i) dt src tag h e
  | openEdit dt src tag id => exact exec_requestRow_keepsService (.openEdit id) dt src tag h e
  | stageEntry dt src tag x i y => exact exec_requestRow_keepsService (.stageEntry x i y) dt src tag h e
  | clearStaged dt src tag x => exact exec_requestRow_keepsService (.clearStaged x) dt src tag h e
  | commit dt src tag m x => exact exec_requestRow_keepsService (.commit m x) dt src tag h e
  | abandonEdit dt src tag => exact exec_requestRow_keepsService .abandonEdit dt src tag h e
  | queryEdit dt src tag => exact exec_requestRow_keepsService .queryEdit dt src tag h e
  | halt dt src tag => exact exec_requestRow_keepsService .halt dt src tag h e
  | resume dt src tag => exact exec_requestRow_keepsService .resume dt src tag h e
  | returnWrap dt src tag p => exact exec_requestRow_keepsService (.returnWrap p) dt src tag h e
  | pulse dt src tag c => exact exec_requestRow_keepsService (.pulse c) dt src tag h e
  | restart dt src tag => exact exec_requestRow_keepsService .restart dt src tag h e
  | segmentTestStart dt src tag p n => exact exec_requestRow_keepsService (.segmentTestStart p n) dt src tag h e
  | segmentTestResult dt src tag => exact exec_requestRow_keepsService .segmentTestResult dt src tag h e
  | badCommand dt src tag payload => exact .of_next e ((h.elapse dt).deliver src tag _ fun _ k => k)
  | frameBeginsToArrive dt p lead => exact .of_next e ((h.elapse dt).frameBegins p lead)

/-- Settles O8: the law survives the command at the front of the queue, whichever it is. -/
theorem stepKeepsServiceLaw : Obligations.StepKeepsServiceLaw := by
  intro s t h e
  unfold step at e
  split at e
  · exact .of_next e h
  · exact exec_keepsService _ (by exact State.ServiceLaw.of_ports h rfl rfl) e

end Sys2Proof.Machine
end

section
/-! PROOFS. The roll unit's decision (R126), the entry it appends (R9, 12.1) and the upstream neighbour (R129). -/

namespace Sys2Proof.Machine

/-! ### The entry -/

/-- What a status code above 3 cannot be: every bit of the status byte but the code's comes from the sample. -/
theorem RollSample.statusByte_bits (x : RollSample) (n : Nat) (h : n < 4) :
    (BitVec.extractLsb' 0 3 (x.statusByte n)).toNat = n ∧ (x.statusByte n).getLsbD 3 = false ∧
      (x.statusByte n).getLsbD 4 = x.portWUp ∧ (x.statusByte n).getLsbD 5 = x.portEUp ∧
      (x.statusByte n).getLsbD 6 = x.wrapped ∧ (x.statusByte n).getLsbD 7 = false :=
  (by decide : ∀ (w e v : Bool) (k : Fin 4),
    (BitVec.extractLsb' 0 3 (BitVec.ofNat 8 (k.val + 16 * w.toNat + 32 * e.toNat + 64 * v.toNat))).toNat = k.val ∧
      (BitVec.ofNat 8 (k.val + 16 * w.toNat + 32 * e.toNat + 64 * v.toNat)).getLsbD 3 = false ∧
      (BitVec.ofNat 8 (k.val + 16 * w.toNat + 32 * e.toNat + 64 * v.toNat)).getLsbD 4 = w ∧
      (BitVec.ofNat 8 (k.val + 16 * w.toNat + 32 * e.toNat + 64 * v.toNat)).getLsbD 5 = e ∧
      (BitVec.ofNat 8 (k.val + 16 * w.toNat + 32 * e.toNat + 64 * v.toNat)).getLsbD 6 = v ∧
      (BitVec.ofNat 8 (k.val + 16 * w.toNat + 32 * e.toNat + 64 * v.toNat)).getLsbD 7 = false)
    x.portWUp x.portEUp x.wrapped ⟨n, h⟩

theorem rollStatusCode_lt (t : TapState) : rollStatusCode t < 4 := by cases t <;> decide

/-- The status byte of an entry is that of some code, whatever the decision (R126). -/
theorem RollSample.entry_status (x : RollSample) (own : Station) (d : RollDecision) :
    ∃ n, n < 4 ∧ (x.entry own d).status = x.statusByte n := by
  cases d with
  | anonymousAppend => exact ⟨3, by decide, rfl⟩
  | _ => exact ⟨rollStatusCode x.tapState, rollStatusCode_lt _, rfl⟩

/-! ### The decision -/

/-- A station stands among the open entries exactly where the duplicate test finds it (R126). -/
theorem openEntries_any (own : Station) (f : RollFrame) :
    ((openEntries f).any fun x => decide (stationOf x.station = own)) = true ↔ ∃ e ∈ openEntries f, stationOf e.station = own := by
  simp

/-- In FAULTED the overflow test alone decides (R126). -/
theorem rollDecision_faulted (own : Station) (f : RollFrame) :
    rollDecision .faulted own f = if f.openCount.toNat < 63 then .anonymousAppend else .overflow := rfl

/-! ### The upstream neighbour -/

theorem upstreamOf_empty (f : RollFrame) (h : f.openCount = 0) : upstreamOf f = none := by
  simp [upstreamOf, openEntries, h]

/-- The last open entry is the one in slot k - 1 (R129). -/
theorem upstreamOf_last (f : RollFrame) (i : Fin 63) (h : f.openCount.toNat = i.val + 1) :
    upstreamOf f = some (stationOf f.slots[i].station) := by
  have hi := i.isLt
  have hlast : (openEntries f).getLast? = some f.slots[i] := by
    rw [openEntries, h, List.getLast?_eq_getElem?, List.length_take, Vector.length_toList,
      Nat.min_eq_left (by omega), Nat.add_sub_cancel, List.getElem?_take_of_lt (by omega),
      List.getElem?_eq_getElem (by simp)]
    simp
  rw [upstreamOf, hlast]
  rfl

/-! ### A cleaned entry -/

/-- Which bits of an entry's bytes a changed frame keeps (R169, log 23). -/
theorem RollEntry.cleaned_bits (x : RollEntry) :
    x.cleaned.station.toNat < 64 ∧ (∀ i, 4 ≤ i → i ≤ 6 → x.cleaned.status.getLsbD i = x.status.getLsbD i) ∧
      x.cleaned.status.getLsbD 3 = false ∧ x.cleaned.status.getLsbD 7 = false := by
  refine ⟨?_, fun i h4 h6 => ?_, ?_, ?_⟩
  · rw [RollEntry.cleaned, BitVec.toNat_and]
    exact Nat.and_lt_two_pow (n := 6) _ (by decide)
  · obtain rfl | rfl | rfl : i = 4 ∨ i = 5 ∨ i = 6 := by omega
    all_goals simp [RollEntry.cleaned]
  · simp [RollEntry.cleaned]
  · simp [RollEntry.cleaned]

/-- Settles O31, row by row of the table. -/
theorem rollDecisions : Obligations.RollDecisions := by
  refine ⟨fun x own f => ⟨fun h => ?_, fun h => ?_, rfl, ?_, rfl, ?_, fun c => ?_⟩, upstreamOf_empty, upstreamOf_last,
    fun x => ?_⟩
  · rw [rollDecision_appending own f h, ← openEntries_any]
    refine ⟨fun hd => by rw [if_pos hd], fun hd hk => ?_, fun hd hk => ?_⟩
    · rw [if_neg hd, if_neg (by omega)]
    · rw [if_neg hd, if_pos hk]
  · rw [h, rollDecision_faulted]
    exact ⟨fun hk => if_neg (by omega), fun hk => if_pos hk⟩
  · have := (x.statusByte_bits _ (rollStatusCode_lt x.tapState)).1
    exact this.trans (by cases x.tapState <;> rfl)
  · exact (x.statusByte_bits 3 (by decide)).1
  · obtain ⟨n, hn, he⟩ := x.entry_status own c
    rw [he]
    exact (x.statusByte_bits n hn).2
  · obtain ⟨hs, hb, h3, h7⟩ := RollEntry.cleaned_bits x
    exact ⟨RollEntry.cleaned_station x, hs, RollEntry.cleaned_code x, hb, h3, h7⟩

end Sys2Proof.Machine
end

section
/-! PROOFS. BYPASS and its end (R144, R166, R167). -/

namespace Sys2Proof.Machine

theorem State.inBypass_eq_true {s : State} (h : s.ctl.tapState = .bypass) : s.inBypass = true := by simp [State.inBypass, h]

/-! ### Frames cross, commands idle -/

/-- In BYPASS a whole frame crosses as it came (R144). -/
theorem State.receive_crosses {s : State} (h : s.ctl.tapState = .bypass) (dt : Nat) (p : Port) (f : Frame) (c : Fcs)
    (act : Arriving → Check → State → Passed) :
    (s.elapse dt).receive p f (some c) act = { s with now := s.now + dt, sent := s.sent ++ [⟨p.other, .whole f c⟩] } := by
  rw [State.receive_bypass (s.elapse dt) _ _ _ _ h]
  rfl

/-- A command that BYPASS ignores moves the clock alone. -/
theorem State.ignored_bypass {s : State} (h : s.ctl.tapState = .bypass) (dt : Nat) (t : State) :
    (if (s.elapse dt).inBypass then s.elapse dt else t) = { s with now := s.now + dt } := by
  rw [if_pos (State.inBypass_eq_true (s := s.elapse dt) h)]
  rfl

/-- A command that needs a tap outside BYPASS, whatever else it needs. -/
theorem State.refused_bypass {s : State} (h : s.ctl.tapState = .bypass) (dt : Nat) (b : Bool) (t : State) :
    (if (!(s.elapse dt).inBypass && b) = true then t else s.elapse dt) = { s with now := s.now + dt } := by
  rw [State.inBypass_eq_true (s := s.elapse dt) h]
  rfl

/-! ### The bypass hold -/

theorem State.powerSettled_starts {s : State} (hs : s.rst.supplySettling = true) (hc : s.rst.cause = .powerOn)
    (hh : s.rst.hold = .waiting) :
    s.powerSettled = { s with rst := { s.rst with supplySettling := false, hold := .running (s.now + 2000) } } := by
  simp [State.powerSettled, State.startHold, hs, hc, hh, bypassHoldTime]

theorem State.rstNHigh_starts {s : State} (hs : s.rst.rstLow = true) (hc : s.rst.cause = .pin) (hh : s.rst.hold = .waiting) :
    s.rstNHigh = { s with rst := { s.rst with rstLow := false, hold := .running (s.now + 2000) } } := by
  simp [State.rstNHigh, State.startHold, hs, hc, hh, bypassHoldTime]

/-- The straps that number a tap (R1, R167). -/
theorem validStrap_iff (x : Station) : validStrap x = true ↔ 1 ≤ x.toNat ∧ x.toNat ≤ 62 := by simp [validStrap]

/-- The straps are sampled as the hold ends (R167). -/
theorem State.bypassHoldExpiry_running {s : State} {d : Nat} (h : s.rst.hold = .running d) (straps : Station) :
    s.bypassHoldExpiry straps =
      let t : State :=
        { s.reach d with rst := { s.rst with hold := .idle, station := straps, strapInvalid := !validStrap straps } }
      if validStrap straps then t.leaveBypass else t := by
  simp [State.bypassHoldExpiry, h]

/-- The tap leaves BYPASS: UNCONFIGURED with STATE set (R35). -/
theorem State.leaveBypass_eq {s : State} (h : s.ctl.tapState = .bypass) :
    s.leaveBypass =
      { s with
        ctl := { s.ctl with tapState := .unconfigured }
        att := { s.att with state := true }
        portW := s.leaveBypass.portW
        portE := s.leaveBypass.portE } := by
  simp [State.leaveBypass, State.setTapState, State.modUnit, State.setUnit, h, State.setSticky, Attention.setSticky]

/-- Both ports are DOWN with their down holds running, and out of service (R135). -/
theorem State.leaveBypass_unit (s : State) (q : Port) :
    s.leaveBypass.unit q =
      { s.unit q with
        monitor := .down, cause := .none, hold := some (s.now + 1000), qual := none, window := [], inService := false } := by
  cases q <;> simp [State.leaveBypass, State.unit, downHoldTime]

/-- Settles O44. -/
theorem bypassAndItsEnd : Obligations.BypassAndItsEnd := by
  refine ⟨fun dt p c s h => ?_,
    fun s arriving p => ⟨fun h => State.lineFill_bypass h arriving p, fun h => State.lineFill_driven h arriving p⟩,
    fun dt p s h => ?_, ⟨fun dt s hs hc hh => ?_, fun dt s hs hc hh => ?_, fun dt d straps s hh hs => ?_,
      fun dt d straps s hh hb h1 h62 => ?_⟩⟩
  · have crosses : ∀ (f : Frame) (act : Arriving → Check → State → Passed), _ := State.receive_crosses h dt p (c := c)
    exact ⟨fun _ => congrArg Host.Outcome.next (crosses ..), fun _ => congrArg Host.Outcome.next (crosses ..),
      fun _ => congrArg Host.Outcome.next (crosses ..), fun _ => congrArg Host.Outcome.next (crosses ..),
      fun _ => congrArg Host.Outcome.next (crosses ..), fun _ => congrArg Host.Outcome.next (crosses ..)⟩
  · have idles := State.ignored_bypass h dt
    have returns := congrArg (fun b : Bool => if b then (s.elapse dt).returnService p else s.elapse dt)
      (Bool.and_assoc (!(s.elapse dt).inBypass) ((s.elapse dt).dueToReturn p) (s.elapse dt).trainGap)
    exact ⟨fun x => congrArg Host.Outcome.next (idles _), congrArg Host.Outcome.next (idles _),
      congrArg Host.Outcome.next (idles _), fun sig => congrArg Host.Outcome.next (idles _),
      congrArg Host.Outcome.next (idles _), congrArg Host.Outcome.next (idles _),
      congrArg Host.Outcome.next (returns.trans (State.refused_bypass h dt _ _)),
      congrArg Host.Outcome.next (State.refused_bypass h dt _ _)⟩
  · exact congrArg Host.Outcome.next (State.powerSettled_starts (s := s.elapse dt) hs hc hh)
  · exact congrArg Host.Outcome.next (State.rstNHigh_starts (s := s.elapse dt) hs hc hh)
  · have hv : validStrap straps = false := by
      rw [← Bool.not_eq_true, validStrap_iff]
      omega
    refine congrArg Host.Outcome.next ((State.bypassHoldExpiry_running (s := s.elapse dt) hh straps).trans ?_)
    simp only [hv]
    rfl
  · have hv : validStrap straps = true := (validStrap_iff straps).mpr ⟨h1, h62⟩
    refine ⟨_, congrArg Host.Outcome.next ((State.bypassHoldExpiry_running (s := s.elapse dt) hh straps).trans (if_pos hv)), ?_,
      fun q => ?_⟩
    · rw [hv]
      exact State.leaveBypass_eq hb
    · rw [State.leaveBypass_unit]
      cases q <;> rfl

end Sys2Proof.Machine
end

section
/-! PROOFS. ECHO frames: a request received, a reply judged, an ECHO sent (R10, R145, R146). -/

namespace Sys2Proof.Machine

/-! ### A frame that is not forwarded -/

/-- Two changes of a port unit that agree on the unit as it stands. -/
theorem State.modUnit_congr {s : State} {p : Port} {f g : PortUnit → PortUnit} (h : f (s.unit p) = g (s.unit p)) :
    s.modUnit p f = s.modUnit p g := by
  rw [State.modUnit, h, State.modUnit]

/-- The end of a frame that leaves by no port: it is counted, and its outcome joins the error window. -/
theorem State.frameEnds_dropped (s : State) (dt : Nat) (p : Port) (f g : Frame) (fcs : Option Fcs) :
    s.frameEnds dt p f g fcs none false =
      ((s.elapse dt).modUnit p fun u =>
        { u with
          arriving := none
          counters := u.counters.received (f.outcome fcs) (decide (f.lead = .unknown)) }).windowAdd p
        (decide (f.outcome fcs = .bad)) := by
  simp only [State.frameEnds, State.leaves, Bool.false_and, Bool.false_eq_true, if_false, PortCounters.received,
    decide_eq_true_eq]
  rfl

/-- A good frame of a known kind counts as received and nothing else (R12). -/
theorem PortCounters.received_good (c : PortCounters) : c.received .good false = { c with frames := satInc c.frames } := by
  simp [PortCounters.received]

/-- An ECHO is seen by no tracker and leaves by no port (R4, R10): it is counted, it acts, and its outcome joins the window. -/
theorem State.receive_echo {s : State} {p : Port} (hb : s.ctl.tapState ≠ .bypass) (ha : (s.unit p).arriving = none)
    (f : EchoFrame) (fcs : Option Fcs) :
    s.receive p (.echo f) fcs (passEcho p f) =
      ((s.modUnit p fun u =>
        { u with
          arriving := none
          counters := u.counters.received (Frame.outcome (.echo f) fcs) false }).receiveEcho p f
            (Frame.outcome (.echo f) fcs)).windowAdd p (decide (Frame.outcome (.echo f) fcs = .bad)) := by
  have hs : s.sees p .echo = false := by simp [State.sees]
  have hv : s.overTurns p .echo = false := by simp [State.overTurns]
  have hd : s.discardAfter p .echo = (s.unit p).discard := rfl
  have hout : (s.arrivalOf p .echo).out = none := by simp [State.arrivalOf, hs]
  have hcount : ((s.beginArrival p .echo).modUnit p fun u => { u with arriving := none }).countFrame p (s.arrivalOf p .echo)
      (Frame.outcome (.echo f) fcs) =
      s.modUnit p fun u =>
        { u with arriving := none, counters := u.counters.received (Frame.outcome (.echo f) fcs) false } := by
    have hseen : (s.arrivalOf p .echo).seen = false := hs
    have hturn : (s.arrivalOf p .echo).overTurn = false := hv
    have hlead : (s.arrivalOf p .echo).lead = .echo := rfl
    simp only [State.countFrame, State.countPort, State.beginArrival, hseen, hturn, hlead, hd, Bool.false_eq_true, if_false,
      false_and, State.modUnit_modUnit, PortUnit.count, reduceCtorEq, decide_false]
    exact State.modUnit_congr rfl
  have hl : Frame.lead (.echo f) = .echo := rfl
  rw [State.receive_whole s p _ fcs _ hb ha, hl]
  dsimp only
  rw [State.forward_none _ _ _ _ _ hout]
  have hlost : ∀ (t : State) (c : Check), t.countLost (s.arrivalOf p .echo) c = t := fun t c => by simp [State.countLost, hout]
  rw [hlost, hcount]
  rfl

/-! ### The ECHO a port starts -/

theorem State.mayEcho_iff (s : State) (p : Port) (hm : (s.unit p).monitor = .up) (ht : (s.unit p).tx = none) :
    s.mayEcho p = true ↔
      (s.unit p).elastic = [] ∧ ∀ q a, (s.unit q).arriving = some a → a.out = some p → a.lead = .container := by
  rw [← State.echoGap_iff]
  simp [State.mayEcho, hm, ht]

theorem State.inBypass_eq_false {s : State} (h : s.ctl.tapState ≠ .bypass) : s.inBypass = false := by simp [State.inBypass, h]

/-- ECHO_TRANSMIT_START outside BYPASS starts what waits, where the port may start an ECHO. -/
theorem exec_echoTransmitStart {s : State} (hb : s.ctl.tapState ≠ .bypass) (dt : Nat) (p : Port) :
    exec (.echoTransmitStart dt p) s =
      .next (if (s.elapse dt).mayEcho p then (s.elapse dt).echoStart p else s.elapse dt) := by
  show Host.Outcome.next (if (!(s.elapse dt).inBypass && (s.elapse dt).mayEcho p) = true then _ else _) = _
  rw [State.inBypass_eq_false (s := s.elapse dt) hb]
  rfl

/-- An ECHO sent in full leaves, and behind it what has waited (R145). -/
theorem State.echoSent_eq (s : State) (p : Port) (f : EchoFrame) :
    s.echoSent p f =
      State.modUnit
        { s with
          sent := s.sent ++ ⟨p, .whole (.echo f) (Frame.check (.echo f))⟩ :: (s.unit p).elastic.map fun h => ⟨p, h.content⟩
          mgmt := { s.mgmt with
            pendingRestart :=
              if (s.unit p).elastic.any (fun h => h.restarts) = true then
                s.mgmt.pendingRestart.map fun x => { x with left := true }
              else s.mgmt.pendingRestart } } p fun u => { u with tx := none, elastic := [] } := by
  rw [State.echoSent, State.flushElastic_eq, State.unit_modUnit]
  simp only [State.modUnit_sent, State.modUnit_mgmt, State.emit_sent, State.emit_mgmt, List.append_assoc, List.singleton_append]
  cases p <;> rfl

/-- Settles O34. -/
theorem echoTransmission : Obligations.EchoTransmission := by
  refine ⟨fun dt p f s hb ha hm hd => ?_, fun dt p s hb hm ht => ⟨fun gap f hw => ?_, fun gap hw hr hp hph => ?_, fun gap => ?_⟩,
    fun dt p f s => ⟨fun ht => ?_, fun ht => ?_⟩⟩
  · refine congrArg Host.Outcome.next ((State.receive_echo (s := s.elapse dt) hb (by simpa using ha) f _).trans ?_)
    rw [outcome_good, decide_eq_false (by decide), State.windowAdd_good]
    simp only [State.receiveEcho, State.unit_modUnit, State.unit_elapse, hm, hd, if_true, State.modUnit_modUnit,
      PortCounters.received_good, echoReply]
    exact State.modUnit_congr (by simp [hm])
  · rw [exec_echoTransmitStart hb, if_pos ((State.mayEcho_iff _ p (by simpa using hm) (by simpa using ht)).mpr (by simpa using gap))]
    simp only [State.echoStart, State.unit_elapse, hw]
  · have hready : (s.elapse dt).requestReady p = true := by simp [State.requestReady, hr, hp, hph]
    rw [exec_echoTransmitStart hb, if_pos ((State.mayEcho_iff _ p (by simpa using hm) (by simpa using ht)).mpr (by simpa using gap))]
    simp only [State.echoStart, State.unit_elapse, hw, hready, if_true]
    cases p <;> rfl
  · rw [exec_echoTransmitStart hb, if_neg fun h => gap ?_]
    simpa using (State.mayEcho_iff (s.elapse dt) p (by simpa using hm) (by simpa using ht)).mp h
  · show Host.Outcome.next (State.replySent _ p) = _
    simp only [State.replySent, State.unit_elapse, ht, State.echoSent_eq, State.countPort, State.modUnit_modUnit]
    rfl
  · show Host.Outcome.next (State.requestSent _ p) = _
    simp only [State.requestSent, State.unit_elapse, ht, State.echoSent_eq]
    cases p <;> rfl

/-! ### The segment test -/

/-- An ECHO REPLY at an UP port in the wait of the test there, where the judgement leaves the test as `y` (R146). -/
theorem exec_echo_answers {s : State} {p : Port} {f : EchoFrame} (hb : s.ctl.tapState ≠ .bypass)
    (ha : (s.unit p).arriving = none) (hm : (s.unit p).monitor = .up) (hd : f.direction = 0x01#8) (dt : Nat) (fcs : Option Fcs)
    {y : SegTest}
    (hy : ∀ t : State, t.mgmt.segTest = s.mgmt.segTest → t.judgeReply p f (Frame.outcome (.echo f) fcs) = t.setTest y) :
    exec (.echo dt p f fcs) s =
      .next (State.frameEnds { s with mgmt := { s.mgmt with segTest := y } } dt p (.echo f) (.echo f) fcs none false) := by
  refine congrArg Host.Outcome.next ((State.receive_echo (s := s.elapse dt) hb (by simpa using ha) f fcs).trans ?_)
  have hdir : ¬ f.direction = 0x00#8 := by
    rw [hd]
    decide
  rw [State.frameEnds_dropped]
  simp only [State.receiveEcho, State.unit_modUnit, State.unit_elapse, hm, if_true, if_neg hdir, if_pos hd]
  rw [hy _ (by simp)]
  congr 1
  cases p <;> rfl

/-- The judgement of a reply in the wait of the test at its port (R146). -/
theorem State.judgeReply_waiting {t : State} {p : Port} {d : Nat} (hs : t.mgmt.segTest.state = .running)
    (hp : t.mgmt.segTest.port = p) (hw : t.mgmt.segTest.phase = .waiting d) (f : EchoFrame) (check : Check) :
    t.judgeReply p f check =
      t.setTest
        (if check ≠ .good ∨ f.seq = BitVec.ofNat 8 t.mgmt.segTest.request ∧ f.pattern ≠ echoPattern t.mgmt.segTest.request then
          { t.mgmt.segTest with bad := t.mgmt.segTest.bad + 1 }.decided
        else if f.seq = BitVec.ofNat 8 t.mgmt.segTest.request then
          { t.mgmt.segTest with good := t.mgmt.segTest.good + 1 }.decided
        else t.mgmt.segTest) := by
  unfold State.judgeReply
  simp only [hs, hw, hp, if_true]
  by_cases hc : check = .good <;> by_cases hq : f.seq = BitVec.ofNat 8 t.mgmt.segTest.request <;>
    by_cases hx : f.pattern = echoPattern t.mgmt.segTest.request <;> simp [hc, hq, hx, State.setTest]

/-- Settles O35: each row of the table is one outcome of the judgement. -/
theorem segmentTestDecides : Obligations.SegmentTestDecides := by
  refine ⟨fun dt p f fcs d s hb ha hm hd hs hp hw => ?_, fun dt d s hs hw => ?_⟩
  · have judged : ∀ t : State, t.mgmt.segTest = s.mgmt.segTest → t.judgeReply p f (Frame.outcome (.echo f) fcs) = t.setTest _ :=
      fun t ht => by
        rw [State.judgeReply_waiting (by rw [ht]; exact hs) (by rw [ht]; exact hp) (by rw [ht]; exact hw), ht]
    have answers := exec_echo_answers hb ha hm hd dt fcs judged
    dsimp only
    refine ⟨fun hbad => ?_, fun hgood hq hx => ?_, fun hgood hq hx => ?_, fun hgood hq => ?_⟩
    · rw [answers, if_pos (.inl hbad)]
      rfl
    · rw [answers, if_pos (.inr ⟨hq, hx⟩)]
      rfl
    · rw [answers, if_neg (by simp [hgood, hx]), if_pos hq]
      rfl
    · rw [answers, if_neg (by simp [hgood, hq]), if_neg hq]
  · show Host.Outcome.next (State.echoWaitExpiry _) = _
    simp only [State.echoWaitExpiry, State.elapse_mgmt, hs, hw]
    rfl

end Sys2Proof.Machine
end

section
/-! PROOFS. What the end of a frame leaves (R12, R13, R137): one rule for a frame that the tracker sees, one for a frame that takes
the expected frame's place (R28), one for a frame that is not seen. -/

namespace Sys2Proof.Machine

/-! ### A change at one port and the tracker -/

theorem State.modTrk_modUnit (s : State) (p : Port) (c : PortUnit → PortUnit) (f : Tracker → Tracker) :
    (s.modUnit p c).modTrk f = (s.modTrk f).modUnit p c := by cases p <;> rfl

theorem State.elapse_zero (s : State) : s.elapse 0 = s := rfl

/-- At the record's port the gap timer is armed, 100 µs from now (R30). -/
theorem State.armGap_at {s : State} {p : Port} (h : s.trk.record.port = some p) :
    s.armGap p = s.modTrk fun t => { t with gapTimer := some (s.now + 100) } := by simp [State.armGap, h, gapTime]

theorem State.armGap_elsewhere {s : State} {p : Port} (h : s.trk.record.port ≠ some p) : s.armGap p = s := by
  simp [State.armGap, h]

/-- The gap timer set to what it holds. -/
theorem State.gapTimer_self {s : State} {gap : Option Nat} (h : s.trk.gapTimer = gap) :
    ({ s with trk := { s.trk with gapTimer := gap } } : State) = s := by
  subst h
  rfl

/-! ### A frame that the tracker sees -/

/-- The port unit as frame `f` has ended there and is counted (R11, R12). -/
def PortUnit.ended (f : Frame) (check : Check) (u : PortUnit) : PortUnit :=
  { u with arriving := none, counters := u.counters.received check (decide (f.lead = .unknown)) }

/-- The tap as a frame of check `check` leaves it after its own effect: a publish lost (R78), the frame leaving (R13), the error
window (R137). `placed`: a RESTART's response had been placed before the frame (R124). -/
def Passed.sendOff (r : Passed) (p : Port) (a : Arriving) (check : Check) (fcs : Option Fcs) (placed : Bool) : State :=
  ((r.state.countLost a check).forward a (outgoing r.frame check fcs) (a.writes ≠ [] && check = .good)
    (!placed && r.state.restartPlaced)).windowAdd p (check = .bad)

/-- The tap as a good frame of known kind has been counted at port `p`, `dt` after `s`, with the gap timer as it then is (R12, R30). -/
def State.countedGood (s : State) (dt : Nat) (p : Port) (gap : Option Nat) : State :=
  State.modUnit { s with now := s.now + dt, trk := { s.trk with gapTimer := gap } } p fun u =>
    { u with arriving := none, counters := { u.counters with frames := satInc u.counters.frames } }

theorem State.countedGood_tx (s : State) (dt : Nat) (p : Port) (gap : Option Nat) (q : Port) :
    ((s.countedGood dt p gap).unit q).tx = (s.unit q).tx := by cases p <;> cases q <;> rfl

theorem State.countedGood_counters (s : State) (dt : Nat) (p : Port) (gap : Option Nat) :
    ((s.countedGood dt p gap).unit p).counters = { (s.unit p).counters with frames := satInc (s.unit p).counters.frames } := by
  cases p <;> rfl

theorem PortUnit.ended_good {f : Frame} (h : f.lead ≠ .unknown) :
    PortUnit.ended f .good = fun u =>
      { u with arriving := none, counters := { u.counters with frames := satInc u.counters.frames } } := by
  funext u
  simp [PortUnit.ended, h, PortCounters.received_good]

/-- A frame that the tracker sees, in its three stages: it is counted, it acts, and it leaves. -/
theorem State.receive_sendOff {s : State} {p : Port} {f : Frame} {a : Arriving} (hm : s.meets p f.lead a) (he : f.lead ≠ .echo)
    (fcs : Option Fcs) (act : Arriving → Check → State → Passed) :
    s.receive p f fcs act =
      (act a (f.outcome fcs)
        (State.modUnit
          { s with
            trk := { s.trk with
              gapTimer := if (s.unit p).arriving = none ∧ s.trk.record.port = some p then none else s.trk.gapTimer } }
          p (PortUnit.ended f (f.outcome fcs)))).sendOff p a (f.outcome fcs) fcs s.restartPlaced :=
  State.receive_meets hm he fcs act

/-- A frame that the tracker sees ends: its own effect on the tap leaves `t`, and the frame leaves as `g`. -/
theorem State.receive_ends {s t : State} {dt : Nat} {p : Port} {f g : Frame} {fcs : Option Fcs} {a : Arriving}
    {act : Arriving → Check → State → Passed} (hm : s.meets p f.lead a) (he : f.lead ≠ .echo)
    (hp : t.mgmt = s.mgmt)
    (hact : ∀ (gap : Option Nat) (c : PortUnit → PortUnit), (gap = s.trk.gapTimer ∨ s.trk.record.port = some p) →
      act a (f.outcome fcs) (State.modUnit { s.elapse dt with trk := { s.trk with gapTimer := gap } } p c) =
        ⟨(t.elapse dt).modUnit p c, g⟩) :
    (s.elapse dt).receive p f fcs act = t.frameEnds dt p f g fcs a.out (!a.writes.isEmpty) := by
  rw [State.frameEnds_elapse]
  refine State.receive_frameEnds ((State.meets_elapse s dt p _ a).mpr hm) he ?_ hact
  simp [State.restartPlaced, hp]

/-- A frame of which only a BLOCK's number could be written into is not written (R75). -/
theorem State.meets.unwritten {s : State} {p : Port} {lead : Lead} {a : Arriving} (hm : s.meets p lead a)
    (h : ∀ n, lead ≠ .block n) : (!a.writes.isEmpty) = false := by
  obtain ⟨-, -, -, -, hw, -⟩ := hm
  simp [hw h]

theorem State.meets.seen {s : State} {p : Port} {lead : Lead} {a : Arriving} (hm : s.meets p lead a) : a.seen = true :=
  hm.2.2.1

/-! ### A frame that takes the expected frame's place (R28) -/

/-- The frame that is expected after block k, as the statements write it (R26). -/
theorem afterBlock_eq (b c : Byte) (k : Nat) :
    afterBlock b c k = if k + 1 < b.toNat then .block (k + 1) else if c ≠ 0 then .container 0 else .roll := by
  have h : 0 < c.toNat ↔ c ≠ 0 := by
    rw [Nat.pos_iff_ne_zero, BitVec.toNat_ne]
    rfl
  simp only [afterBlock, h]

/-- The tracker after a bad frame of the train, but for a ROLL's place (R28). -/
def Tracker.placeTaken (t : Tracker) (x : Position) (now : Nat) : Tracker :=
  { t with defect := true, expected := some x, gapTimer := some (now + 100) }

/-- A bad frame moves the position on past the expected one (R28). -/
theorem State.badFrame_moves {s : State} {p : Port} {x y : Position} (hr : s.trk.record = .inTrain p)
    (hx : s.trk.expected = some x)
    (h : (∃ k, x = .block k ∧ y = afterBlock s.trk.blocks s.trk.containers k) ∨
      (∃ k, x = .container k ∧ y = afterContainer s.trk.containers k) ∨ x = .unordered ∧ y = .unordered)
    (dt : Nat) (gap : Option Nat) (c : PortUnit → PortUnit) :
    (State.modUnit { s.elapse dt with trk := { s.trk with gapTimer := gap } } p c).badFrame.armGap p =
      (State.elapse { s with trk := s.trk.placeTaken y (s.now + dt) } dt).modUnit p c := by
  obtain ⟨k, rfl, rfl⟩ | ⟨k, rfl, rfl⟩ | ⟨rfl, rfl⟩ := h
  all_goals
    simp only [State.badFrame, State.orderDefect, State.expect, State.modTrk_trk, State.modUnit_trk, hx]
    rw [State.armGap_at (by simp [TrainRecord.port, hr])]
    cases p <;> simp [State.modTrk, State.modUnit, State.setUnit, State.unit, Tracker.placeTaken, State.elapse]

/-- A close keeps where a RESTART's response has been placed (R124). -/
theorem State.close_restartPlaced (s : State) (k : CloseKind) (l : Option (List RollEntry)) :
    (s.close k l).restartPlaced = s.restartPlaced := by
  simp only [State.restartPlaced, State.close_mgmt]
  cases s.mgmt.pendingRestart <;> rfl

theorem State.badFrame_roll {s : State} (h : s.trk.expected = some .roll) : s.badFrame = s.orderDefect.close .defective none := by
  have hx : s.orderDefect.trk.expected = some .roll := h
  unfold State.badFrame
  simp only [hx]

/-- A bad frame where the ROLL is expected closes the train, whatever its port has counted and the gap timer holds (R28). -/
theorem State.badFrame_closes {s : State} {p : Port} (hx : s.trk.expected = some .roll) (gap : Option Nat)
    (c : PortUnit → PortUnit) :
    (State.modUnit { s with trk := { s.trk with gapTimer := gap } } p c).badFrame.armGap p =
      (s.orderDefect.close .defective none).modUnit p c := by
  have hd : (State.modUnit { s with trk := { s.trk with gapTimer := gap } } p c).orderDefect =
      State.modUnit { s.orderDefect with trk := { s.orderDefect.trk with gapTimer := gap } } p c := by cases p <;> rfl
  rw [State.badFrame_roll (by simpa using hx), hd, State.close_modUnit _ _ _ _ _ _ (by decide)]
  refine State.armGap_elsewhere ?_
  simp [TrainRecord.port]

/-- A frame that acts as a bad frame of the train takes the expected frame's place (R28). -/
theorem State.takesPlace_of_badFrame {s : State} {p : Port} {f g : Frame} {fcs : Option Fcs} {a : Arriving}
    {act : Arriving → Check → State → Passed} (dt : Nat) (hm : s.meets p f.lead a) (he : f.lead ≠ .echo)
    (hr : s.trk.record = .inTrain p)
    (hact : ∀ t : State, t.trk.record = .inTrain p → t.rst = s.rst → act a (f.outcome fcs) t = ⟨t.badFrame.armGap p, g⟩) :
    s.takesPlace dt p f g fcs a (.next ((s.elapse dt).receive p f fcs act)) := by
  have acts : ∀ (gap : Option Nat) (c : PortUnit → PortUnit) (t : State),
      (State.modUnit { s.elapse dt with trk := { s.trk with gapTimer := gap } } p c).badFrame.armGap p = t →
      act a (f.outcome fcs) (State.modUnit { s.elapse dt with trk := { s.trk with gapTimer := gap } } p c) = ⟨t, g⟩ := by
    intro gap c t ht
    rw [hact _ (by simpa using hr) (by simp), ht]
  refine ⟨fun k hk => ?_, fun k hk => ?_, fun hk => ?_, fun hk => ?_⟩
  · rw [← afterBlock_eq]
    exact congrArg Host.Outcome.next (State.receive_ends hm he rfl fun gap c _ =>
      acts gap c _ (State.badFrame_moves hr hk (.inl ⟨k, rfl, rfl⟩) dt gap c))
  · exact congrArg Host.Outcome.next (State.receive_ends hm he rfl fun gap c _ =>
      acts gap c _ (State.badFrame_moves hr hk (.inr (.inl ⟨k, rfl, rfl⟩)) dt gap c))
  · refine congrArg Host.Outcome.next ((State.receive_ends
      (t := { s with trk := s.trk.placeTaken .unordered (s.now + dt) }) hm he rfl fun gap c _ =>
      acts gap c _ (State.badFrame_moves hr hk (.inr (.inr ⟨rfl, rfl⟩)) dt gap c)).trans ?_)
    rw [Tracker.placeTaken, ← hk]
  · exact congrArg Host.Outcome.next (State.receive_frameEnds ((State.meets_elapse s dt p _ a).mpr hm) he
      (State.close_restartPlaced _ _ _) fun gap c _ => acts gap c _ (State.badFrame_closes (s := s.elapse dt) hk gap c))

end Sys2Proof.Machine
end

section
/-! PROOFS. Defects inside a train (R11, R28) and HEADERs inside a train (R24). -/

namespace Sys2Proof.Machine

/-! ### The effect of each kind on a train in progress -/

theorem State.published_congr {s t : State} (h : t.rst = s.rst) (f : BlockFrame) (w : List SegWrite) :
    t.published f w = s.published f w := by simp only [State.published, h]

/-- A BLOCK with a stomped or bad check acts as a bad frame (R28). -/
theorem passBlock_bad {s t : State} {p : Port} {a : Arriving} {c : Check} (hs : a.seen = true) (hr : t.trk.record = .inTrain p)
    (hc : c ≠ .good) (hst : t.rst = s.rst) (f : BlockFrame) :
    passBlock p f a c t = ⟨t.badFrame.armGap p, .block (s.published f a.writes)⟩ := by
  simp [passBlock, hs, State.trackBlock, hr, hc, State.published_congr hst]

theorem passContainer_bad {t : State} {p : Port} {a : Arriving} {c : Check} (hs : a.seen = true) (hr : t.trk.record = .inTrain p)
    (hc : c ≠ .good) (f : ContainerFrame) : passContainer p f a c t = ⟨t.badFrame.armGap p, .container f⟩ := by
  simp [passContainer, hs, State.trackContainer, hr, hc, State.handled]

theorem passHeader_bad {t : State} {p : Port} {a : Arriving} {c : Check} (hs : a.seen = true) (hr : t.trk.record = .inTrain p)
    (hc : c ≠ .good) (f : HeaderFrame) :
    passHeader p f a c t = ⟨t.badFrame.armGap p, .header (if a.out = some p then f.turned else f)⟩ := by
  simp [passHeader, hs, State.trackHeader, hr, hc]

/-- A frame of unknown kind inside a train is a defect that takes no place (R11, R28). -/
theorem passUnknown_inTrain {t : State} {p : Port} {a : Arriving} (hs : a.seen = true) (hr : t.trk.record = .inTrain p)
    (c : Check) (f : UnknownFrame) : passUnknown p f a c t = ⟨t.orderDefect.armGap p, .unknown f⟩ := by
  simp [passUnknown, hs, State.trackUnknown, hr]

/-- Settles O19. -/
theorem defectsInsideATrain : Obligations.DefectsInsideATrain := by
  intro dt p fcs a s hr
  refine ⟨fun f hm hc => ?_, fun f hm hc => ?_, fun f hm => ?_⟩
  · exact State.takesPlace_of_badFrame dt hm (by simp [Frame.lead]) hr fun t ht hst => passBlock_bad hm.seen ht hc hst f
  · exact State.takesPlace_of_badFrame dt hm (by simp [Frame.lead]) hr fun t ht _ => passContainer_bad hm.seen ht hc f
  · rw [← hm.unwritten (by simp)]
    refine congrArg Host.Outcome.next (State.receive_ends hm (by simp [Frame.lead]) rfl fun gap c _ => ?_)
    rw [passUnknown_inTrain hm.seen (by simpa using hr), State.orderDefect, State.armGap_at (by simp [TrainRecord.port, hr])]
    cases p <;> rfl

/-! ### A HEADER inside a train (R24) -/

/-- A good HEADER that a train in progress gives way to is taken after an ABORTED close. -/
theorem State.trackHeader_aborts {t : State} {p q : Port} {f : HeaderFrame} (hr : t.trk.record = .inTrain q)
    (h : q = p ∨ t.newCycle f = true) : t.trackHeader p f .good = (t.close .aborted none).takeHeader p f := by
  have hn : (t.close .aborted none).newCycle f = t.newCycle f := by simp [State.newCycle]
  by_cases hq : q = p
  · simp [State.trackHeader, hr, hq]
  · have hnew := h.resolve_left hq
    simp [State.trackHeader, hr, hq, hnew, State.takeHeader, hn]

/-- A HEADER at the other port that the train does not give way to is only forwarded. -/
theorem State.trackHeader_forwarded {t : State} {p q : Port} {f : HeaderFrame} {c : Check} (hr : t.trk.record = .inTrain q)
    (hq : q ≠ p) (h : c ≠ .good ∨ t.newCycle f = false) : t.trackHeader p f c = t := by
  by_cases hc : c = .good
  · simp [State.trackHeader, hr, hq, hc, h.resolve_left (not_not_intro hc)]
  · simp [State.trackHeader, hr, hq, hc]

/-- With no train in progress a good HEADER is taken. -/
theorem State.trackHeader_takes {t : State} {p : Port} {f : HeaderFrame} (hr : ∀ q, t.trk.record ≠ .inTrain q) :
    t.trackHeader p f .good = t.takeHeader p f := by
  unfold State.trackHeader
  split
  · rename_i q hq
    exact absurd hq (hr q)
  · simp
  · simp

theorem State.newCycle_iff (s : State) (f : HeaderFrame) :
    s.newCycle f = true ↔ s.trk.valid = false ∨ f.cycle ≠ s.trk.lastCycle := by simp [State.newCycle]

/-- A close does not change what is decided of a HEADER, nor how it is met. -/
theorem State.meets.close {s : State} {p : Port} {n : BitVec 2} {a : Arriving} (hm : s.meets p (.header n) a) (k : CloseKind)
    (l : Option (List RollEntry)) : (s.close k l).meets p (.header n) a := by
  have hroute : (s.close k l).route p = s.route p := by simp [State.route, State.wrapState]
  obtain ⟨hb, hl, hs, ho, hw, h⟩ := hm
  refine ⟨by simpa using hb, hl, hs, ho, hw, ?_⟩
  rw [State.close_unit, hroute]
  refine h.imp_right ?_
  rintro ⟨hli, hlead, rfl⟩
  refine ⟨by simpa [State.listens] using hli, hlead, ?_⟩
  simp [State.decides, hroute]

/-- R24: a good HEADER that a train gives way to leaves what it leaves after an ABORTED close. -/
theorem State.receive_header_aborts {s : State} {p q : Port} {f : HeaderFrame} {a : Arriving}
    (hm : s.meets p (.header (f.turn.extractLsb' 0 2)) a) (hr : s.trk.record = .inTrain q) (h : q = p ∨ s.newCycle f = true) :
    s.receive p (.header f) (some (Frame.check (.header f))) (passHeader p f) =
      (s.close .aborted none).receive p (.header f) (some (Frame.check (.header f))) (passHeader p f) := by
  have hport : (s.close .aborted none).trk.record.port ≠ some p := by simp [TrainRecord.port]
  rw [State.receive_sendOff (f := .header f) hm (by simp [Frame.lead]),
    State.receive_sendOff (f := .header f) (hm.close .aborted none) (by simp [Frame.lead]),
    State.gapTimer_self (s := s.close .aborted none) (by rw [if_neg fun h => hport h.2]), outcome_good, State.close_restartPlaced]
  generalize (if (s.unit p).arriving = none ∧ s.trk.record.port = some p then none else s.trk.gapTimer) = gap
  generalize PortUnit.ended (.header f) .good = c
  have hact : passHeader p f a .good (State.modUnit { s with trk := { s.trk with gapTimer := gap } } p c) =
      passHeader p f a .good ((s.close .aborted none).modUnit p c) := by
    have h1 : (State.modUnit { s with trk := { s.trk with gapTimer := gap } } p c).trackHeader p f .good =
        ((s.close .aborted none).modUnit p c).takeHeader p f := by
      rw [State.trackHeader_aborts (q := q) (by simpa using hr) (by simpa [State.newCycle] using h),
        State.close_modUnit s .aborted none p c gap (by decide)]
    have h2 : ((s.close .aborted none).modUnit p c).trackHeader p f .good =
        ((s.close .aborted none).modUnit p c).takeHeader p f := State.trackHeader_takes (by simp)
    simp only [passHeader, hm.seen, if_true, h1, h2]
  rw [hact]

/-- Settles O15. -/
theorem headerInsideATrain : Obligations.HeaderInsideATrain := by
  refine ⟨fun dt p q f a s hm hr h => ?_, fun dt p q f fcs a s hm hr => ⟨fun hq h => ?_, fun hq hc => ?_⟩⟩
  · show Host.Outcome.next (State.receive _ p _ _ _) = Host.Outcome.next (State.receive (State.elapse _ 0) p _ _ _)
    rw [State.elapse_zero]
    refine congrArg Host.Outcome.next (State.receive_header_aborts ((State.meets_elapse s dt p _ a).mpr hm) hr ?_)
    rwa [State.newCycle_iff]
  · rw [← hm.unwritten (by simp)]
    have hp : s.trk.record.port ≠ some p := by simpa [TrainRecord.port, hr] using hq
    refine congrArg Host.Outcome.next (State.receive_ends (f := .header f) hm (by simp [Frame.lead]) rfl fun gap c hgap => ?_)
    obtain rfl := hgap.resolve_right hp
    have hold : Frame.outcome (.header f) fcs ≠ .good ∨ s.newCycle f = false := by
      refine h.imp_right fun ⟨hv, hc⟩ => ?_
      simp [State.newCycle, hv, hc]
    rw [passHeader, hm.seen, if_pos rfl, State.trackHeader_forwarded (by simpa using hr) hq (by simpa [State.newCycle] using hold)]
    rfl
  · subst hq
    exact State.takesPlace_of_badFrame dt hm (by simp [Frame.lead]) hr fun t ht _ => passHeader_bad hm.seen ht hc f

end Sys2Proof.Machine
end

section
/-! PROOFS. HEADERs that begin no first pass (R22 to R24, R143), and frames that the tracker does not see. -/

namespace Sys2Proof.Machine

/-! ### A frame whose own effect is on the tracker alone -/

theorem State.modTrk_congr {t : State} {f g : Tracker → Tracker} (h : f t.trk = g t.trk) : t.modTrk f = t.modTrk g := by
  rw [State.modTrk, h, State.modTrk]

/-- A change of the tracker at the record's port, and then the gap timer (R30). -/
theorem State.modTrk_armGap {t : State} {p : Port} {f : Tracker → Tracker} (h : (f t.trk).record.port = some p) :
    (t.modTrk f).armGap p = t.modTrk fun x => { f x with gapTimer := some (t.now + 100) } :=
  State.armGap_at (s := t.modTrk f) h

/-- `t` is the tap as a frame that port `p` of `s` meets has been counted, `dt` after `s`. -/
structure State.Met (s t : State) (p : Port) (dt : Nat) : Prop where
  trk : ∃ gap, t.trk = { s.trk with gapTimer := gap } ∧ (gap = s.trk.gapTimer ∨ s.trk.record.port = some p)
  now : t.now = s.now + dt
  rst : t.rst = s.rst

/-- The tracker as it stands then, where the record is not the port's. -/
theorem State.Met.trk_elsewhere {s t : State} {p : Port} {dt : Nat} (h : s.Met t p dt) (hp : s.trk.record.port ≠ some p) :
    t.trk = s.trk := by
  obtain ⟨gap, ht, hg⟩ := h.trk
  rw [ht, hg.resolve_right hp]

theorem State.Met.record {s t : State} {p : Port} {dt : Nat} (h : s.Met t p dt) : t.trk.record = s.trk.record := by
  obtain ⟨gap, ht, -⟩ := h.trk
  rw [ht]

/-- A frame that only moves the tracker, to `trk`, and leaves as `g`. -/
theorem State.receive_moves {s : State} {dt : Nat} {p : Port} {f g : Frame} {fcs : Option Fcs} {a : Arriving} {trk : Tracker}
    {act : Arriving → Check → State → Passed} (hm : s.meets p f.lead a) (he : f.lead ≠ .echo)
    (hact : ∀ t : State, s.Met t p dt → act a (f.outcome fcs) t = ⟨t.modTrk fun _ => trk, g⟩) :
    (s.elapse dt).receive p f fcs act = State.frameEnds { s with trk := trk } dt p f g fcs a.out (!a.writes.isEmpty) := by
  refine State.receive_ends hm he rfl fun gap c hg => ?_
  rw [hact _ ⟨⟨gap, by simp, hg⟩, by simp, by simp⟩, State.modTrk_modUnit]
  rfl

/-- The same of a frame that the publish unit does not write into. -/
theorem State.receive_moves_unwritten {s : State} {dt : Nat} {p : Port} {f g : Frame} {fcs : Option Fcs} {a : Arriving}
    {trk : Tracker} {act : Arriving → Check → State → Passed} (hm : s.meets p f.lead a) (he : f.lead ≠ .echo)
    (hw : ∀ n, f.lead ≠ .block n)
    (hact : ∀ t : State, s.Met t p dt → act a (f.outcome fcs) t = ⟨t.modTrk fun _ => trk, g⟩) :
    (s.elapse dt).receive p f fcs act = State.frameEnds { s with trk := trk } dt p f g fcs a.out false := by
  rw [State.receive_moves hm he hact, hm.unwritten hw]

/-! ### A frame that the tracker does not see -/

/-- The end of a frame that was not seen as it began: it is counted, and not sent (R2, R143). -/
theorem State.receive_unseenBegun {s : State} {p : Port} {f : Frame} {fcs : Option Fcs} {v : Bool}
    {act : Arriving → Check → State → Passed} (hb : s.ctl.tapState ≠ .bypass)
    (ha : (s.unit p).arriving = some ⟨f.lead, false, none, v, false, [], none⟩)
    (hact : ∀ t, act ⟨f.lead, false, none, v, false, [], none⟩ (f.outcome fcs) t = ⟨t, f⟩) :
    s.receive p f fcs act =
      State.frameEnds
        { s with ctr := if v = true ∧ f.outcome fcs = .good then { s.ctr with overTurns := satInc s.ctr.overTurns } else s.ctr }
        0 p f f fcs none false := by
  have hlost : ∀ t : State, t.countLost ⟨f.lead, false, none, v, false, [], none⟩ (f.outcome fcs) = t := fun t => by
    simp [State.countLost]
  simp only [State.receive, State.inBypass_eq_false hb, Bool.false_eq_true, if_false, State.arrived, ha, if_true, hact, hlost,
    State.forward, State.frameEnds_dropped, State.countFrame, State.countPort, State.modUnit_modUnit, PortUnit.count]
  congr 1
  split <;> cases p <;> rfl

/-- A HEADER's beginning is judged afresh, whatever the discard (R143). -/
theorem State.arrivalOf_afresh (s : State) (p : Port) (n : BitVec 2) :
    (s.modUnit p fun u => { u with discard := false }).arrivalOf p (.header n) = s.arrivalOf p (.header n) := by
  cases p <;> rfl

theorem State.beginArrival_afresh (s : State) (p : Port) (n : BitVec 2) :
    (s.modUnit p fun u => { u with discard := false }).beginArrival p (.header n) = s.beginArrival p (.header n) := by
  unfold State.beginArrival
  rw [State.arrivalOf_afresh]
  cases p <;> rfl

theorem State.receive_afresh {s : State} {p : Port} (hb : s.ctl.tapState ≠ .bypass) (ha : (s.unit p).arriving = none)
    (f : HeaderFrame) (fcs : Option Fcs) (act : Arriving → Check → State → Passed) :
    (s.modUnit p fun u => { u with discard := false }).receive p (.header f) fcs act = s.receive p (.header f) fcs act := by
  have hl : Frame.lead (.header f) = .header (f.turn.extractLsb' 0 2) := rfl
  rw [State.receive_whole (s.modUnit p _) p _ _ _ (by simpa using hb) (by simpa using ha), State.receive_whole s p _ _ _ hb ha,
    hl, State.arrivalOf_afresh, State.beginArrival_afresh]

/-! ### HEADERs -/

/-- With no train in progress a HEADER with a stomped or bad check only arms the gap timer, where the record is the port's. -/
theorem State.trackHeader_badIdle {t : State} {p : Port} {f : HeaderFrame} {c : Check} (hr : ∀ q, t.trk.record ≠ .inTrain q)
    (hc : c ≠ .good) : t.trackHeader p f c = t.armGap p := by
  unfold State.trackHeader
  split
  · rename_i q hq
    exact absurd hq (hr q)
  · rename_i hi
    rw [if_neg hc, State.armGap_elsewhere (by simp [TrainRecord.port, hi])]
  · rw [if_neg hc]

/-- A good HEADER of the last processed cycle begins a PASSING record (R22, R23). -/
theorem State.trackHeader_passing {t : State} {p : Port} {f : HeaderFrame} (hr : ∀ q, t.trk.record ≠ .inTrain q)
    (hn : t.newCycle f = false) :
    t.trackHeader p f .good =
      t.modTrk fun x =>
        { x with
          record := .passing p, expected := none, defect := false, blocks := f.blocks, containers := f.containers
          gapTimer := some (t.now + 100) } := by
  rw [State.trackHeader_takes hr, State.takeHeader, hn, if_neg (by decide), State.beginPassing, State.modTrk_armGap rfl]

/-- An over-turned HEADER is not seen (R143). -/
theorem State.overTurns_iff (s : State) (p : Port) (n : BitVec 2) :
    s.overTurns p (.header n) = true ↔ (s.unit p).inService = true ∧ s.route p = some p ∧ n = 3#2 := by
  simp [State.overTurns, State.turns, and_assoc]

/-- Settles O14. -/
theorem headersThatBeginNoFirstPass : Obligations.HeadersThatBeginNoFirstPass := by
  refine ⟨fun dt p f a s hm hr => ⟨fun hv hc => ?_, fun fcs hbad => ⟨fun hp => ?_, fun hp => ?_⟩⟩,
    fun dt p f fcs s hb => ⟨fun ha hin => ⟨fun h3 hro => ?_, fun _ => ?_⟩, fun ha => ?_⟩⟩
  · refine congrArg Host.Outcome.next (State.receive_moves_unwritten (f := .header f) hm (by simp [Frame.lead])
      (by simp [Frame.lead]) fun t ht => ?_)
    obtain ⟨gap, htrk, -⟩ := ht.trk
    rw [outcome_good, passHeader, hm.seen, if_pos rfl,
      State.trackHeader_passing (by rw [ht.record]; exact hr) (by simp [State.newCycle, htrk, hv, hc]), ht.now]
    exact congrArg (Passed.mk · _) (State.modTrk_congr (by simp only [htrk]))
  · have hport : s.trk.record.port ≠ some p := by
      intro h
      cases hx : s.trk.record with
      | idle => simp [hx, TrainRecord.port] at h
      | inTrain q => exact hr q hx
      | passing q =>
        rw [hx] at h hp
        cases h
        exact hp rfl
    refine congrArg Host.Outcome.next (State.receive_moves_unwritten (trk := s.trk) (f := .header f) hm (by simp [Frame.lead])
      (by simp [Frame.lead]) fun t ht => ?_)
    have htrk := ht.trk_elsewhere hport
    rw [passHeader, hm.seen, if_pos rfl, State.trackHeader_badIdle (by rw [htrk]; exact hr) hbad,
      State.armGap_elsewhere (by rw [htrk]; exact hport)]
    rw [← htrk]
    rfl
  · refine congrArg Host.Outcome.next (State.receive_moves_unwritten (f := .header f) hm (by simp [Frame.lead])
      (by simp [Frame.lead]) fun t ht => ?_)
    obtain ⟨gap, htrk, -⟩ := ht.trk
    rw [passHeader, hm.seen, if_pos rfl, State.trackHeader_badIdle (by rw [ht.record]; exact hr) hbad,
      State.armGap_at (by rw [ht.record, hp]; rfl), ht.now]
    exact congrArg (Passed.mk · _) (State.modTrk_congr (by simp only [htrk]))
  · have hv : (s.elapse dt).overTurns p (.header (f.turn.extractLsb' 0 2)) = true :=
      (State.overTurns_iff _ _ _).mpr ⟨by simpa using hin, by simpa using hro, h3⟩
    have hs : (s.elapse dt).sees p (.header (f.turn.extractLsb' 0 2)) = false := by simp [State.sees, State.discards, hv]
    have hseen : ((s.elapse dt).arrivalOf p (.header (f.turn.extractLsb' 0 2))).seen = false := hs
    have hout : ((s.elapse dt).arrivalOf p (.header (f.turn.extractLsb' 0 2))).out = none := by simp [State.arrivalOf, hs]
    refine congrArg Host.Outcome.next ((State.receive_unseen (f := .header f) (s := s.elapse dt) hb (by simpa using ha) hs
      fun t => ?_).trans ?_)
    · simp only [Frame.lead, passHeader, hseen, hout, Bool.false_eq_true, if_false, reduceCtorEq]
    · simp only [Frame.lead, State.discardAfter, hv, true_and]
      cases p <;> rfl
  · refine congrArg Host.Outcome.next ?_
    have ht : (s.modUnit p fun u => { u with discard := false }).elapse dt =
        (s.elapse dt).modUnit p fun u => { u with discard := false } := by cases p <;> rfl
    rw [ht, State.receive_afresh (s := s.elapse dt) hb (by simpa using ha)]
  · refine congrArg Host.Outcome.next ((State.receive_unseenBegun (f := .header f) (s := s.elapse dt) hb
      (by simpa [Frame.lead] using ha) fun t => ?_).trans ?_)
    · simp [passHeader]
    · simp only [true_and]
      rfl

end Sys2Proof.Machine
end

section
/-! PROOFS. Frames that are not acted on: out of place (R26, R27), in other records (R11, R23, R29), not seen (R2, R143). -/

namespace Sys2Proof.Machine

/-! ### Good frames of a train, out of place -/

/-- The tracker after a good BLOCK n of the train, capture apart (R26). -/
def Tracker.blockPassed (t : Tracker) (n : Nat) : Tracker :=
  match t.expected with
  | some (.block k) =>
    if n = k then { t with expected := some (afterBlock t.blocks t.containers k) }
    else if k < n ∧ n < t.blocks.toNat then { t with defect := true, expected := some (afterBlock t.blocks t.containers n) }
    else { t with defect := true }
  | some (.container _) => { t with defect := true }
  | some .roll => { t with defect := true }
  | some .unordered => t
  | none => t

/-- The tracker after a good CONTAINER i of the train that is not the expected one (R27). -/
def Tracker.containerPassed (t : Tracker) (i : Nat) : Tracker :=
  match t.expected with
  | some .unordered => t
  | none => t
  | some x =>
    if i < t.containers.toNat ∧ x.before i then { t with defect := true, expected := some (afterContainer t.containers i) }
    else { t with defect := true }

/-- A good BLOCK that is not captured moves the tracker alone. -/
theorem State.goodBlock_passed {s : State} {f : BlockFrame} {capture : Bool}
    (h : capture = false ∨ s.trk.expected ≠ some (.block f.number.toNat)) :
    s.goodBlock f capture = s.modTrk fun t => t.blockPassed f.number.toNat := by
  have tracked : ∀ (g : Tracker → Tracker), g s.trk = s.trk.blockPassed f.number.toNat →
      s.modTrk g = s.modTrk fun t => t.blockPassed f.number.toNat := fun g hg => State.modTrk_congr hg
  unfold State.goodBlock
  dsimp only
  split
  · rename_i k hx
    split
    · rename_i hk
      have hcap : capture = false := h.resolve_right fun hn => hn (by rw [hx, hk])
      rw [hcap]
      exact tracked _ (by simp [Tracker.blockPassed, hx, hk])
    · rename_i hk
      split
      · rename_i hkn
        exact tracked (fun t => { t with defect := true, expected := some (afterBlock t.blocks t.containers f.number.toNat) })
          (by simp [Tracker.blockPassed, hx, hk, hkn])
      · rename_i hkn
        exact tracked _ (by simp [Tracker.blockPassed, hx, hk, hkn])
  · rename_i hx
    exact tracked _ (by simp [Tracker.blockPassed, hx])
  · rename_i hx
    exact tracked _ (by simp [Tracker.blockPassed, hx])
  · rename_i hx
    exact tracked id (by simp [Tracker.blockPassed, hx])
  · rename_i hx
    exact tracked id (by simp [Tracker.blockPassed, hx])

/-- A good CONTAINER that is not the expected one moves the tracker alone. -/
theorem State.goodContainer_passed {s : State} {f : ContainerFrame} (h : s.trk.expected ≠ some (.container f.index.toNat)) :
    s.goodContainer f = ⟨s.modTrk fun t => t.containerPassed f.index.toNat, f⟩ := by
  have tracked : ∀ (g : Tracker → Tracker), g s.trk = s.trk.containerPassed f.index.toNat →
      (⟨s.modTrk g, f⟩ : Handled) = ⟨s.modTrk fun t => t.containerPassed f.index.toNat, f⟩ :=
    fun g hg => congrArg (Handled.mk · f) (State.modTrk_congr hg)
  unfold State.goodContainer
  dsimp only
  split
  · rename_i hx
    exact tracked id (by simp [Tracker.containerPassed, hx])
  · rename_i hx
    exact tracked id (by simp [Tracker.containerPassed, hx])
  · rename_i x hu hx
    rw [if_neg fun e => h (by rw [hx, e])]
    split
    · rename_i hi
      refine tracked (fun t => { t with defect := true, expected := some (afterContainer t.containers f.index.toNat) }) ?_
      cases x <;> simp_all [Tracker.containerPassed]
    · rename_i hi
      refine tracked _ ?_
      cases x <;> simp_all [Tracker.containerPassed]

/-- What passes does not read the gap timer. -/
theorem Tracker.blockPassed_gapTimer (t : Tracker) (n : Nat) (g : Option Nat) :
    { t with gapTimer := g }.blockPassed n = { t.blockPassed n with gapTimer := g } := by
  unfold Tracker.blockPassed
  dsimp only
  repeat' split
  all_goals rfl

theorem Tracker.containerPassed_gapTimer (t : Tracker) (i : Nat) (g : Option Nat) :
    { t with gapTimer := g }.containerPassed i = { t.containerPassed i with gapTimer := g } := by
  unfold Tracker.containerPassed
  dsimp only
  repeat' split
  all_goals rfl

theorem Tracker.blockPassed_record (t : Tracker) (n : Nat) : (t.blockPassed n).record = t.record := by
  unfold Tracker.blockPassed
  repeat' split
  all_goals rfl

theorem Tracker.containerPassed_record (t : Tracker) (i : Nat) : (t.containerPassed i).record = t.record := by
  unfold Tracker.containerPassed
  repeat' split
  all_goals rfl

theorem State.published_number (s : State) (f : BlockFrame) (w : List SegWrite) : (s.published f w).number = f.number := by
  unfold State.published
  split <;> rfl

/-- A good BLOCK of the train that is not captured. -/
theorem exec_block_passed {s : State} {p : Port} {f : BlockFrame} {a : Arriving} (dt : Nat) (hm : s.meets p (.block f.number) a)
    (hr : s.trk.record = .inTrain p) (h : a.capture = false ∨ s.trk.expected ≠ some (.block f.number.toNat)) :
    exec (.block dt p f (some (Frame.check (.block f)))) s =
      .next (State.frameEnds { s with trk := { s.trk.blockPassed f.number.toNat with gapTimer := some (s.now + dt + 100) } } dt p
        (.block f) (.block (s.published f a.writes)) (some (Frame.check (.block f))) a.out (!a.writes.isEmpty)) := by
  refine congrArg Host.Outcome.next (State.receive_moves (f := .block f) hm (by simp [Frame.lead]) fun t ht => ?_)
  obtain ⟨gap, htrk, -⟩ := ht.trk
  have hrec : t.trk.record = .inTrain p := ht.record.trans hr
  rw [outcome_good, passBlock, hm.seen, if_pos rfl, State.published_congr ht.rst, State.trackBlock, if_pos hrec, if_pos rfl,
    State.goodBlock_passed (h.imp_right fun hx => by simpa only [State.published_number, htrk] using hx),
    State.modTrk_armGap (by rw [Tracker.blockPassed_record, hrec]; rfl), ht.now, State.published_number]
  exact congrArg (Passed.mk · _) (State.modTrk_congr (by rw [htrk, Tracker.blockPassed_gapTimer]))

/-- A good CONTAINER of the train that is not the expected one. -/
theorem exec_container_passed {s : State} {p : Port} {f : ContainerFrame} {a : Arriving} (dt : Nat) (hm : s.meets p .container a)
    (hr : s.trk.record = .inTrain p) (h : s.trk.expected ≠ some (.container f.index.toNat)) :
    exec (.container dt p f (some (Frame.check (.container f)))) s =
      .next (State.frameEnds { s with trk := { s.trk.containerPassed f.index.toNat with gapTimer := some (s.now + dt + 100) } } dt p
        (.container f) (.container f) (some (Frame.check (.container f))) a.out (!a.writes.isEmpty)) := by
  refine congrArg Host.Outcome.next (State.receive_moves (f := .container f) hm (by simp [Frame.lead]) fun t ht => ?_)
  obtain ⟨gap, htrk, -⟩ := ht.trk
  have hrec : t.trk.record = .inTrain p := ht.record.trans hr
  rw [outcome_good, passContainer, if_pos hm.seen, State.trackContainer, if_pos hrec, if_pos rfl,
    State.goodContainer_passed (by rw [htrk]; exact h)]
  dsimp only [State.handled]
  rw [State.modTrk_armGap (by rw [Tracker.containerPassed_record, hrec]; rfl), ht.now]
  exact congrArg (Passed.mk · _) (State.modTrk_congr (by rw [htrk, Tracker.containerPassed_gapTimer]))

/-! ### Frames of other records -/

/-- A frame other than HEADER and ROLL arms the gap timer of a record that is not a train, and does nothing else (R23, R30). -/
theorem State.Met.arms {s t : State} {p : Port} {dt : Nat} (h : s.Met t p dt) (hr : s.trk.record.port = some p) :
    t.armGap p = t.modTrk fun _ => { s.trk with gapTimer := some (s.now + dt + 100) } := by
  obtain ⟨gap, htrk, -⟩ := h.trk
  rw [State.armGap_at (by rw [h.record, hr]), h.now]
  exact State.modTrk_congr (by simp only [htrk])

theorem State.Met.stays {s t : State} {p : Port} {dt : Nat} (h : s.Met t p dt) (hr : s.trk.record.port ≠ some p) :
    t.armGap p = t.modTrk fun _ => s.trk := by
  have htrk := h.trk_elsewhere hr
  rw [State.armGap_elsewhere (by rw [htrk]; exact hr), ← htrk]
  rfl

/-- Where the record is no train of the port, a BLOCK, a CONTAINER and a frame of unknown kind do to the tracker what their end
does to the gap timer (R11, R23, R29). -/
theorem passes_noTrain {s t : State} {p : Port} {dt : Nat} {a : Arriving} {trk : Tracker} (hs : a.seen = true)
    (hn : s.trk.record ≠ .inTrain p) (h : s.Met t p dt) (ha : t.armGap p = t.modTrk fun _ => trk) (c : Check) :
    (∀ f, passBlock p f a c t = ⟨t.modTrk fun _ => trk, .block (s.published f a.writes)⟩) ∧
      (∀ f, passContainer p f a c t = ⟨t.modTrk fun _ => trk, .container f⟩) ∧
      ∀ f, passUnknown p f a c t = ⟨t.modTrk fun _ => trk, .unknown f⟩ := by
  have hnt : t.trk.record ≠ .inTrain p := by rwa [h.record]
  refine ⟨fun f => ?_, fun f => ?_, fun f => ?_⟩
  · simp only [passBlock, hs, if_true, State.trackBlock, if_neg hnt, State.published_congr h.rst, ha]
  · simp only [passContainer, hs, if_true, State.trackContainer, if_neg hnt, ha, State.handled]
  · simp only [passUnknown, hs, if_true, State.trackUnknown, if_neg hnt, ha]

/-- A ROLL of which no sample is taken leaves as it came (R125). -/
theorem passRoll_unsampled {t : State} {p : Port} {a : Arriving} (hs : a.seen = true) (hx : a.roll = none) (c : Check)
    (f : RollFrame) : passRoll p f a c t = ⟨t.endAtRoll p f c, .roll f⟩ := by
  simp only [passRoll, hs, if_true, State.trackRoll, State.takeRoll, hx]

theorem State.endAtRoll_passing {t : State} {p : Port} (hr : t.trk.record = .passing p) (f : RollFrame) (c : Check) :
    t.endAtRoll p f c = t.modTrk fun x => { x with record := .idle, expected := none, defect := false, gapTimer := none } := by
  simp only [State.endAtRoll, hr, if_true]
  rfl

theorem State.endAtRoll_elsewhere {t : State} {p : Port} (hr : t.trk.record.port ≠ some p) (f : RollFrame) (c : Check) :
    t.endAtRoll p f c = t := by
  unfold State.endAtRoll
  split
  · rename_i q hq
    exact if_neg fun e => hr (by rw [hq, e]; rfl)
  · rename_i q hq
    exact if_neg fun e => hr (by rw [hq, e]; rfl)
  · rfl

/-! ### Frames that are not seen -/

/-- What makes a frame other than HEADER and ECHO unseen leaves the port's discard as it is (R2, R143). -/
theorem State.passesBy.ends {s : State} {p : Port} {f : Frame} {fcs : Option Fcs} {act : Arriving → Check → State → Passed}
    (dt : Nat)
    (hp : s.passesBy p f.lead
      ((s.unit p).inService = true ∧ (s.unit p).discard = true ∨ (s.unit p).inService = false))
    (hh : ∀ n, f.lead ≠ .header n) (hact : ∀ a c t, a.seen = false → a.writes = [] → act a c t = ⟨t, f⟩) :
    (s.elapse dt).receive p f fcs act = s.frameEnds dt p f f fcs none false := by
  obtain ⟨hb, ha | ⟨ha, hw⟩⟩ := hp
  · refine (State.receive_unseenBegun (s := s.elapse dt) hb (by simpa using ha) fun t => hact _ _ _ rfl rfl).trans ?_
    simp only [Bool.false_eq_true, false_and, if_false]
    rfl
  · have hdis : (s.elapse dt).discards p f.lead = (s.unit p).discard ∧ (s.elapse dt).discardAfter p f.lead = (s.unit p).discard := by
      cases hl : f.lead with
      | header n => exact absurd hl (hh n)
      | _ => simp [State.discards, State.discardAfter]
    have hv : (s.elapse dt).overTurns p f.lead = false := by
      simp [State.overTurns, hh]
    have hs : (s.elapse dt).sees p f.lead = false := by
      rw [State.sees, hdis.1, State.unit_elapse]
      rcases hw with ⟨-, hd⟩ | hin
      · simp [hd]
      · simp [hin]
    have hw : ((s.elapse dt).arrivalOf p f.lead).writes = [] := by
      cases hl : f.lead <;> simp [State.arrivalOf, State.handsOn, ← hl, hs]
    refine (State.receive_unseen (s := s.elapse dt) hb (by simpa using ha) hs fun t => hact _ _ _ hs hw).trans ?_
    rw [hv, hdis.2]
    simp only [Bool.false_eq_true, false_and, if_false]
    cases p <;> rfl

/-- A HEADER at a port that is not in service is not seen, and ends a discard as it begins (R2, R143). -/
theorem State.passesBy.header_ends {s : State} {p : Port} {f : HeaderFrame} (dt : Nat) (fcs : Option Fcs)
    (hp : s.passesBy p (.header (f.turn.extractLsb' 0 2)) ((s.unit p).inService = false)) :
    (s.elapse dt).receive p (.header f) fcs (passHeader p f) =
      State.frameEnds (s.modUnit p fun u => { u with discard := if u.arriving = none then false else u.discard }) dt p (.header f)
        (.header f) fcs none false := by
  obtain ⟨hb, ha | ⟨ha, hin⟩⟩ := hp
  · refine (State.receive_unseenBegun (f := .header f) (s := s.elapse dt) hb (by simpa [Frame.lead] using ha) fun t => ?_).trans ?_
    · simp [passHeader]
    · have hkeep : (s.modUnit p fun u => { u with discard := if u.arriving = none then false else u.discard }) = s := by
        refine (State.modUnit_congr (g := fun u => u) ?_).trans (State.modUnit_id s p)
        rw [if_neg (by simp [ha])]
      rw [hkeep]
      simp only [Bool.false_eq_true, false_and, if_false]
      rfl
  · have hv : (s.elapse dt).overTurns p (.header (f.turn.extractLsb' 0 2)) = false := by simp [State.overTurns, hin]
    have hs : (s.elapse dt).sees p (.header (f.turn.extractLsb' 0 2)) = false := by simp [State.sees, hin]
    have hseen : ((s.elapse dt).arrivalOf p (.header (f.turn.extractLsb' 0 2))).seen = false := hs
    have hout : ((s.elapse dt).arrivalOf p (.header (f.turn.extractLsb' 0 2))).out = none := by simp [State.arrivalOf, hs]
    refine (State.receive_unseen (f := .header f) (s := s.elapse dt) hb (by simpa using ha) hs fun t => ?_).trans ?_
    · simp only [Frame.lead, passHeader, hseen, hout, Bool.false_eq_true, if_false, reduceCtorEq]
    · have hdis : (s.modUnit p fun u => { u with discard := if u.arriving = none then false else u.discard }) =
          s.modUnit p fun u => { u with discard := false } := State.modUnit_congr (by simp [ha])
      rw [hdis]
      simp only [Frame.lead, State.discardAfter, hv, Bool.false_eq_true, false_and, if_false]
      cases p <;> rfl

/-- Settles O20. -/
theorem framesOutOfPlace : Obligations.FramesOutOfPlace := by
  refine ⟨fun dt p a s => ⟨fun hr => ⟨fun f x hx => ?_, fun f x hx => ?_⟩, fun hr fcs => ?_, fun hr fcs => ?_⟩,
    fun dt p fcs s => ⟨⟨fun f hp => ?_, fun f hp => ?_, fun f hp => ?_, fun f hp => ?_⟩, fun f hp => ?_⟩⟩
  · have passed : ∀ trk : Tracker, { s.trk.blockPassed f.number.toNat with gapTimer := some (s.now + dt + 100) } = trk →
        (a.capture = false ∨ x ≠ .block f.number.toNat) → s.meets p (.block f.number) a →
        exec (.block dt p f (some (Frame.check (.block f)))) s =
          .next (State.frameEnds { s with trk := trk } dt p
            (.block f) (.block (s.published f a.writes)) (some (Frame.check (.block f))) a.out (!a.writes.isEmpty)) := by
      rintro trk rfl h hm
      exact exec_block_passed dt hm hr (h.imp_right fun hne e => hne (Option.some.inj (hx.symm.trans e)))
    refine ⟨fun k hk hlt hb => ?_, fun k hk hlt => ?_, fun k hk => ?_, fun hk => ?_, fun hk => ?_, fun hk hc => ?_⟩
    · refine passed _ ?_ (.inr (by rw [hk]; intro e; cases e; omega))
      simp only [Tracker.blockPassed, hx, hk, if_neg (show ¬f.number.toNat = k by omega), if_pos (And.intro hlt hb),
        afterBlock_eq]
    · refine passed _ ?_ (.inr (by rw [hk]; intro e; cases e; omega))
      simp only [Tracker.blockPassed, hx, hk, if_neg (show ¬f.number.toNat = k by omega),
        if_neg (show ¬(k < f.number.toNat ∧ f.number.toNat < s.trk.blocks.toNat) by omega)]
    · exact passed _ (by simp only [Tracker.blockPassed, hx, hk]) (.inr (by simp [hk]))
    · exact passed _ (by simp only [Tracker.blockPassed, hx, hk]) (.inr (by simp [hk]))
    · exact passed _ (by simp only [Tracker.blockPassed, hx, hk]) (.inr (by simp [hk]))
    · exact passed _ (by simp only [Tracker.blockPassed, hx, hk, if_true, afterBlock_eq]) (.inl hc)
  · have passed : ∀ trk : Tracker,
        { s.trk.containerPassed f.index.toNat with gapTimer := some (s.now + dt + 100) } = trk → x ≠ .container f.index.toNat →
        s.meets p .container a →
        exec (.container dt p f (some (Frame.check (.container f)))) s =
          .next (State.frameEnds { s with trk := trk } dt p
            (.container f) (.container f) (some (Frame.check (.container f))) a.out (!a.writes.isEmpty)) := by
      rintro trk rfl h hm
      exact exec_container_passed dt hm hr fun e => h (Option.some.inj (hx.symm.trans e))
    refine ⟨fun k hk hi => ?_, fun k hk hi => ?_, fun k hk hlt hi => ?_, fun k hk hlt => ?_, fun hk => ?_, fun hk => ?_⟩
    · exact passed _ (by simp [Tracker.containerPassed, hx, hk, Position.before, hi, afterContainer]) (by simp [hk])
    · exact passed _ (by simp [Tracker.containerPassed, hx, hk, Position.before, Nat.not_lt.mpr hi]) (by simp [hk])
    · exact passed _ (by simp [Tracker.containerPassed, hx, hk, Position.before, hlt, hi, afterContainer])
        (by rw [hk]; intro e; cases e; omega)
    · refine passed _ ?_ (by rw [hk]; intro e; cases e; omega)
      simp only [Tracker.containerPassed, hx, hk, Position.before, decide_eq_true_eq,
        if_neg (show ¬(f.index.toNat < s.trk.containers.toNat ∧ k < f.index.toNat) by omega)]
    · exact passed _ (by simp [Tracker.containerPassed, hx, hk, Position.before]) (by simp [hk])
    · exact passed _ (by simp only [Tracker.containerPassed, hx, hk]) (by simp [hk])
  · have hport : s.trk.record.port = some p := by rw [hr]; rfl
    have hn : s.trk.record ≠ .inTrain p := by simp [hr]
    refine ⟨fun f hm => ?_, fun f hm => ?_, fun f hm => ?_, fun f hx hm => ?_⟩
    · exact congrArg Host.Outcome.next (State.receive_moves (f := .block f) hm (by simp [Frame.lead]) fun t ht =>
        (passes_noTrain hm.seen hn ht (ht.arms hport) _).1 f)
    · exact congrArg Host.Outcome.next (State.receive_moves (f := .container f) hm (by simp [Frame.lead]) fun t ht =>
        (passes_noTrain hm.seen hn ht (ht.arms hport) _).2.1 f)
    · exact congrArg Host.Outcome.next (State.receive_moves (f := .unknown f) hm (by simp [Frame.lead]) fun t ht =>
        (passes_noTrain hm.seen hn ht (ht.arms hport) _).2.2 f)
    · refine congrArg Host.Outcome.next (State.receive_moves (f := .roll f) hm (by simp [Frame.lead]) fun t ht => ?_)
      obtain ⟨gap, htrk, -⟩ := ht.trk
      rw [passRoll_unsampled hm.seen hx, State.endAtRoll_passing (ht.record.trans hr)]
      exact congrArg (Passed.mk · _) (State.modTrk_congr (by simp only [htrk]))
  · have hn : s.trk.record ≠ .inTrain p := fun e => hr (by rw [e]; rfl)
    refine ⟨fun f hm => ?_, fun f hm => ?_, fun f hx hm => ?_, fun f hm => ?_⟩
    · exact congrArg Host.Outcome.next (State.receive_moves (trk := s.trk) (f := .block f) hm (by simp [Frame.lead]) fun t ht =>
        (passes_noTrain hm.seen hn ht (ht.stays hr) _).1 f)
    · exact congrArg Host.Outcome.next (State.receive_moves (trk := s.trk) (f := .container f) hm (by simp [Frame.lead]) fun t ht =>
        (passes_noTrain hm.seen hn ht (ht.stays hr) _).2.1 f)
    · refine congrArg Host.Outcome.next (State.receive_moves (trk := s.trk) (f := .roll f) hm (by simp [Frame.lead]) fun t ht => ?_)
      have htrk := ht.trk_elsewhere hr
      rw [passRoll_unsampled hm.seen hx, State.endAtRoll_elsewhere (by rw [htrk]; exact hr), ← htrk]
      rfl
    · exact congrArg Host.Outcome.next (State.receive_moves (trk := s.trk) (f := .unknown f) hm (by simp [Frame.lead]) fun t ht =>
        (passes_noTrain hm.seen hn ht (ht.stays hr) _).2.2 f)
  · exact congrArg Host.Outcome.next (hp.ends (f := .block f) dt (by simp [Frame.lead]) fun a c t hs hw => by
      simp [passBlock, hs, State.published, hw])
  · exact congrArg Host.Outcome.next (hp.ends (f := .container f) dt (by simp [Frame.lead]) fun a c t hs _ => by
      simp [passContainer, hs])
  · exact congrArg Host.Outcome.next (hp.ends (f := .roll f) dt (by simp [Frame.lead]) fun a c t hs _ => by simp [passRoll, hs])
  · exact congrArg Host.Outcome.next (hp.ends (f := .unknown f) dt (by simp [Frame.lead]) fun a c t hs _ => by
      simp [passUnknown, hs])
  · exact congrArg Host.Outcome.next (hp.header_ends dt fcs)

end Sys2Proof.Machine
end

section
/-! PROOFS. A ROLL that ends the train in progress (R28, R125 to R127, R131), and a CONTAINER at its expected index (R84). -/

namespace Sys2Proof.Machine

/-! ### ROLL -/

/-- The frame of a ROLL of which a sample was taken: with the entry unless it is malformed, whatever its check (R126). -/
theorem State.takeRoll_frame (s : State) (x : RollSample) (f : RollFrame) (c : Check) :
    (s.takeRoll (some x) f c).2 =
      if f.malformed = false ∧
          (rollDecision x.tapState s.rst.station f = .ownAppend ∨ rollDecision x.tapState s.rst.station f = .anonymousAppend) then
        { f with
          closed := f.closed.map RollEntry.cleaned
          openCount := f.openCount + 1
          slots := Vector.ofFn fun i =>
            if i.val = f.openCount.toNat then x.entry s.rst.station (rollDecision x.tapState s.rst.station f)
            else f.slots[i].cleaned }
      else f := by
  unfold State.takeRoll
  cases hf : f.malformed with
  | true => simp
  | false => simp [rollOut_eq]

/-- What each decision does (R127). -/
theorem State.rollEffect_eq (s : State) (d : RollDecision) (f : RollFrame) :
    s.rollEffect d f =
      match d with
      | .nothing => s
      | .duplicate => s.enterFaulted
      | .overflow => { s with ctr := { s.ctr with rollOverflows := satInc s.ctr.rollOverflows } }
      | .ownAppend | .anonymousAppend => { s with roll := { s.roll with upstream := upstreamOf f } } := by
  cases d <;> rfl

/-- The decision takes effect where the ROLL is well formed and good (R127). -/
theorem State.takeRoll_decides {f : RollFrame} (hf : f.malformed = false) (s : State) (x : RollSample) :
    (s.takeRoll (some x) f .good).1 = s.rollEffect (rollDecision x.tapState s.rst.station f) f := by
  simp [State.takeRoll, hf]

/-- A malformed ROLL, and one with a stomped or bad check, takes no decision. -/
theorem State.takeRoll_undecided {f : RollFrame} {c : Check} (h : f.malformed = true ∨ c ≠ .good) (s : State) (x : RollSample) :
    (s.takeRoll (some x) f c).1 = s := by
  unfold State.takeRoll
  rcases h with hf | hc
  · simp [hf]
  · simp only [if_neg hc]
    split <;> rfl

/-- A ROLL of the train in progress ends it (R28, R29). -/
theorem State.endAtRoll_inTrain {s : State} {p : Port} (hr : s.trk.record = .inTrain p) (f : RollFrame) (c : Check) :
    s.endAtRoll p f c = s.endTrain f c := by simp [State.endAtRoll, hr]

theorem State.endTrain_good {f : RollFrame} (hf : f.malformed = false) (s : State) :
    s.endTrain f .good = s.close s.rollClose (some f.closedRoll) := by simp [State.endTrain, hf]

theorem State.endTrain_defective {f : RollFrame} {c : Check} (h : f.malformed = true ∨ c ≠ .good) (s : State) :
    s.endTrain f c = s.close .defective none := by
  unfold State.endTrain
  rw [if_neg]
  rintro ⟨hc, hf⟩
  rcases h with h | h
  · simp [hf] at h
  · exact h hc

theorem State.rollClose_ne_missed (s : State) : s.rollClose ≠ .missed := by
  unfold State.rollClose
  split <;> simp

/-- A ROLL that ends the train with a decision: what is decided and closed does not read the port's counts (R127). -/
theorem passRoll_decided {s : State} {p : Port} {f : RollFrame} {a : Arriving} {x : RollSample} (hs : a.seen = true)
    (hx : a.roll = some x) (hr : s.trk.record = .inTrain p) (hf : f.malformed = false) (gap : Option Nat)
    (c : PortUnit → PortUnit) :
    passRoll p f a .good (State.modUnit { s with trk := { s.trk with gapTimer := gap } } p c) =
      ⟨((s.rollEffect (rollDecision x.tapState s.rst.station f) f).close s.rollClose (some f.closedRoll)).modUnit p c,
        .roll (s.takeRoll (some x) f .good).2⟩ := by
  generalize ht : State.modUnit { s with trk := { s.trk with gapTimer := gap } } p c = t
  have hrst : t.rst = s.rst := by simp [← ht]
  have heff : t.rollEffect (rollDecision x.tapState s.rst.station f) f =
      State.modUnit
        { s.rollEffect (rollDecision x.tapState s.rst.station f) f with
          trk := { (s.rollEffect (rollDecision x.tapState s.rst.station f) f).trk with gapTimer := gap } } p c := by
    rw [← ht]
    exact State.rollEffect_modUnit s _ f p c gap
  have hkind : (t.rollEffect (rollDecision x.tapState s.rst.station f) f).rollClose = s.rollClose := by
    simp [State.rollClose, ← ht]
  have hrec : (t.rollEffect (rollDecision x.tapState s.rst.station f) f).trk.record = .inTrain p := by simp [← ht, hr]
  have hframe : (t.takeRoll (some x) f .good).2 = (s.takeRoll (some x) f .good).2 := by
    simp only [State.takeRoll_frame, hrst]
  simp only [passRoll, hs, if_true, State.trackRoll, hx, hframe, State.takeRoll_decides hf, hrst,
    State.endAtRoll_inTrain hrec, State.endTrain_good hf, hkind]
  rw [heff, State.close_modUnit _ _ _ _ _ _ (State.rollClose_ne_missed s)]

/-- A ROLL that ends the train without a decision closes it DEFECTIVE (R28). -/
theorem passRoll_undecided {s : State} {p : Port} {f : RollFrame} {a : Arriving} {x : RollSample} {check : Check}
    (hs : a.seen = true) (hx : a.roll = some x) (hr : s.trk.record = .inTrain p) (hf : f.malformed = true ∨ check ≠ .good)
    (gap : Option Nat) (c : PortUnit → PortUnit) :
    passRoll p f a check (State.modUnit { s with trk := { s.trk with gapTimer := gap } } p c) =
      ⟨(s.close .defective none).modUnit p c, .roll (s.takeRoll (some x) f check).2⟩ := by
  have hrec : (State.modUnit { s with trk := { s.trk with gapTimer := gap } } p c).trk.record = .inTrain p := by simpa using hr
  have hframe : ((State.modUnit { s with trk := { s.trk with gapTimer := gap } } p c).takeRoll (some x) f check).2 =
      (s.takeRoll (some x) f check).2 := by simp only [State.takeRoll_frame, State.modUnit_rst]
  simp only [passRoll, hs, if_true, State.trackRoll, hx, hframe, State.takeRoll_undecided hf, State.endAtRoll_inTrain hrec,
    State.endTrain_defective hf]
  rw [State.close_modUnit s .defective none p c gap (by decide)]

/-- Settles O32. -/
theorem rollEndsTheTrain : Obligations.RollEndsTheTrain := by
  intro dt p f a x s hm hx hr d g decided kind ends defective
  have hm' : (s.elapse dt).meets p (Frame.lead (.roll f)) a := (State.meets_elapse s dt p _ a).mpr hm
  have hw := hm.unwritten (by simp)
  have frame (c : Check) : ((s.elapse dt).takeRoll (some x) f c).2 = g := State.takeRoll_frame _ _ _ _
  have effect : (s.elapse dt).rollEffect d f = decided := State.rollEffect_eq _ _ _
  have bad : ∀ fcs : Option Fcs, (f.malformed = true ∨ Frame.outcome (.roll f) fcs ≠ .good) → ends fcs g defective := by
    intro fcs h
    show exec _ _ = _
    rw [← frame (Frame.outcome (.roll f) fcs), ← hw]
    exact congrArg Host.Outcome.next (State.receive_frameEnds hm' (by simp [Frame.lead]) (State.close_restartPlaced _ _ _)
      fun gap c _ => passRoll_undecided (s := s.elapse dt) hm.seen hx hr h gap c)
  refine ⟨fun hf => ?_, fun hf => ?_, fun fcs hc => bad fcs (.inr hc)⟩
  · show exec _ _ = _
    rw [← frame .good, ← effect, ← hw]
    refine congrArg Host.Outcome.next (State.receive_frameEnds hm' (by simp [Frame.lead]) ?_ fun gap c _ => ?_)
    · rw [State.close_restartPlaced, State.restartPlaced, State.rollEffect_mgmt]
      rfl
    · rw [outcome_good]
      exact passRoll_decided (s := s.elapse dt) hm.seen hx hr hf gap c
  · have same : g = f := if_neg (by simp [hf])
    have := bad (some (Frame.check (.roll f))) (.inl hf)
    rwa [same] at this

/-! ### CONTAINER -/

/-- The tap as a good CONTAINER of the train at port `p` has been counted, `dt` after `s`, before it acts (R12, R30). -/
def State.containerMet (s : State) (dt : Nat) (p : Port) : State :=
  s.countedGood dt p (if (s.unit p).arriving = none then none else s.trk.gapTimer)

/-- A good CONTAINER at its expected index acts, and the position moves on (R27). -/
theorem State.goodContainer_expected {s : State} {f : ContainerFrame} (h : s.trk.expected = some (.container f.index.toNat)) :
    s.goodContainer f =
      ⟨(s.actOnContainer f).state.expect (afterContainer (s.actOnContainer f).state.trk.containers f.index.toNat),
        (s.actOnContainer f).frame⟩ := by
  unfold State.goodContainer
  simp only [h, if_true]
  rfl

/-- A good CONTAINER at its expected index leaves as its acting leaves it, and the port's window takes its outcome last. -/
theorem exec_container_expected {s : State} {dt : Nat} {p : Port} {f : ContainerFrame} {a : Arriving} {i : Fin 8} {r : Handled}
    (hm : s.meets p .container a) (hr : s.trk.record = .inTrain p) (hx : s.trk.expected = some (.container i.val))
    (hi : f.index.toNat = i.val) (hact : (s.containerMet dt p).actOnContainer f = r) :
    exec (.container dt p f (some (Frame.check (.container f)))) s =
      .next
        (State.windowAdd
          (State.leaves
            { r.state with
              trk :=
                { r.state.trk with
                  expected := some (if i.val + 1 < r.state.trk.containers.toNat then .container (i.val + 1) else .roll)
                  gapTimer := some (s.now + dt + 100) } }
            a.out (.whole (.container r.frame) (Frame.check (.container r.frame))) false
            (!s.restartPlaced && r.state.restartPlaced)) p false) := by
  have hline : (s.containerMet dt p).SameLine r.state := hact ▸ State.sameLine_actOnContainer _ f
  have hrec : r.state.trk.record = .inTrain p := by
    rw [hline.trk]
    simpa [State.containerMet, State.countedGood] using hr
  have hnow : r.state.now = s.now + dt := by
    rw [hline.now]
    simp [State.containerMet, State.countedGood]
  have hmet : State.modUnit
      { s.elapse dt with
        trk := { (s.elapse dt).trk with
          gapTimer := if ((s.elapse dt).unit p).arriving = none ∧ (s.elapse dt).trk.record.port = some p then none
            else (s.elapse dt).trk.gapTimer } }
      p (PortUnit.ended (.container f) .good) = s.containerMet dt p := by
    have hgap : (if ((s.elapse dt).unit p).arriving = none ∧ (s.elapse dt).trk.record.port = some p then none
        else (s.elapse dt).trk.gapTimer) = if (s.unit p).arriving = none then none else s.trk.gapTimer := by
      simp [hr, TrainRecord.port]
    rw [PortUnit.ended_good (by simp [Frame.lead]), hgap]
    rfl
  have hpass : passContainer p f a .good (s.containerMet dt p) =
      ⟨(r.state.expect (afterContainer r.state.trk.containers i.val)).modTrk fun t =>
        { t with gapTimer := some (s.now + dt + 100) }, .container r.frame⟩ := by
    have hin : (s.containerMet dt p).trk.record = .inTrain p := by simpa [State.containerMet, State.countedGood] using hr
    have hex : (s.containerMet dt p).trk.expected = some (.container f.index.toNat) := by
      rw [hi]
      simpa [State.containerMet, State.countedGood] using hx
    simp only [passContainer, hm.seen, if_true, State.trackContainer, hin, State.goodContainer_expected hex, hact, hi]
    rw [State.armGap_at (by rw [State.expect, State.modTrk_trk, hrec]; rfl)]
    simp only [State.expect, State.modTrk_now, hnow, State.handled]
  have hw : a.writes = [] := hm.2.2.2.2.1 (by simp)
  refine congrArg Host.Outcome.next ((State.receive_sendOff (f := .container f) ((State.meets_elapse s dt p _ a).mpr hm)
    (by simp [Frame.lead]) _ _).trans ?_)
  rw [outcome_good, hmet, hpass, Passed.sendOff, State.countLost_good, State.forward_leaves]
  simp only [hw, ne_eq, not_true, decide_false, Bool.false_and, reduceCtorEq]
  rfl

/-- The steps in their order, the fill step only where the container is then EMPTY (R84). -/
theorem State.containerSteps_eq (s : State) (t : TapState) (i : Fin 8) (f : ContainerFrame) :
    s.containerSteps t i f =
      let b := (s.outcomeStep i f).state.stripStep (s.outcomeStep i f).frame
      let c := b.state.deliveryStep b.frame
      let e : State × ContainerFrame :=
        if c.frame.isFull = true then (c.state.broadcastStep c.frame, c.frame)
        else (c.state.broadcastStep c.frame).fillStep t (b.state.takesRequest b.frame) i c.frame
      e.1.handled e.2 := by
  unfold State.containerSteps
  dsimp only
  split <;> rfl

theorem State.restartPlaced_bind (s : State) :
    s.restartPlaced = (s.mgmt.pendingRestart.bind fun y => y.placed).isSome := by
  unfold State.restartPlaced
  cases s.mgmt.pendingRestart <;> rfl

/-- Settles O21. -/
theorem containersPassThroughTheSteps : Obligations.ContainersPassThroughTheSteps := by
  intro dt p f a i s hm hr hx hi s0 o b took c d e placed passes
  have hplaced (t : State) : t.restartPlaced = placed t := t.restartPlaced_bind
  have acts : ∀ (t : State) (g : ContainerFrame), s0.actOnContainer f = t.handled g → passes t g (!placed s && placed t) := by
    intro t g h
    rw [← hplaced, ← hplaced]
    exact exec_container_expected hm hr hx hi h
  have hctl : s0.ctl = s.ctl := by simp [s0]
  have hmgmt : s0.mgmt = s.mgmt := by simp [s0]
  have hindex : Fin.ofNat 8 f.index.toNat = i := by
    rw [hi]
    exact Fin.ofNat_val_eq_self i
  refine ⟨fun hf ht => acts _ _ ?_, fun hf => ?_, fun hf ht => ?_⟩
  · have htakes : s0.ctl.tapState.takesContainers = true := by
      rw [takesContainers_iff, hctl]
      exact ht
    rw [State.actOnContainer, if_neg (by simp [hf]), if_pos htakes, hctl, hindex]
    exact State.containerSteps_eq _ _ _ _
  · have hpass := acts s0.countProtocolError f (by rw [State.actOnContainer, if_pos hf])
    have hnone : placed s0.countProtocolError = placed s := by
      show (s0.mgmt.pendingRestart.bind fun y => y.placed).isSome = _
      rw [hmgmt]
    rw [hnone, Bool.not_and_self] at hpass
    have hcount : s0.countProtocolError = { s0 with ctr := { s.ctr with protocolErrors := satInc s.ctr.protocolErrors } } := by
      have hctr : s0.ctr = s.ctr := by simp [s0]
      rw [← hctr]
      rfl
    rwa [hcount] at hpass
  · have hpass := acts s0 f (by rw [State.actOnContainer, if_neg (by simp [hf]), if_neg (by rw [hctl, ht]; decide)])
    have hnone : placed s0 = placed s := by simp only [placed, hmgmt]
    rwa [hnone, Bool.not_and_self] at hpass

end Sys2Proof.Machine
end

section
/-! PROOFS. A HEADER that begins a first pass (R6, R21, R25, R34): what the tracker records, and what an activation and the train's
preparation leave as it was. -/

namespace Sys2Proof.Machine

/-! ### What the preparation of a train leaves -/

/-- From `s` to `t` the tap has done what a first-pass header asks of its other blocks: it has sent nothing, and the tracker, the
counters, the stamp reference, the fill count, the inbound queue, the roll unit, the local port and the restart controller stand. -/
structure State.Prepares (s t : State) : Prop where
  now : t.now = s.now
  sent : t.sent = s.sent
  trk : t.trk = s.trk
  ctr : t.ctr = s.ctr
  ref : t.sig.ref = s.sig.ref
  fills : t.sched.fills = s.sched.fills
  inbound : t.inbound = s.inbound
  roll : t.roll = s.roll
  rst : t.rst = s.rst
  lsp : t.lsp = s.lsp
  counters : ∀ q, (t.unit q).counters = (s.unit q).counters
  tx : ∀ q, (t.unit q).tx = (s.unit q).tx

theorem State.Prepares.refl (s : State) : s.Prepares s :=
  ⟨rfl, rfl, rfl, rfl, rfl, rfl, rfl, rfl, rfl, rfl, fun _ => rfl, fun _ => rfl⟩

theorem State.Prepares.trans {s t u : State} (h : s.Prepares t) (k : t.Prepares u) : s.Prepares u where
  now := k.now.trans h.now
  sent := k.sent.trans h.sent
  trk := k.trk.trans h.trk
  ctr := k.ctr.trans h.ctr
  ref := k.ref.trans h.ref
  fills := k.fills.trans h.fills
  inbound := k.inbound.trans h.inbound
  roll := k.roll.trans h.roll
  rst := k.rst.trans h.rst
  lsp := k.lsp.trans h.lsp
  counters q := (k.counters q).trans (h.counters q)
  tx q := (k.tx q).trans (h.tx q)

theorem State.Prepares.foldl {α : Type} {g : State → α → State} (hg : ∀ (s : State) (x : α), s.Prepares (g s x)) (l : List α)
    (s : State) :
    s.Prepares (l.foldl g s) := by
  induction l generalizing s with
  | nil => exact .refl s
  | cons x l ih => exact (hg s x).trans (ih (g s x))

theorem State.prepares_modUnit (s : State) (p : Port) {c : PortUnit → PortUnit}
    (h : ∀ u, (c u).counters = u.counters ∧ (c u).tx = u.tx) : s.Prepares (s.modUnit p c) where
  now := by simp
  sent := by simp
  trk := by simp
  ctr := by simp
  ref := by simp
  fills := by simp
  inbound := by simp
  roll := by simp
  rst := by simp
  lsp := by simp
  counters q := by cases p <;> cases q <;> simp [State.modUnit, State.setUnit, State.unit, h]
  tx q := by cases p <;> cases q <;> simp [State.modUnit, State.setUnit, State.unit, h]

/-- A change of the other blocks alone. -/
theorem State.prepares_blocks {s t : State}
    (h : t = { s with
      ctl := t.ctl, mgmt := t.mgmt, subs := t.subs, rx := t.rx, pub := t.pub, sched := t.sched, sig := t.sig, att := t.att })
    (href : t.sig.ref = s.sig.ref) (hfills : t.sched.fills = s.sched.fills) : s.Prepares t := by
  rw [h]
  exact ⟨rfl, rfl, rfl, rfl, href, hfills, rfl, rfl, rfl, rfl, fun q => by cases q <;> rfl, fun q => by cases q <;> rfl⟩

theorem State.prepares_raise (s : State) (x : Source) : s.Prepares (s.raise x) :=
  State.prepares_blocks rfl (State.edgeSignals_ref s _) rfl

theorem State.prepares_setSticky (s : State) (c : Sticky) : s.Prepares (s.setSticky c) := State.prepares_blocks rfl rfl rfl

theorem State.prepares_ringChange (s : State) : s.Prepares s.ringChange :=
  (s.prepares_raise _).trans (State.prepares_setSticky _ _)

/-! ### The ports at an activation (R136, R142) -/

theorem State.prepares_refit (s : State) (p : Port) : s.Prepares (s.refit p) := by
  unfold State.refit
  dsimp only
  split
  · split
    · exact (s.prepares_modUnit p (c := fun u => { u with returnReady := true }) fun _ => ⟨rfl, rfl⟩).trans
        (State.prepares_ringChange _)
    · exact .refl s
  · exact s.prepares_modUnit p (c := fun u => { u with returnReady := false, returnAccepted := false }) fun _ => ⟨rfl, rfl⟩

theorem State.prepares_enterUp (s : State) (p : Port) : s.Prepares (s.enterUp p) :=
  ((s.prepares_modUnit p (c := fun u => { u with monitor := .up, window := [], qual := none }) fun _ => ⟨rfl, rfl⟩).trans
    (State.prepares_ringChange _)).trans (State.prepares_refit _ p)

theorem State.prepares_newPolicy (old : ReturnPolicy) (s : State) (p : Port) : s.Prepares (State.newPolicy old s p) := by
  unfold State.newPolicy
  split
  · exact s.prepares_modUnit p fun _ => ⟨rfl, rfl⟩
  · split
    · exact s.prepares_refit p
    · exact .refl s

theorem State.prepares_newQualification (s : State) (p : Port) : s.Prepares (s.newQualification p) := by
  unfold State.newQualification
  split
  · split
    · exact s.prepares_enterUp p
    · exact .refl s
  · exact .refl s

theorem State.prepares_activatePorts (s : State) (old : ReturnPolicy) : s.Prepares (s.activatePorts old) :=
  (State.Prepares.foldl (State.prepares_newPolicy old) bothPorts s).trans
    (State.Prepares.foldl State.prepares_newQualification bothPorts _)

/-! ### An activation, and the blocks at a header -/

theorem State.prepares_setTapState (s : State) (x : TapState) : s.Prepares (s.setTapState x) := by
  unfold State.setTapState
  split
  · exact .refl s
  · exact State.prepares_blocks rfl rfl rfl

theorem State.prepares_activateTapState (s : State) : s.Prepares s.activateTapState := by
  unfold State.activateTapState
  split
  · exact s.prepares_setTapState _
  · exact .refl s

theorem State.prepares_activate (s : State) (x : Session) : s.Prepares (s.activate x) := by
  unfold State.activate
  refine State.Prepares.trans ?_ (State.prepares_activatePorts _ _)
  refine State.Prepares.trans ?_ (State.prepares_blocks rfl rfl rfl)
  refine State.Prepares.trans ?_ (State.prepares_raise _ _)
  refine State.Prepares.trans ?_ (State.prepares_blocks (s := State.activateTapState _) rfl rfl rfl)
  refine State.Prepares.trans ?_ (State.prepares_activateTapState _)
  exact State.prepares_blocks rfl rfl rfl

theorem State.prepares_activateDue (s : State) (epoch : Byte) : s.Prepares (s.activateDue epoch) := by
  unfold State.activateDue
  split
  · exact s.prepares_activate _
  · exact .refl s

theorem State.prepares_publishHeader (s : State) : s.Prepares s.publishHeader := by
  have taken (t : State) (ht : s.Prepares t) :
      s.Prepares ((List.finRange 4).foldl (fun t p => if s.swaps p then t.raise (.postTaken p) else t) t) :=
    ht.trans (State.Prepares.foldl (fun t p => by split; exacts [t.prepares_raise _, .refl t]) _ t)
  unfold State.publishHeader
  split
  iterate 3 exact taken _ (State.prepares_blocks rfl rfl rfl)
  iterate 2 exact .refl s

theorem State.prepares_dueMailbox (h : HeaderFrame) (s : State) (m : Fin 8) : s.Prepares (State.dueMailbox h s m) := by
  have moved (x : MailboxState) : s.Prepares (s.setMailbox m x) := State.prepares_blocks rfl rfl rfl
  unfold State.dueMailbox
  split
  · split
    · exact (moved _).trans (State.prepares_raise _ _)
    · exact moved _
  · exact .refl s

/-- The fill count begins afresh, whatever it has been (R92). -/
def State.startFills (s : State) : State := { s with sched := { s.sched with fills := 0 } }

theorem State.Prepares.startFills {s t : State} (h : s.Prepares t) : s.startFills.Prepares t.startFills :=
  { h with fills := rfl }

theorem State.prepares_schedulerHeader (s : State) (h : HeaderFrame) : s.startFills.Prepares (s.schedulerHeader h) :=
  State.Prepares.foldl (State.prepares_dueMailbox h) _ _

/-! ### A first pass -/

/-- What a first-pass header records (R21, R25, R156), before the other blocks act. -/
def State.recordHeader (s : State) (p : Port) (f : HeaderFrame) : State :=
  let s1 :=
    if s.trk.discontinuous f then (s.count fun c => { c with discontinuities := satInc c.discontinuities }).setSticky .cycle else s
  let s2 := s1.modTrk fun t => t.firstPass p f s1.now
  { s2 with sig := { s2.sig with ref := some ⟨f.cycle, s2.now⟩ } }

/-- What the other blocks do for the train that begins (R22), in the order of assumption log 7. -/
def State.prepareTrain (s : State) (f : HeaderFrame) : State :=
  let s1 := (s.activateDue f.epoch).publishHeader
  (State.schedulerHeader { s1 with rx := s1.rx.map RxBank.startFill } f).raise .cycleStart

theorem State.prepares_prepareTrain (s : State) (f : HeaderFrame) : s.startFills.Prepares (s.prepareTrain f) := by
  have blocks : s.Prepares
      { (s.activateDue f.epoch).publishHeader with rx := (s.activateDue f.epoch).publishHeader.rx.map RxBank.startFill } :=
    ((s.prepares_activateDue f.epoch).trans (State.prepares_publishHeader _)).trans
      (State.prepares_blocks (s := (s.activateDue f.epoch).publishHeader) rfl rfl rfl)
  exact (blocks.startFills.trans (State.prepares_schedulerHeader _ f)).trans (State.prepares_raise _ _)

/-- The train has begun: the tracker takes the tap state (R49), and the gap timer is armed (R30). -/
def State.trainBegun (s : State) (p : Port) : State :=
  (s.modTrk fun x => { x with beganOnline := decide (s.ctl.tapState = .online) }).armGap p

theorem State.firstPass_eq (s : State) (p : Port) (f : HeaderFrame) :
    s.firstPass p f = ((s.recordHeader p f).prepareTrain f).trainBegun p := by
  show State.trainBegun _ p = _
  rfl

/-- The counter of discontinuities after a header (R25). -/
def State.continuity (s : State) (f : HeaderFrame) : TapCounters :=
  { s.ctr with
    discontinuities := if s.trk.discontinuous f = true then satInc s.ctr.discontinuities else s.ctr.discontinuities }

theorem State.recordHeader_frame (s : State) (p : Port) (f : HeaderFrame) :
    ∃ a : Attention,
      (s.recordHeader p f).startFills =
        { s with
          trk := s.trk.firstPass p f s.now
          ctr := s.continuity f
          sig := { s.sig with ref := some ⟨f.cycle, s.now⟩ }
          sched := { s.sched with fills := 0 }
          att := a } := by
  unfold State.recordHeader State.continuity
  dsimp only
  split <;> exact ⟨_, rfl⟩

/-- A first pass leaves the tracker with the header recorded, the gap timer armed and the tap state as it then is; it sends nothing,
and of the rest it names only what the header itself records (R21, R25, R92, R156). -/
structure State.BeginsTrain (s t : State) (p : Port) (f : HeaderFrame) : Prop where
  sent : t.sent = s.sent
  trk : t.trk =
    { s.trk.firstPass p f s.now with beganOnline := decide (t.ctl.tapState = .online), gapTimer := some (s.now + 100) }
  ctr : t.ctr = s.continuity f
  ref : t.sig.ref = some ⟨f.cycle, s.now⟩
  fills : t.sched.fills = 0
  inbound : t.inbound = s.inbound
  roll : t.roll = s.roll
  rst : t.rst = s.rst
  lsp : t.lsp = s.lsp
  counters : ∀ q, (t.unit q).counters = (s.unit q).counters
  tx : ∀ q, (t.unit q).tx = (s.unit q).tx

theorem State.beginsTrain_firstPass (s : State) (p : Port) (f : HeaderFrame) : s.BeginsTrain (s.firstPass p f) p f := by
  obtain ⟨a, hrec⟩ := s.recordHeader_frame p f
  have h := (s.recordHeader p f).prepares_prepareTrain f
  rw [State.firstPass_eq]
  generalize (s.recordHeader p f).prepareTrain f = t at h
  rw [hrec] at h
  have hbegun : t.trainBegun p =
      t.modTrk fun x => { x with beganOnline := decide (t.ctl.tapState = .online), gapTimer := some (s.now + 100) } := by
    rw [State.trainBegun, State.armGap_at (by rw [State.modTrk_trk, h.trk]; rfl), State.modTrk_now, h.now]
    rfl
  rw [hbegun]
  exact {
    sent := h.sent
    trk := by rw [State.modTrk_trk, h.trk, State.modTrk_ctl]
    ctr := h.ctr
    ref := h.ref
    fills := h.fills
    inbound := h.inbound
    roll := h.roll
    rst := h.rst
    lsp := h.lsp
    counters := fun q => (h.counters q).trans (by cases q <;> rfl)
    tx := fun q => (h.tx q).trans (by cases q <;> rfl) }

/-! ### The header leaves -/

/-- From `s` to `t` a frame has left: of the tap, only what has been sent, the mark of a pending restart and the ports but for their
counters may have moved (R13, R124, R137, R145). -/
def State.Leaving (s t : State) : Prop :=
  t = { s with sent := t.sent, mgmt := t.mgmt, portW := t.portW, portE := t.portE } ∧
    ∀ q, (t.unit q).counters = (s.unit q).counters

theorem State.leaving_modUnit (s : State) (p : Port) {c : PortUnit → PortUnit} (h : ∀ u, (c u).counters = u.counters) :
    s.Leaving (s.modUnit p c) :=
  ⟨by cases p <;> rfl, fun q => by cases p <;> cases q <;> simp [State.modUnit, State.setUnit, State.unit, h]⟩

theorem State.leaving_depart (s : State) (q : Port) (x : HeldFrame) : s.Leaving (s.depart q x) := by
  unfold State.depart
  dsimp only
  split
  · exact ⟨rfl, fun q => by cases q <;> rfl⟩
  · exact ⟨rfl, fun q => by cases q <;> rfl⟩

theorem State.leaving_forward (s : State) (a : Arriving) (x : SentContent) (written restarts : Bool) :
    s.Leaving (s.forward a x written restarts) := by
  unfold State.forward
  split
  · unfold State.sendOut
    split
    · exact s.leaving_modUnit _ fun _ => rfl
    · exact s.leaving_depart _ _
  · exact ⟨rfl, fun _ => rfl⟩

theorem State.leaving_windowAdd (s : State) (p : Port) : s.Leaving (s.windowAdd p false) := by
  rw [State.windowAdd_good]
  exact s.leaving_modUnit p fun u => by split <;> rfl

theorem State.Leaving.trans {s t u : State} (h : s.Leaving t) (k : t.Leaving u) : s.Leaving u := by
  obtain ⟨ht, hc⟩ := h
  obtain ⟨hu, kc⟩ := k
  refine ⟨?_, fun q => (kc q).trans (hc q)⟩
  rw [ht] at hu
  exact hu

/-- With no ECHO being sent at its port, a good frame leaves at once (R2, R145). -/
theorem State.forward_sent {s : State} {a : Arriving} {out : Port} (ho : a.out = some out) (hx : (s.unit out).tx = none)
    (x : SentContent) (written restarts : Bool) : (s.forward a x written restarts).sent = s.sent ++ [⟨out, x⟩] := by
  simp only [State.forward, ho, State.sendOut, hx, Option.isSome_none, Bool.false_eq_true, if_false, State.depart]
  split <;> rfl

/-- A good frame leaves; its outcome joins the error window (R13, R137). -/
theorem Passed.leaving_sendOff (r : Passed) (p : Port) (a : Arriving) (fcs : Option Fcs) (placed : Bool) :
    r.state.Leaving (r.sendOff p a .good fcs placed) := by
  unfold Passed.sendOff
  rw [State.countLost_good]
  exact (State.leaving_forward _ _ _ _ _).trans (State.leaving_windowAdd _ p)

theorem Passed.sendOff_sent {r : Passed} {a : Arriving} {out : Port} (ho : a.out = some out) (hx : (r.state.unit out).tx = none)
    (p : Port) (fcs : Option Fcs) (placed : Bool) :
    (r.sendOff p a .good fcs placed).sent = r.state.sent ++ [⟨out, outgoing r.frame .good fcs⟩] := by
  unfold Passed.sendOff
  simp only [State.countLost_good, reduceCtorEq, decide_false, State.windowAdd_good, State.modUnit_sent, State.forward_sent ho hx]

/-! ### The header of a new cycle -/

/-- The frame that a header makes the first to be expected, as the statements write it (R26). -/
theorem firstPosition_eq (f : HeaderFrame) :
    firstPosition f =
      if 64 < f.blocks.toNat ∨ 8 < f.containers.toNat then .unordered
      else if f.blocks ≠ 0 then .block 0
      else if f.containers ≠ 0 then .container 0
      else .roll := by
  have pos (b : Byte) : 0 < b.toNat ↔ b ≠ 0 := by
    rw [Nat.pos_iff_ne_zero, BitVec.toNat_ne]
    rfl
  have range : (!f.inRange) = true ↔ 64 < f.blocks.toNat ∨ 8 < f.containers.toNat := by
    simp [HeaderFrame.inRange]
  simp only [firstPosition, range, pos]

theorem HeaderFrame.not_inRange (f : HeaderFrame) :
    (!f.inRange) = decide (64 < f.blocks.toNat ∨ 8 < f.containers.toNat) := by
  rw [Bool.eq_iff_iff]
  simp [HeaderFrame.inRange]

/-- What enters the interval record (R6, R25). -/
theorem Tracker.nextInterval_enters {t : Tracker} {f : HeaderFrame} {now : Nat} {x : Word} (h : t.enteringInterval f now = some x) :
    (t.interval = none → t.nextInterval f now = some ⟨x, x, x⟩) ∧
      ∀ r, t.interval = some r →
        t.nextInterval f now = some ⟨x, if x < r.minimum then x else r.minimum, if r.maximum < x then x else r.maximum⟩ := by
  refine ⟨fun hi => ?_, fun r hi => ?_⟩
  · rw [Tracker.nextInterval, h, hi]
    rfl
  · rw [Tracker.nextInterval, h, hi]
    rfl

/-- Where the header's period is in range, the time since the header before it enters, if there is one (R25). -/
theorem Tracker.enteringInterval_measured {t : Tracker} {f : HeaderFrame} (h : f.periodSubstituted = false) (now : Nat) :
    t.enteringInterval f now = t.lastHeader.map fun u => BitVec.ofNat 16 (min 65535 (now - u)) := by
  simp [Tracker.enteringInterval, h]

/-- Where it is not, the substituted period enters (R6). -/
theorem Tracker.enteringInterval_substituted {f : HeaderFrame} (h : f.period.toNat < 50 ∨ 20000 < f.period.toNat) (t : Tracker)
    (now : Nat) : t.enteringInterval f now = some (if f.period.toNat < 50 then 50 else 20000) := by
  have hs : f.periodSubstituted = true := by simpa [HeaderFrame.periodSubstituted] using h
  have htaken : f.periodTaken = if f.period.toNat < 50 then 50 else 20000 := by
    unfold HeaderFrame.periodTaken
    split <;> omega
  rw [Tracker.enteringInterval, if_pos hs, htaken]
  split <;> rfl

/-- A good header of a new cycle that the tracker sees, with no train in progress, begins a first pass and then leaves. -/
theorem exec_header_firstPass {dt : Nat} {p : Port} {f : HeaderFrame} {a : Arriving} {s : State}
    (hm : s.meets p (.header (f.turn.extractLsb' 0 2)) a) (hidle : ∀ q, s.trk.record ≠ .inTrain q)
    (hnew : s.trk.valid = false ∨ f.cycle ≠ s.trk.lastCycle) :
    ∃ gap : Option Nat,
      exec (.header dt p f (some (Frame.check (.header f)))) s =
        .next (Passed.sendOff ⟨(s.countedGood dt p gap).firstPass p f, .header (if a.out = some p then f.turned else f)⟩
          p a .good (some (Frame.check (.header f))) s.restartPlaced) := by
  have hsends := State.receive_sendOff (f := .header f) (s := s.elapse dt) ((State.meets_elapse s dt p _ a).mpr hm)
    (by simp [Frame.lead]) (some (Frame.check (.header f))) (passHeader p f)
  rw [outcome_good] at hsends
  generalize (if ((s.elapse dt).unit p).arriving = none ∧ (s.elapse dt).trk.record.port = some p then none
    else (s.elapse dt).trk.gapTimer) = gap at hsends
  have hrec : (s.countedGood dt p gap).trk.record = s.trk.record := by simp [State.countedGood]
  have hcycle : (s.countedGood dt p gap).newCycle f = true := by
    rw [State.newCycle_iff]
    simpa [State.countedGood] using hnew
  have hpass : passHeader p f a .good (s.countedGood dt p gap) =
      ⟨(s.countedGood dt p gap).firstPass p f, .header (if a.out = some p then f.turned else f)⟩ := by
    rw [passHeader, hm.seen, if_pos rfl, State.trackHeader_takes (by simpa [hrec] using hidle), State.takeHeader, if_pos hcycle]
  rw [PortUnit.ended_good (by simp [Frame.lead])] at hsends
  refine ⟨gap, congrArg Host.Outcome.next (hsends.trans ?_)⟩
  rw [← hpass]
  rfl

/-- Settles O11. -/
theorem headerBeginsFirstPass : Obligations.HeaderBeginsFirstPass := by
  rintro dt p f s ⟨⟨a, hm, hout⟩, hfree, hidle, hnew⟩
  obtain ⟨gap, hexec⟩ := exec_header_firstPass (dt := dt) hm hidle hnew
  rw [hout] at hexec
  have hnow : (s.countedGood dt p gap).now = s.now + dt := by simp [State.countedGood]
  have htrk : (s.countedGood dt p gap).trk = { s.trk with gapTimer := gap } := by simp [State.countedGood]
  have hbegins := (s.countedGood dt p gap).beginsTrain_firstPass p f
  generalize (s.countedGood dt p gap).firstPass p f = u at hexec hbegins
  obtain ⟨hframe, hcounters⟩ := Passed.leaving_sendOff ⟨u, .header (if s.route p = some p then f.turned else f)⟩ p a
    (some (Frame.check (.header f))) s.restartPlaced
  have hsent := fun out ho hx => Passed.sendOff_sent (a := a) (out := out)
    (r := ⟨u, .header (if s.route p = some p then f.turned else f)⟩) ho hx p (some (Frame.check (.header f))) s.restartPlaced
  generalize Passed.sendOff _ p a .good (some (Frame.check (.header f))) s.restartPlaced = t at hexec hframe hcounters hsent
  have hinterval : t.trk.interval = s.trk.nextInterval f (s.now + dt) := by
    rw [congrArg State.trk hframe, hbegins.trk, htrk, hnow]
    rfl
  have measured (ho : ¬(f.period.toNat < 50 ∨ 20000 < f.period.toNat)) : f.periodSubstituted = false := by
    simpa [HeaderFrame.periodSubstituted] using ho
  refine ⟨t, hexec, ?_, ⟨fun ho => ?_, fun ho hl => ?_, fun ho v hl => ?_⟩, ?_, ?_, ?_, ?_, fun out ho => ?_, ?_, ?_, ?_, ?_⟩
  · have hrecords : t.trk =
        { s.trk.firstPass p f (s.now + dt) with
          beganOnline := decide (t.ctl.tapState = .online), gapTimer := some (s.now + dt + 100) } := by
      rw [congrArg State.trk hframe, hbegins.trk, htrk, hnow, congrArg State.ctl hframe]
      rfl
    rw [hinterval, hrecords, Tracker.firstPass, firstPosition_eq, HeaderFrame.not_inRange]
    rfl
  · rw [hinterval]
    exact Tracker.nextInterval_enters (Tracker.enteringInterval_substituted ho s.trk _)
  · rw [hinterval, Tracker.nextInterval, Tracker.enteringInterval_measured (measured ho), hl]
    rfl
  · rw [hinterval]
    refine Tracker.nextInterval_enters ?_
    rw [Tracker.enteringInterval_measured (measured ho), hl]
    rfl
  · rw [congrArg State.ctr hframe, hbegins.ctr]
    simp [State.continuity, Tracker.discontinuous, State.countedGood]
  · rw [congrArg State.sig hframe, hbegins.ref, hnow]
  · rw [congrArg State.sched hframe, hbegins.fills]
  · rw [hcounters, hbegins.counters, State.countedGood_counters]
  · have hx : (u.unit out).tx = none := by
      rw [hbegins.tx, State.countedGood_tx, hfree out ho]
    rw [hsent out (hout.trans ho) hx, hbegins.sent, ho]
    simp [State.countedGood, outgoing, outgoingCheck]
  · rw [congrArg State.inbound hframe, hbegins.inbound]
    simp [State.countedGood]
  · rw [congrArg State.roll hframe, hbegins.roll]
    simp [State.countedGood]
  · rw [congrArg State.rst hframe, hbegins.rst]
    simp [State.countedGood]
  · rw [congrArg State.lsp hframe, hbegins.lsp]
    simp [State.countedGood]

end Sys2Proof.Machine
end

section
/-! PROOFS. What a failed port cuts short (R3, R78, R140): one rule for the frame that arrives there, one for what is on its way out. -/

namespace Sys2Proof.Machine

/-! ### Counting publishes lost -/

theorem tallied_add (x : Word) (n m : Nat) : tallied (tallied x n) m = tallied x (n + m) := by
  apply BitVec.eq_of_toNat_eq
  simp only [tallied, BitVec.toNat_ofNat]
  omega

/-- Copies `l` leave, cut short, and `n` publishes are lost (R78, R140). -/
def State.cutShort (s : State) (l : List Sent) (n : Nat) : State :=
  { s with sent := s.sent ++ l, ctr := { s.ctr with publishLost := tallied s.ctr.publishLost n } }

theorem State.cutShort_none (s : State) : s.cutShort [] 0 = s := by simp [State.cutShort, tallied_zero]

theorem State.cutShort_cutShort (s : State) (l k : List Sent) (n m : Nat) :
    (s.cutShort l n).cutShort k m = s.cutShort (l ++ k) (n + m) := by
  simp [State.cutShort, tallied_add, List.append_assoc]

theorem State.cutShort_unit (s : State) (l : List Sent) (n : Nat) (q : Port) : (s.cutShort l n).unit q = s.unit q := by
  cases q <;> rfl

theorem State.cutShort_modUnit (s : State) (l : List Sent) (n : Nat) (p : Port) (f : PortUnit → PortUnit) :
    (s.modUnit p f).cutShort l n = (s.cutShort l n).modUnit p f := by cases p <;> rfl

theorem State.emit_cutShort (s : State) (p : Port) (x : SentContent) : s.emit p x = s.cutShort [⟨p, x⟩] 0 := by
  simp [State.emit, State.cutShort, tallied_zero]

theorem State.countPublishLost_cutShort (s : State) : s.countPublishLost = s.cutShort [] 1 := by
  have h : satInc s.ctr.publishLost = tallied s.ctr.publishLost 1 := by
    rw [← tallied_zero (satInc s.ctr.publishLost), tallied_succ]
  simp [State.countPublishLost, State.count, State.cutShort, h]

/-- One publish lost where `b` says so. -/
theorem State.countPublishLost_if (s : State) (b : Bool) :
    (if b = true then s.countPublishLost else s) = s.cutShort [] b.toNat := by
  cases b
  · exact s.cutShort_none.symm
  · exact s.countPublishLost_cutShort

/-- One publish lost where a frame has been written into. -/
theorem State.countPublishLost_written (s : State) (w : List SegWrite) :
    (if w.isEmpty = true then s else s.countPublishLost) = s.cutShort [] (decide (w ≠ [])).toNat := by
  rw [← State.countPublishLost_if]
  cases w <;> simp

/-! ### The copy of a frame -/

/-- The copy of the frame `a`, where one arrives, leaves by port `q`. -/
def leavesBy (a : Option Arriving) (q : Port) : Bool := decide ((a.bind fun x => x.out) = some q)

/-- The publish unit has written into the frame `a`, where one arrives. -/
def writtenInto (a : Option Arriving) : Bool :=
  match a with
  | some x => decide (x.writes ≠ [])
  | none => false

/-- The copy of the frame `a`, where one arrives, cut short at port `q`. -/
def cutCopy (q : Port) (a : Option Arriving) : List Sent :=
  match a with
  | some x => [⟨q, .cut x.lead⟩]
  | none => []

/-- The same where it waits behind an ECHO. -/
def heldCopy (a : Option Arriving) : List HeldFrame :=
  match a with
  | some x => [⟨.cut x.lead, false, false⟩]
  | none => []

/-- More frames wait at a port behind an ECHO (R145). -/
def PortUnit.holding (l : List HeldFrame) (u : PortUnit) : PortUnit := { u with elastic := u.elastic ++ l }

theorem PortUnit.holding_nil (u : PortUnit) : u.holding [] = u := by simp [PortUnit.holding]

/-- The unit of a port at which the frame `a`, where one arrives, ends early: it counts as a bad one (R12). -/
def PortUnit.endedEarly (a : Option Arriving) (u : PortUnit) : PortUnit :=
  { u with
    arriving := none
    counters := match a with
      | some x => u.counters.received .bad (decide (x.lead = .unknown))
      | none => u.counters }

/-- It has not gone DOWN by that. -/
theorem PortUnit.endedEarly_downs (u : PortUnit) (a : Option Arriving) :
    (u.endedEarly a).counters.downs = u.counters.downs := by cases a <;> rfl

theorem State.modUnit_self {s : State} {p : Port} {f : PortUnit → PortUnit} (h : f (s.unit p) = s.unit p) : s.modUnit p f = s :=
  (State.modUnit_congr h).trans (s.modUnit_id p)

/-- Nothing more waits. -/
theorem State.modUnit_holding_nil (s : State) (p : Port) : s.modUnit p (PortUnit.holding []) = s :=
  State.modUnit_self (PortUnit.holding_nil _)

/-- A copy that is cut short leaves so, or waits so (R3, R145). -/
theorem State.sendOut_cut (s : State) (q : Port) (x : SentContent) :
    s.sendOut q ⟨x, false, false⟩ =
      (s.cutShort (if (s.unit q).tx.isSome then [] else [⟨q, x⟩]) 0).modUnit q
        (PortUnit.holding (if (s.unit q).tx.isSome then [⟨x, false, false⟩] else [])) := by
  unfold State.sendOut State.depart
  cases (s.unit q).tx.isSome with
  | true =>
    simp only [if_true, State.cutShort_none]
    rfl
  | false =>
    simp only [Bool.false_eq_true, if_false, State.modUnit_holding_nil]
    exact State.emit_cutShort s q x

/-- A frame that ends early: its copy ends with it, at once or behind an ECHO, and a publish written into it is lost (R3, R78, R140). -/
theorem State.endPartial_eq (s : State) (p : Port) :
    s.endPartial p =
      let here := (s.unit p).arriving
      let busy (q : Port) : Bool := (s.unit q).tx.isSome
      (((s.cutShort
        ((if leavesBy here p && !busy p then cutCopy p here else []) ++
          (if leavesBy here p.other && !busy p.other then cutCopy p.other here else []))
        (writtenInto here && (here.bind fun x => x.out).isSome).toNat).modUnit p (PortUnit.endedEarly here)).modUnit p
          (PortUnit.holding (if leavesBy here p && busy p then heldCopy here else []))).modUnit p.other
            (PortUnit.holding (if leavesBy here p.other && busy p.other then heldCopy here else [])) := by
  unfold State.endPartial
  cases ha : (s.unit p).arriving with
  | none =>
    simp only [leavesBy, writtenInto, Option.bind_none, reduceCtorEq, decide_false, Bool.false_and, Bool.false_eq_true, if_false,
      List.append_nil, Bool.toNat_false, State.cutShort_none, State.modUnit_holding_nil]
    refine (State.modUnit_self ?_).symm
    simp only [PortUnit.endedEarly, ← ha]
  | some a =>
    cases ho : a.out with
    | none =>
      simp only [leavesBy, writtenInto, Option.bind_some, ho, reduceCtorEq, decide_false, Bool.false_and, Bool.false_eq_true,
        if_false, List.append_nil, Option.isSome_none, Bool.and_false, Bool.toNat_false, State.cutShort_none,
        State.modUnit_holding_nil]
      exact State.modUnit_congr rfl
    | some q =>
      have htx : ((s.modUnit p (PortUnit.endedEarly (some a))).unit q).tx = (s.unit q).tx := by cases p <;> cases q <;> rfl
      have hends : (s.modUnit p fun u =>
          { u.count (·.received .bad (decide (a.lead = .unknown))) with arriving := none }) =
            s.modUnit p (PortUnit.endedEarly (some a)) := State.modUnit_congr rfl
      have hport : q = p ∨ q = p.other := by cases p <;> cases q <;> simp [Port.other]
      simp only [hends, ho]
      rw [State.countPublishLost_written, State.sendOut_cut, htx]
      rcases hport with rfl | rfl
      · have hhere : leavesBy (some a) q = true := by simp [leavesBy, ho]
        have hthere : leavesBy (some a) q.other = false := by simp [leavesBy, ho, (Port.other_ne q).symm]
        rcases Bool.eq_false_or_eq_true (s.unit q).tx.isSome with hb | hb <;>
          simp only [hhere, hthere, hb, State.cutShort_modUnit, State.cutShort_cutShort, State.modUnit_holding_nil, writtenInto,
            cutCopy, heldCopy, Option.bind_some, ho, Option.isSome_some, Bool.and_true, Bool.true_and, Bool.not_true,
            Bool.not_false, Bool.false_and, Bool.false_eq_true, if_true, if_false, List.append_nil, Nat.zero_add]
      · have hhere : leavesBy (some a) p = false := by simp [leavesBy, ho]
        have hthere : leavesBy (some a) p.other = true := by simp [leavesBy, ho]
        rcases Bool.eq_false_or_eq_true (s.unit p.other).tx.isSome with hb | hb <;>
          simp only [hhere, hthere, hb, State.cutShort_modUnit, State.cutShort_cutShort, State.modUnit_holding_nil, writtenInto,
            cutCopy, heldCopy, Option.bind_some, ho, Option.isSome_some, Bool.and_true, Bool.true_and, Bool.not_true,
            Bool.not_false, Bool.false_and, Bool.false_eq_true, if_true, if_false, List.append_nil, List.nil_append, Nat.zero_add]

theorem State.endPartial_unit (s : State) (p : Port) :
    (s.endPartial p).unit p =
      ((s.unit p).endedEarly (s.unit p).arriving).holding
        (if leavesBy (s.unit p).arriving p && (s.unit p).tx.isSome then heldCopy (s.unit p).arriving else []) := by
  rw [State.endPartial_eq]
  cases p <;> rfl

theorem State.endPartial_other (s : State) (p : Port) :
    (s.endPartial p).unit p.other =
      (s.unit p.other).holding
        (if leavesBy (s.unit p).arriving p.other && (s.unit p.other).tx.isSome then heldCopy (s.unit p).arriving else []) := by
  rw [State.endPartial_eq]
  cases p <;> rfl

theorem State.endPartial_sent (s : State) (p : Port) :
    (s.endPartial p).sent =
      s.sent ++ ((if leavesBy (s.unit p).arriving p && !(s.unit p).tx.isSome then cutCopy p (s.unit p).arriving else []) ++
        (if leavesBy (s.unit p).arriving p.other && !(s.unit p.other).tx.isSome then cutCopy p.other (s.unit p).arriving
          else [])) := by
  rw [State.endPartial_eq]
  simp only [State.modUnit_sent, State.cutShort]

theorem State.endPartial_ctr (s : State) (p : Port) :
    (s.endPartial p).ctr =
      { s.ctr with
        publishLost := tallied s.ctr.publishLost
          (writtenInto (s.unit p).arriving && ((s.unit p).arriving.bind fun x => x.out).isSome).toNat } := by
  rw [State.endPartial_eq]
  simp only [State.modUnit_ctr, State.cutShort]

theorem State.endPartial_mgmt (s : State) (p : Port) : (s.endPartial p).mgmt = s.mgmt := by
  rw [State.endPartial_eq]
  simp only [State.modUnit_mgmt, State.cutShort]

/-! ### What is on its way out of a failed port -/

/-- The frame `a` arriving at the other port, where its copy leaves by port `p`, goes nowhere else (R140). -/
def PortUnit.copyGone (p : Port) (u : PortUnit) : PortUnit :=
  { u with arriving := if leavesBy u.arriving p then u.arriving.map fun x => { x with out := none } else u.arriving }

theorem State.cutFrom_none {s : State} {p q : Port} (h : (s.unit q).arriving = none) : State.cutFrom p s q = s := by
  simp [State.cutFrom, h]

/-- The copy leaving by a failed port ends (R78, R140). -/
theorem State.cutFrom_eq (p : Port) (s : State) (q : Port) :
    State.cutFrom p s q =
      let there := (s.unit q).arriving
      (s.cutShort
        (if leavesBy there p && decide ((there.map fun x => x.lead) ≠ some .container) && !(s.unit p).tx.isSome then cutCopy p there
          else [])
        (writtenInto there && leavesBy there p).toNat).modUnit q (PortUnit.copyGone p) := by
  unfold State.cutFrom
  cases ha : (s.unit q).arriving with
  | none =>
    simp only [leavesBy, writtenInto, Option.bind_none, reduceCtorEq, decide_false, Bool.false_and, Bool.false_eq_true, if_false,
      Bool.toNat_false, State.cutShort_none]
    refine (State.modUnit_self ?_).symm
    simp only [PortUnit.copyGone, leavesBy, ha, Option.bind_none, reduceCtorEq, decide_false, Bool.false_eq_true, if_false]
    rw [← ha]
  | some a =>
    by_cases ho : a.out = some p
    · have hleaves : leavesBy (some a) p = true := by simp [leavesBy, ho]
      have hsent : (if a.lead = .container ∨ (s.unit p).tx.isSome = true then s else s.emit p (.cut a.lead)) =
          s.cutShort (if decide (a.lead ≠ .container) && !(s.unit p).tx.isSome then cutCopy p (some a) else []) 0 := by
        rw [State.emit_cutShort]
        by_cases hc : a.lead = .container
        · simp [hc, State.cutShort_none]
        · rcases Bool.eq_false_or_eq_true (s.unit p).tx.isSome with hb | hb <;> simp [hc, hb, State.cutShort_none, cutCopy]
      simp only [if_pos ho, State.countPublishLost_written, hsent, State.cutShort_cutShort, List.append_nil, Nat.zero_add, hleaves,
        writtenInto, Bool.true_and, Bool.and_true, Option.map_some, ne_eq, Option.some.injEq]
      refine State.modUnit_congr ?_
      rw [State.cutShort_unit]
      simp only [PortUnit.copyGone, ha, hleaves, if_true, Option.map_some]
    · have hleaves : leavesBy (some a) p = false := by simp [leavesBy, ho]
      simp only [if_neg ho, hleaves, Bool.false_and, Bool.and_false, Bool.false_eq_true, if_false, Bool.toNat_false,
        State.cutShort_none]
      refine (State.modUnit_self ?_).symm
      simp only [PortUnit.copyGone, ha, hleaves, Bool.false_eq_true, if_false]
      rw [← ha]

/-- The written frames in the elastic buffer of a failed port are publishes lost (R78, R140). -/
theorem State.foldl_loseHeld (l : List HeldFrame) (s : State) :
    l.foldl State.loseHeld s = s.cutShort [] (l.countP fun h => h.written) := by
  induction l generalizing s with
  | nil => exact s.cutShort_none.symm
  | cons h l ih => 
    rw [List.foldl_cons, ih, State.loseHeld, State.countPublishLost_if, State.cutShort_cutShort, List.countP_cons, Nat.add_comm]
    cases h.written <;> rfl

/-- Everything on its way out of a failed port at which no frame arrives ends (R78, R140). -/
theorem State.cutOutputs_eq {s : State} {p : Port} (h : (s.unit p).arriving = none) :
    s.cutOutputs p =
      let there := (s.unit p.other).arriving
      let busy := (s.unit p).tx.isSome
      ((s.cutShort
        ((if leavesBy there p && decide ((there.map fun x => x.lead) ≠ some .container) && !busy then cutCopy p there else []) ++
          (if busy then [⟨p, .cut .echo⟩] else []))
        ((writtenInto there && leavesBy there p).toNat + (s.unit p).elastic.countP fun h => h.written)).modUnit p.other
          (PortUnit.copyGone p)).modUnit p fun u => { u with tx := none, elastic := [] } := by
  have hself : State.cutFrom p s p = s := State.cutFrom_none h
  have hfold : bothPorts.foldl (State.cutFrom p) s = State.cutFrom p s p.other := by
    cases p with
    | w => exact congrArg (State.cutFrom .w · .e) hself
    | e =>
      have hkept : ((State.cutFrom .e s .w).unit .e).arriving = none := by
        rw [State.cutFrom_eq]
        exact h
      show State.cutFrom .e (State.cutFrom .e s .w) .e = State.cutFrom .e s .w
      exact State.cutFrom_none hkept
  have hunit : ((State.cutFrom p s p.other).unit p) = s.unit p := by
    rw [State.cutFrom_eq]
    cases p <;> rfl
  unfold State.cutOutputs
  dsimp only
  rw [hfold, State.foldl_loseHeld, State.cutShort_unit, hunit, State.cutFrom_eq, State.cutShort_modUnit, State.cutShort_cutShort,
    List.append_nil]
  rcases Bool.eq_false_or_eq_true (s.unit p).tx.isSome with hb | hb
  · simp only [hb, if_true, State.emit_cutShort, State.cutShort_modUnit, State.cutShort_cutShort, Nat.add_zero]
  · simp only [hb, Bool.false_eq_true, if_false, List.append_nil]

theorem State.cutOutputs_unit {s : State} {p : Port} (h : (s.unit p).arriving = none) :
    (s.cutOutputs p).unit p = { s.unit p with tx := none, elastic := [] } := by
  rw [State.cutOutputs_eq h]
  cases p <;> rfl

theorem State.cutOutputs_other {s : State} {p : Port} (h : (s.unit p).arriving = none) :
    (s.cutOutputs p).unit p.other = (s.unit p.other).copyGone p := by
  rw [State.cutOutputs_eq h]
  cases p <;> rfl

theorem State.cutOutputs_mgmt {s : State} {p : Port} (h : (s.unit p).arriving = none) : (s.cutOutputs p).mgmt = s.mgmt := by
  rw [State.cutOutputs_eq h]
  simp only [State.modUnit_mgmt, State.cutShort]

/-- The copies that a failed port cuts short as it goes DOWN: that of a frame from the other port, and an ECHO (R140). -/
def State.cutCopies (s : State) (p : Port) : List Sent :=
  (if leavesBy (s.unit p.other).arriving p && decide (((s.unit p.other).arriving.map fun x => x.lead) ≠ some .container) &&
      !(s.unit p).tx.isSome then cutCopy p (s.unit p.other).arriving else []) ++
    (if (s.unit p).tx.isSome then [⟨p, .cut .echo⟩] else [])

/-- The publishes lost with them, and with the frames that wait in the elastic buffer (R78). -/
def State.lostCopies (s : State) (p : Port) : Nat :=
  (writtenInto (s.unit p.other).arriving && leavesBy (s.unit p.other).arriving p).toNat +
    (s.unit p).elastic.countP fun h => h.written

theorem State.cutOutputs_sent {s : State} {p : Port} (h : (s.unit p).arriving = none) :
    (s.cutOutputs p).sent = s.sent ++ s.cutCopies p := by
  rw [State.cutOutputs_eq h]
  simp only [State.modUnit_sent, State.cutShort, State.cutCopies]

theorem State.cutOutputs_ctr {s : State} {p : Port} (h : (s.unit p).arriving = none) :
    (s.cutOutputs p).ctr = { s.ctr with publishLost := tallied s.ctr.publishLost (s.lostCopies p) } := by
  rw [State.cutOutputs_eq h]
  simp only [State.modUnit_ctr, State.cutShort, State.lostCopies]

end Sys2Proof.Machine
end

section
/-! PROOFS. Lock lost at a port that is UP (R3, R32, R78, R136, R139, R140, R145, R147). -/

namespace Sys2Proof.Machine

/-! ### The stages of leaving UP -/

/-- The record ends where it is the port's (R32): what the tracker then holds. -/
theorem State.endTrainAt_trk (s : State) (p : Port) :
    (s.endTrainAt p).trk =
      if s.trk.record.port = some p then { s.trk with record := .idle, expected := none, defect := false, gapTimer := none }
      else s.trk := by
  unfold State.endTrainAt
  cases hr : s.trk.record with
  | idle => simp [TrainRecord.port]
  | inTrain q => by_cases hq : q = p <;> simp [TrainRecord.port, hq]
  | passing q => by_cases hq : q = p <;> simp [TrainRecord.port, hq, State.endRecord]

theorem State.abortTest_unit (s : State) (p q : Port) : (s.abortTest p).unit q = s.unit q := by
  unfold State.abortTest
  split <;> cases q <;> rfl

/-- Beside the management unit, the end of a test moves nothing (R147). -/
theorem State.abortTest_frame (s : State) (p : Port) : s.abortTest p = { s with mgmt := (s.abortTest p).mgmt } := by
  unfold State.abortTest
  split <;> rfl

theorem State.abortTest_active (s : State) (p : Port) : (s.abortTest p).mgmt.active = s.mgmt.active := by
  unfold State.abortTest
  split <;> rfl

theorem State.abortTest_sent (s : State) (p : Port) : (s.abortTest p).sent = s.sent := by rw [State.abortTest_frame]

theorem State.abortTest_trk (s : State) (p : Port) : (s.abortTest p).trk = s.trk := by rw [State.abortTest_frame]

theorem State.abortTest_ctr (s : State) (p : Port) : (s.abortTest p).ctr = s.ctr := by rw [State.abortTest_frame]

theorem State.abortTest_att (s : State) (p : Port) : (s.abortTest p).att = s.att := by rw [State.abortTest_frame]

/-- Only the close of a train in progress counts (R33). -/
theorem State.endTrainAt_ctr (s : State) (p : Port) :
    ∃ a b : Word,
      (s.endTrainAt p).ctr =
        { s.ctr with
          trainsAborted := if s.trk.record = .inTrain p then satInc s.ctr.trainsAborted else s.ctr.trainsAborted
          fillFailures := a
          staleTransitions := b } := by
  unfold State.endTrainAt
  cases hr : s.trk.record with
  | idle => exact ⟨s.ctr.fillFailures, s.ctr.staleTransitions, by simp⟩
  | inTrain q =>
    by_cases hq : q = p
    · obtain ⟨a, b, h⟩ := s.close_ctr .aborted none
      exact ⟨a, b, by simp [hq, h, CloseKind.tally]⟩
    · exact ⟨s.ctr.fillFailures, s.ctr.staleTransitions, by simp [hq]⟩
  | passing q =>
    refine ⟨s.ctr.fillFailures, s.ctr.staleTransitions, ?_⟩
    by_cases hq : q = p <;> simp [hq, State.endRecord]

theorem State.endTrainAt_unit (s : State) (p q : Port) : (s.endTrainAt p).unit q = s.unit q := by
  unfold State.endTrainAt
  (repeat' split) <;> simp [State.endRecord, State.unit]

theorem State.endTrainAt_sent (s : State) (p : Port) : (s.endTrainAt p).sent = s.sent := by
  unfold State.endTrainAt
  (repeat' split) <;> simp [State.endRecord]

theorem State.endTrainAt_segTest (s : State) (p : Port) : (s.endTrainAt p).mgmt.segTest = s.mgmt.segTest := by
  unfold State.endTrainAt
  (repeat' split) <;> simp [State.endRecord]

theorem State.endTrainAt_ring (s : State) (p : Port) : (s.endTrainAt p).att.ring = s.att.ring := by
  obtain ⟨x, hx⟩ := s.close_att .aborted none
  unfold State.endTrainAt
  (repeat' split) <;> simp [State.endRecord, hx]

/-- What the end of a record raises (R33). -/
theorem State.endTrainAt_raised (s : State) (p : Port) : ∃ R, s.Raised (s.endTrainAt p) R := by
  have idle : ∃ R, s.Raised s R := ⟨_, State.Raised.refl s⟩
  unfold State.endTrainAt
  split
  · split
    · exact ⟨_, State.close_raised s .aborted none⟩
    · exact idle
  · split
    · exact ⟨_, (State.Raised.refl s).keep rfl rfl rfl rfl rfl⟩
    · exact idle
  · exact idle

/-- A port out of service counts a wrap entered where both have been in service (R139). -/
theorem State.leaveService_ctr (s : State) (p : Port) :
    (s.leaveService p).ctr =
      { s.ctr with
        wrapsEntered :=
          if s.portW.inService = true ∧ s.portE.inService = true then satInc s.ctr.wrapsEntered else s.ctr.wrapsEntered } := by
  unfold State.leaveService
  by_cases hboth : s.portW.inService = true ∧ s.portE.inService = true
  · have hp : (s.unit p).inService = true := by cases p <;> [exact hboth.1; exact hboth.2]
    simp [hp, (State.wrapState_through s).mpr hboth, hboth]
  · have hw : s.wrapState ≠ .through := fun h => hboth ((State.wrapState_through s).mp h)
    rw [if_neg hw, if_neg hboth]
    split <;> simp

theorem State.leaveService_ring {s : State} (h : s.att.ring = true) (p : Port) : (s.leaveService p).att.ring = true := by
  unfold State.leaveService
  split <;> simp [h]

/-- A change at a port raises nothing. -/
theorem State.Raised.modUnit {s t : State} {R : Source → Prop} (h : s.Raised t R) (p : Port) (f : PortUnit → PortUnit) :
    s.Raised (t.modUnit p f) R := h.keep (by simp) (by simp) (by simp) (by simp) (by simp)

theorem State.leaveService_raised (s : State) (p : Port) : ∃ R, s.Raised (s.leaveService p) R := by
  have leaves (t : State) (h : s.Raised t fun _ => False) :
      s.Raised (t.modUnit p fun u => { u with inService := false }).ringChange fun y => False ∨ y = .ringChange :=
    ((h.modUnit p _).raise .ringChange).keep rfl rfl rfl rfl rfl
  unfold State.leaveService
  split
  · dsimp only
    split
    · exact ⟨_, leaves _ ((State.Raised.refl s).keep rfl rfl rfl rfl rfl)⟩
    · exact ⟨_, leaves _ (State.Raised.refl s)⟩
  · exact ⟨_, State.Raised.refl s⟩

/-! ### Leaving UP as a whole -/

/-- The port unit as its monitor leaves UP: DOWN, and counted (R136). -/
def PortUnit.leftUp (cause : DownCause) (now : Nat) (u : PortUnit) : PortUnit :=
  (u.enterDown cause now).count fun c => { c with downs := satInc c.downs }

/-- The tap as the port's monitor has left UP, before its service, its outputs and its train end. -/
def State.wentDown (s : State) (p : Port) (cause : DownCause) : State := (s.modUnit p (PortUnit.leftUp cause s.now)).ringChange

theorem State.wentDown_unit (s : State) (p : Port) (c : DownCause) :
    (s.wentDown p c).unit p = (s.unit p).leftUp c s.now := by simp [State.wentDown]

theorem State.wentDown_other (s : State) (p : Port) (c : DownCause) : (s.wentDown p c).unit p.other = s.unit p.other := by
  simp [State.wentDown]

theorem PortUnit.leftUp_arriving (c : DownCause) (now : Nat) (u : PortUnit) : (u.leftUp c now).arriving = u.arriving := rfl

section
variable {s : State} {p : Port} (h : (s.unit p).arriving = none) (c : DownCause)
include h

/-- With no frame arriving, the monitor leaves UP in five stages (R136, R139, R140, R147, R32). -/
theorem State.leaveUp_eq : s.leaveUp p c = ((((s.wentDown p c).leaveService p).cutOutputs p).abortTest p).endTrainAt p := by
  have hend : s.endPartial p = s := by
    unfold State.endPartial
    simp only [h]
  unfold State.leaveUp
  rw [hend]
  rfl

theorem State.leftService_arriving : (((s.wentDown p c).leaveService p).unit p).arriving = none := by
  rw [State.leaveService_unit, State.wentDown_unit]
  exact h

theorem State.leaveUp_unit :
    (s.leaveUp p c).unit p = { (s.unit p).leftUp c s.now with inService := false, tx := none, elastic := [] } := by
  rw [State.leaveUp_eq h, State.endTrainAt_unit, State.abortTest_unit, State.cutOutputs_unit (State.leftService_arriving h c),
    State.leaveService_unit, State.wentDown_unit]

theorem State.leaveUp_other : (s.leaveUp p c).unit p.other = (s.unit p.other).copyGone p := by
  rw [State.leaveUp_eq h, State.endTrainAt_unit, State.abortTest_unit, State.cutOutputs_other (State.leftService_arriving h c),
    State.leaveService_other, State.wentDown_other]

theorem State.leaveUp_sent : (s.leaveUp p c).sent = s.sent ++ s.cutCopies p := by
  have hcut : ((s.wentDown p c).leaveService p).cutCopies p = s.cutCopies p := by
    simp only [State.cutCopies, State.leaveService_unit, State.leaveService_other, State.wentDown_unit, State.wentDown_other]
    rfl
  rw [State.leaveUp_eq h, State.endTrainAt_sent, State.abortTest_sent, State.cutOutputs_sent (State.leftService_arriving h c), hcut,
    State.leaveService_sent]
  simp [State.wentDown]

theorem State.leaveUp_ctr :
    ∃ a b : Word,
      (s.leaveUp p c).ctr =
        { s.ctr with
          publishLost := tallied s.ctr.publishLost (s.lostCopies p)
          wrapsEntered :=
            if s.portW.inService = true ∧ s.portE.inService = true then satInc s.ctr.wrapsEntered else s.ctr.wrapsEntered
          trainsAborted := if s.trk.record = .inTrain p then satInc s.ctr.trainsAborted else s.ctr.trainsAborted
          fillFailures := a
          staleTransitions := b } := by
  have hlost : ((s.wentDown p c).leaveService p).lostCopies p = s.lostCopies p := by
    simp only [State.lostCopies, State.leaveService_unit, State.leaveService_other, State.wentDown_unit, State.wentDown_other]
    rfl
  have hw : (s.wentDown p c).portW.inService = s.portW.inService := by cases p <;> rfl
  have he : (s.wentDown p c).portE.inService = s.portE.inService := by cases p <;> rfl
  have hctr : (s.wentDown p c).ctr = s.ctr := by simp [State.wentDown]
  have htrk : (s.wentDown p c).trk = s.trk := by simp [State.wentDown]
  obtain ⟨a, b, hend⟩ := ((((s.wentDown p c).leaveService p).cutOutputs p).abortTest p).endTrainAt_ctr p
  refine ⟨a, b, ?_⟩
  rw [State.leaveUp_eq h, hend, State.abortTest_ctr, State.abortTest_trk, State.cutOutputs_ctr (State.leftService_arriving h c),
    State.cutOutputs_trk, State.leaveService_trk, State.leaveService_ctr, hlost, hw, he, hctr, htrk]

theorem State.leaveUp_trk :
    (s.leaveUp p c).trk =
      if s.trk.record.port = some p then { s.trk with record := .idle, expected := none, defect := false, gapTimer := none }
      else s.trk := by
  rw [State.leaveUp_eq h, State.endTrainAt_trk]
  simp [State.wentDown, State.abortTest_trk]

theorem State.leaveUp_segTest (hr : s.mgmt.segTest.state = .running) (hp : s.mgmt.segTest.port = p) :
    (s.leaveUp p c).mgmt.segTest.state = .aborted := by
  have hm : (((s.wentDown p c).leaveService p).cutOutputs p).mgmt = s.mgmt := by
    rw [State.cutOutputs_mgmt (State.leftService_arriving h c), State.leaveService_mgmt]
    simp [State.wentDown]
  rw [State.leaveUp_eq h, State.endTrainAt_segTest, State.abortTest, if_pos (by rw [hm]; exact ⟨hr, hp⟩)]

theorem State.leaveUp_ring : (s.leaveUp p c).att.ring = true := by
  rw [State.leaveUp_eq h, State.endTrainAt_ring, State.abortTest_att, State.cutOutputs_att]
  exact State.leaveService_ring (by simp [State.wentDown]) p

/-- RING_CHANGE is raised, and what the end of the train raises (R33, R139). -/
theorem State.leaveUp_raised : ∃ R, s.Raised (s.leaveUp p c) R ∧ R .ringChange := by
  have hdown : s.Raised (s.wentDown p c) fun y => False ∨ y = .ringChange :=
    (((State.Raised.refl s).modUnit p _).raise .ringChange).keep rfl rfl rfl rfl rfl
  obtain ⟨R, hservice⟩ := (s.wentDown p c).leaveService_raised p
  have hcut := (hdown.trans hservice).keep (t' := ((s.wentDown p c).leaveService p).cutOutputs p)
    (by rw [State.cutOutputs_mgmt (State.leftService_arriving h c)]) (by simp) (by simp) (by simp) (by simp)
  have habort := hcut.keep (t' := (((s.wentDown p c).leaveService p).cutOutputs p).abortTest p) (State.abortTest_active _ p)
    (by simp) (by simp) (by rw [State.abortTest_frame]) (by rw [State.abortTest_frame])
  obtain ⟨Q, hend⟩ := ((((s.wentDown p c).leaveService p).cutOutputs p).abortTest p).endTrainAt_raised p
  rw [State.leaveUp_eq h]
  exact ⟨_, habort.trans hend, .inl (.inl (.inr rfl))⟩

end

/-! ### Lock lost -/

/-- The port unit once lock is lost (R136). -/
def PortUnit.unlocked (u : PortUnit) : PortUnit := { u with lock := false, farEnd := none }

/-- The return-ready flag and an accepted return withdrawn (R142). -/
def PortUnit.unready (u : PortUnit) : PortUnit := { u with returnReady := false, returnAccepted := false }

theorem State.refit_unfit {s : State} {p : Port} (h : (s.unit p).fit = false) : s.refit p = s.modUnit p PortUnit.unready := by
  unfold State.refit
  simp only [h, Bool.false_eq_true, if_false]
  rfl

/-- Lock lost at a port that is UP ends the frame that arrives there and makes the monitor leave UP. -/
theorem State.lockLost_up {s : State} {p : Port} (h : (s.unit p).monitor = .up) :
    s.lockLost p = (((s.modUnit p PortUnit.unlocked).endPartial p).leaveUp p .loss).modUnit p PortUnit.unready := by
  have hunit := (s.modUnit p PortUnit.unlocked).endPartial_unit p
  rw [State.unit_modUnit] at hunit
  have hup : (((s.modUnit p PortUnit.unlocked).endPartial p).unit p).monitor = .up := by
    rw [hunit]
    exact h
  have harr : (((s.modUnit p PortUnit.unlocked).endPartial p).unit p).arriving = none := by
    rw [hunit]
    rfl
  have hdown : s.lockLost p = (((s.modUnit p PortUnit.unlocked).endPartial p).leaveUp p .loss).refit p := by
    show (((s.modUnit p PortUnit.unlocked).endPartial p).goDown p .loss).refit p = _
    rw [State.goDown, hup]
  rw [hdown, State.refit_unfit]
  rw [State.leaveUp_unit harr]
  rfl

/-- The frame that arrives at the port has ended, and lock is gone: what is left to leave UP, `dt` after `s` (R3, R136). -/
def State.lockGone (s : State) (dt : Nat) (p : Port) : State := ((s.elapse dt).modUnit p PortUnit.unlocked).endPartial p

section
variable (s : State) (dt : Nat) (p : Port)

theorem State.lockGone_unit :
    (s.lockGone dt p).unit p =
      ((s.unit p).unlocked.endedEarly (s.unit p).arriving).holding
        (if leavesBy (s.unit p).arriving p && (s.unit p).tx.isSome then heldCopy (s.unit p).arriving else []) := by
  rw [State.lockGone, State.endPartial_unit, State.unit_modUnit, State.unit_elapse]
  rfl

theorem State.lockGone_other :
    (s.lockGone dt p).unit p.other =
      (s.unit p.other).holding
        (if leavesBy (s.unit p).arriving p.other && (s.unit p.other).tx.isSome then heldCopy (s.unit p).arriving else []) := by
  rw [State.lockGone, State.endPartial_other, State.unit_modUnit, State.unit_modUnit_other, State.unit_elapse, State.unit_elapse]
  rfl

theorem State.lockGone_sent :
    (s.lockGone dt p).sent =
      s.sent ++ ((if leavesBy (s.unit p).arriving p && !(s.unit p).tx.isSome then cutCopy p (s.unit p).arriving else []) ++
        (if leavesBy (s.unit p).arriving p.other && !(s.unit p.other).tx.isSome then cutCopy p.other (s.unit p).arriving
          else [])) := by
  rw [State.lockGone, State.endPartial_sent, State.unit_modUnit, State.unit_modUnit_other, State.modUnit_sent, State.unit_elapse,
    State.unit_elapse]
  rfl

theorem State.lockGone_ctr :
    (s.lockGone dt p).ctr =
      { s.ctr with
        publishLost := tallied s.ctr.publishLost
          (writtenInto (s.unit p).arriving && ((s.unit p).arriving.bind fun x => x.out).isSome).toNat } := by
  rw [State.lockGone, State.endPartial_ctr, State.unit_modUnit, State.modUnit_ctr, State.unit_elapse]
  rfl

/-- No service is left yet. -/
theorem State.lockGone_inService (q : Port) : ((s.lockGone dt p).unit q).inService = (s.unit q).inService := by
  have hq : q = p ∨ q = p.other := by cases p <;> cases q <;> simp [Port.other]
  rcases hq with rfl | rfl
  · rw [State.lockGone_unit]
    rfl
  · rw [State.lockGone_other]
    rfl

/-- What the port then cuts short is what it would have cut short before: a copy that waits has not been written into (R140). -/
theorem State.lockGone_cutCopies : (s.lockGone dt p).cutCopies p = s.cutCopies p := by
  simp only [State.cutCopies, State.lockGone_unit, State.lockGone_other]
  rfl

theorem State.lockGone_lostCopies : (s.lockGone dt p).lostCopies p = s.lostCopies p := by
  have hheld (b : Bool) (a : Option Arriving) : (if b then heldCopy a else []).countP (fun h => h.written) = 0 := by
    cases b <;> cases a <;> rfl
  simp only [State.lostCopies, State.lockGone_unit, State.lockGone_other, PortUnit.holding, List.countP_append, hheld,
    Nat.add_zero]
  rfl

/-- Nothing has been raised. -/
theorem State.lockGone_raised : (s.elapse dt).Raised (s.lockGone dt p) fun _ => False :=
  ((State.Raised.refl (s.elapse dt)).modUnit p PortUnit.unlocked).keep
    (by rw [State.lockGone, State.endPartial_mgmt]) (by simp [State.lockGone]) (by simp [State.lockGone]) (by simp [State.lockGone])
    (by simp [State.lockGone])

end

/-- Settles O37. -/
theorem lockLostLeavesUp : Obligations.LockLostLeavesUp := by
  intro dt p s hb hup
  have hunit := s.lockGone_unit dt p
  have hother := s.lockGone_other dt p
  have harr : ((s.lockGone dt p).unit p).arriving = none := by
    rw [hunit]
    rfl
  have hexec : exec (.lockLost dt p) s = .next (((s.lockGone dt p).leaveUp p .loss).modUnit p PortUnit.unready) := by
    have hlost : (s.elapse dt).lockLost p = ((s.lockGone dt p).leaveUp p .loss).modUnit p PortUnit.unready :=
      State.lockLost_up (by simpa using hup)
    show Host.Outcome.next (if (s.elapse dt).inBypass then s.elapse dt else (s.elapse dt).lockLost p) = _
    rw [State.inBypass_eq_false (s := s.elapse dt) hb, if_neg Bool.false_ne_true, hlost]
  have hnow : (s.lockGone dt p).now = s.now + dt := by simp [State.lockGone]
  have htrk : (s.lockGone dt p).trk = s.trk := by simp [State.lockGone]
  have hmgmt : (s.lockGone dt p).mgmt = s.mgmt := by simp [State.lockGone, State.endPartial_mgmt]
  have hleft := State.leaveUp_unit harr .loss
  have hfar := State.leaveUp_other harr .loss
  have hsent := State.leaveUp_sent harr .loss
  have hmoved := State.leaveUp_trk harr .loss
  have htest := State.leaveUp_segTest harr .loss
  have hring := State.leaveUp_ring harr .loss
  obtain ⟨R, hraised, hR⟩ := State.leaveUp_raised harr .loss
  obtain ⟨a, b, hctr⟩ := State.leaveUp_ctr harr .loss
  have hzctl : ((s.lockGone dt p).leaveUp p .loss).ctl = s.ctl := by simp [State.lockGone]
  have hzrst : ((s.lockGone dt p).leaveUp p .loss).rst = s.rst := by simp [State.lockGone]
  have hzinbound : ((s.lockGone dt p).leaveUp p .loss).inbound = s.inbound := by simp [State.lockGone]
  have hznow : ((s.lockGone dt p).leaveUp p .loss).now = s.now + dt := by rw [State.leaveUp_now, hnow]
  rw [State.lockGone_cutCopies, State.lockGone_sent] at hsent
  rw [State.lockGone_lostCopies, State.lockGone_ctr, htrk, tallied_add] at hctr
  rw [htrk] at hmoved
  rw [hmgmt] at htest
  rw [hunit, hnow] at hleft
  rw [hother] at hfar
  generalize (s.lockGone dt p).leaveUp p .loss = z at *
  have hp : (z.modUnit p PortUnit.unready).unit p = (z.unit p).unready := State.unit_modUnit _ _ _
  have hq : (z.modUnit p PortUnit.unready).unit p.other = z.unit p.other := State.unit_modUnit_other _ _ _
  have hpins (k : Fin 8) (hk : s.bound .ringChange (trigUser k) = true) :
      (z.modUnit p PortUnit.unready).sig.pins[k] = ⟨true, some (s.now + dt)⟩ := by
    rw [State.modUnit_sig]
    exact ((s.lockGone_raised dt p).trans hraised).pinsHit k ⟨.ringChange, .inr hR, hk⟩
  have hdowns := congrArg satInc ((s.unit p).unlocked.endedEarly_downs (s.unit p).arriving)
  have hw : (s.lockGone dt p).portW.inService = s.portW.inService := s.lockGone_inService dt p .w
  have he : (s.lockGone dt p).portE.inService = s.portE.inService := s.lockGone_inService dt p .e
  rw [hw, he] at hctr
  refine ⟨z.modUnit p PortUnit.unready, hexec, ?_⟩
  rw [hp, hq, hleft, hfar]
  simp only [State.modUnit_now, State.modUnit_att, State.modUnit_ctr, State.modUnit_trk, State.modUnit_mgmt, State.modUnit_sent,
    State.modUnit_ctl, State.modUnit_rst, State.modUnit_inbound]
  refine ⟨hznow, rfl, rfl, rfl, rfl, rfl, rfl, rfl, hdowns, rfl, rfl, rfl, rfl, rfl, hring, hpins, ?_, ?_, ?_, ?_, htest, rfl, rfl,
    ⟨?_, ?_, ?_, ?_⟩, hzctl, hzrst, hzinbound⟩
  · rw [hctr]
  · intro hr
    rw [hctr, if_pos hr]
  · intro hr
    rw [hmoved, if_pos hr]
    exact ⟨rfl, rfl⟩
  · intro hr
    have hin : s.trk.record ≠ .inTrain p := fun h => hr (by rw [h]; rfl)
    rw [hmoved, if_neg hr, hctr, if_neg hin]
    exact ⟨rfl, rfl⟩
  · rw [hsent, State.cutCopies]
    simp only [List.append_assoc]
    rfl
  · have hlost : z.ctr.publishLost = tallied s.ctr.publishLost
        ((writtenInto (s.unit p).arriving && ((s.unit p).arriving.bind fun x => x.out).isSome).toNat + s.lostCopies p) := by
      rw [hctr]
    rw [hlost, tallied, State.lostCopies, ← Nat.add_assoc, ← Nat.add_assoc]
    rfl
  · rfl
  · cases (s.unit p).arriving <;> rfl

end Sys2Proof.Machine
end


section
/-! PROOFS. What every restart leaves (R166), the pins and STOP (R36, R152 to R154), and the control requests (R121 to R124). -/

namespace Sys2Proof.Machine

/-! ### A restart -/

theorem State.beginRestart_unit (s : State) (kind : RestartKind) (q : Port) :
    (s.beginRestart kind).unit q = (s.unit q).restarted kind.keeps := by cases q <;> rfl

theorem State.beginRestart_pub (s : State) (kind : RestartKind) (p : Fin 4) :
    (s.beginRestart kind).pub[p] = s.pub[p].restarted kind.keeps := by
  simp [State.beginRestart]

theorem RestartKind.keeps_iff (kind : RestartKind) : kind.keeps = true ↔ kind = .local ∨ kind = .remote := by
  cases kind <;> decide

/-- The roles and marks of a publish bank start afresh; its words are kept where `keep` says so (R67). -/
theorem PubBank.restarted_eq (b : PubBank) (keep : Bool) :
    b.restarted keep =
      ⟨if keep = true then b.p else Buffer.zero, if keep = true then b.q else Buffer.zero, true, false, false⟩ := by
  cases keep <;> rfl

/-- The transaction in progress stands abandoned, with no burst (R161). -/
theorem State.beginRestart_txn (s : State) (kind : RestartKind) :
    (s.beginRestart kind).lsp.txn = s.lsp.txn.map Txn.abandoned := rfl

/-- An abandoned transaction has no burst on any bank (R161). -/
theorem State.noBurst_of_abandoned {s : State} {x : Txn} (h : s.lsp.txn = some x.abandoned) :
    (∀ b, s.readBurst b = false) ∧ ∀ q, s.writeBurst q = false := by
  simp [State.readBurst, State.writeBurst, h, Txn.abandoned]

/-- Settles O43. -/
theorem restartValues : Obligations.RestartValues := by
  intro s kind t
  refine ⟨rfl, rfl, rfl, rfl, rfl, rfl, rfl, rfl, rfl, fun hnone => ?_, fun x hx => ?_, rfl, rfl, rfl, rfl, rfl, rfl, rfl, rfl, rfl,
    fun k => ?_, fun c => ?_, fun q => ?_, rfl, fun p => ?_⟩
  · rw [State.beginRestart_txn, hnone]
    rfl
  · have htxn : t.lsp.txn = some x.abandoned := by rw [State.beginRestart_txn, hx]; rfl
    exact ⟨⟨_, htxn, rfl⟩, State.noBurst_of_abandoned htxn⟩
  · simp [t, State.beginRestart, Signals.reset]
  · simp [t, State.beginRestart, Signals.reset]
  · rw [State.beginRestart_unit]
    exact ⟨rfl, rfl, rfl, rfl, rfl, rfl, rfl, rfl⟩
  · rw [State.beginRestart_pub, PubBank.restarted_eq]
    simp only [RestartKind.keeps_iff, and_self]

/-! ### Pins and pulses -/

/-- A change of the tap state to another one, with STATE set (R35). -/
theorem State.setTapState_ne {s : State} {t : TapState} (h : s.ctl.tapState ≠ t) :
    s.setTapState t = { s with ctl := { s.ctl with tapState := t }, att := { s.att with state := true } } := by
  rw [State.setTapState, if_neg h]
  rfl

/-- An input's level, once it differs from the one sampled before (R152). -/
theorem State.pinChange_input {s : State} {k : Fin 8} {level : Bool} (hin : s.pinIsOutput k = false)
    (hchange : s.sig.trigIn[k] ≠ level) :
    s.pinChange k level =
      let sampled : State := { s with sig := { s.sig with trigIn := upd s.sig.trigIn k level } }
      if level then sampled.raise (.triggerIn k) else sampled := by
  rw [State.pinChange, if_pos ⟨hin, hchange⟩]

/-- A driven pin falls where its channel is low, no sooner than its stretch allows (R154). -/
theorem State.trigOutFall_driven {s : State} {k : Fin 8} {c : Fin 12} {d : Nat} (hc : s.follows (trigUser k) = some c)
    (hp : s.sig.pins[k] = ⟨true, some d⟩) (hl : s.channelLevel c = false) :
    s.trigOutFall k =
      { s with now := max s.now (d + 1), sig := { s.sig with pins := upd s.sig.pins k ⟨false, some d⟩ } } := by
  simp only [State.trigOutFall, hc, hp, hl, and_self, if_true]
  rfl

theorem State.pulseEnd_running {s : State} {c : Fin 12} {d : Nat} (h : s.sig.pulses[c] = some d) :
    s.pulseEnd c = { s with now := max s.now d, sig := { s.sig with pulses := upd s.sig.pulses c none } } := by
  simp only [State.pulseEnd, h]
  rfl

/-- STOP rises (R36). -/
theorem State.stopRise_eq (s : State) :
    s.stopRise =
      if s.ctl.tapState = .online then
        { s with ctl := { s.ctl with pinCause := true, tapState := .halted }, att := { s.att with state := true } }
      else { s with ctl := { s.ctl with pinCause := true } } := by
  by_cases h : s.ctl.tapState = .online
  · rw [if_pos h]
    exact (if_pos h).trans (State.setTapState_ne (s := s.setPinCause true) (by simp [State.setPinCause, h]))
  · rw [if_neg h]
    exact if_neg h

/-- STOP falls (R36). -/
theorem State.stopFall_eq (s : State) :
    s.stopFall =
      if s.ctl.tapState = .halted ∧ s.ctl.commandCause = false then
        { s with ctl := { s.ctl with pinCause := false, tapState := .online }, att := { s.att with state := true } }
      else { s with ctl := { s.ctl with pinCause := false } } := by
  by_cases h : s.ctl.tapState = .halted ∧ s.ctl.commandCause = false
  · rw [if_pos h]
    exact (if_pos h).trans (State.setTapState_ne (s := s.setPinCause false) (by simp [State.setPinCause, h.1]))
  · rw [if_neg h]
    exact if_neg h

/-- Settles O41. -/
theorem pinsAndPulses : Obligations.PinsAndPulses := by
  refine ⟨⟨fun dt k s hin hlow => ?_, fun dt k s hin hhigh => ?_, fun dt d k c s hc hp hl => ?_, fun dt d c s hd => ?_⟩,
    fun dt s => ⟨?_, ?_⟩⟩
  · exact congrArg Host.Outcome.next (State.pinChange_input (s := s.elapse dt) hin (by simp [hlow]))
  · exact congrArg Host.Outcome.next (State.pinChange_input (s := s.elapse dt) hin (by simp [hhigh]))
  · exact congrArg Host.Outcome.next (State.trigOutFall_driven (s := s.elapse dt) hc hp hl)
  · exact congrArg Host.Outcome.next (State.pulseEnd_running (s := s.elapse dt) hd)
  · exact congrArg Host.Outcome.next (s.elapse dt).stopRise_eq
  · exact congrArg Host.Outcome.next (s.elapse dt).stopFall_eq

/-! ### Control requests -/

/-- An UNCONFIGURED tap refuses both (R36, R121). -/
theorem runHalt_refused {s : State} (h : s.ctl.tapState = .unconfigured) : runHalt s = s.refuse .refusedState := by
  simp only [runHalt, h]

theorem runResume_refused {s : State} (h : s.ctl.tapState = .unconfigured) : runResume s = s.refuse .refusedState := by
  simp only [runResume, h]

/-- HALT in ONLINE and in HALTED: the command cause is set, and the tap is HALTED (R36, R121). -/
theorem runHalt_online {s : State} (h : s.ctl.tapState = .online) :
    runHalt s =
      ⟨{ s with ctl := { s.ctl with commandCause := true, tapState := .halted }, att := { s.att with state := true } }, .ok,
        [0x03#8], false⟩ := by
  have hne : (s.setCommandCause true).ctl.tapState ≠ .halted := by simp [State.setCommandCause, h]
  simp only [runHalt, h, State.setTapState_ne hne]
  rfl

theorem runHalt_halted {s : State} (h : s.ctl.tapState = .halted) :
    runHalt s = ⟨{ s with ctl := { s.ctl with commandCause := true } }, .ok, [0x03#8], false⟩ := by
  simp only [runHalt, h, State.answerState, State.setCommandCause]
  rfl

/-- RESUME clears the command cause; the tap is ONLINE again where the pin cause is clear too (R36, R121). -/
theorem runResume_online {s : State} (h : s.ctl.tapState = .online) :
    runResume s = ⟨{ s with ctl := { s.ctl with commandCause := false } }, .ok, [0x02#8], false⟩ := by
  simp only [runResume, h, State.answerState, State.setCommandCause]
  rfl

theorem runResume_stopped {s : State} (h : s.ctl.tapState = .halted) (hp : s.ctl.pinCause = true) :
    runResume s = ⟨{ s with ctl := { s.ctl with commandCause := false } }, .ok, [0x03#8], false⟩ := by
  simp only [runResume, h, hp, if_true, State.answerState, State.setCommandCause]
  rfl

theorem runResume_halted {s : State} (h : s.ctl.tapState = .halted) (hp : s.ctl.pinCause = false) :
    runResume s =
      ⟨{ s with ctl := { s.ctl with commandCause := false, tapState := .online }, att := { s.att with state := true } }, .ok,
        [0x02#8], false⟩ := by
  have hne : (s.setCommandCause false).ctl.tapState ≠ .online := by simp [State.setCommandCause, h]
  simp only [runResume, h]
  rw [if_neg (by simp [hp]), State.setTapState_ne hne]
  rfl

theorem portOf_code (p : Port) : portOf (natByte p.code) = some p := by cases p <;> decide

theorem portOf_none {b : Byte} (h : 2 ≤ b.toNat) : portOf b = none := by
  have hw : b ≠ 0 := by rintro rfl; simp at h
  have he : b ≠ 1 := by rintro rfl; simp at h
  rw [portOf, if_neg hw, if_neg he]

/-- RETURN WRAP by the port's return-ready flag (R122). -/
theorem runReturnWrap_port (p : Port) (s : State) :
    runReturnWrap (natByte p.code) s =
      if (s.unit p).returnReady = true then
        ⟨s.modUnit p fun u => { u with returnAccepted := true }, .ok, [natByte s.wrapState.code], false⟩
      else ⟨s, .refusedState, [], false⟩ := by
  have hwrap : (s.modUnit p fun u => { u with returnAccepted := true }).wrapState = s.wrapState := by cases p <;> rfl
  simp only [runReturnWrap, portOf_code]
  split <;> rfl

theorem runReturnWrap_badField {b : Byte} (h : 2 ≤ b.toNat) (s : State) : runReturnWrap b s = s.refuse .badField := by
  simp only [runReturnWrap, portOf_none h]

/-- RESTART where one is pending, and where none is (R124). -/
theorem runRestart_eq (s : State) :
    runRestart s =
      if s.mgmt.pendingRestart = none then
        ⟨{ s with mgmt := { s.mgmt with pendingRestart := some ⟨0, none, false⟩ } }, .ok, [], true⟩
      else ⟨s, .busy, [], false⟩ := by
  unfold runRestart
  cases s.mgmt.pendingRestart <;> rfl

/-- A request whose conditions hold is answered with what its execution on the tap asked gives (R106 to R108). -/
theorem exec_request_answers {s : State} {src : Station} {tag : Byte} (h : s.executes src tag) (dt : Nat) (r : Request) {y : Reply}
    (hy : runRequest r src (s.asked dt src) = y) :
    exec (requestRow r dt src tag) s = .next (y.state.replied src tag (r.code :: y.status.code :: y.data) y.restarts) := by
  subst hy
  cases r <;> exact congrArg Host.Outcome.next (State.deliver_executes h dt _ _)

/-- Settles O59. -/
theorem controlRequests : Obligations.ControlRequests := by
  refine ⟨fun dt src tag s h => ?_, fun dt src tag p s h => ?_, fun dt src tag s h => ?_⟩
  · have hctl : (s.asked dt src).ctl = s.ctl := s.asked_ctl dt src
    have hatt : (s.asked dt src).att = s.att := s.asked_att dt src
    rw [← hctl, ← hatt]
    refine ⟨fun ht => ⟨?_, ?_⟩, fun ht => ⟨?_, ?_⟩, fun ht => ⟨?_, ?_⟩⟩
    · exact exec_request_answers h dt .halt (runHalt_refused ht)
    · exact exec_request_answers h dt .resume (runResume_refused ht)
    · exact exec_request_answers h dt .halt (runHalt_online ht)
    · exact exec_request_answers h dt .resume (runResume_online ht)
    · exact exec_request_answers h dt .halt (runHalt_halted ht)
    · split
      · rename_i hp
        exact exec_request_answers h dt .resume (runResume_stopped ht hp)
      · rename_i hp
        exact exec_request_answers h dt .resume (runResume_halted ht (Bool.not_eq_true _ ▸ hp))
  · have hunit : (s.asked dt src).unit p = s.unit p := s.asked_unit dt src p
    have hwrap : (s.asked dt src).wrapState = s.wrapState := by simp [State.wrapState]
    rw [← hunit, ← hwrap]
    refine ⟨fun hready => ?_, fun hready => ?_, fun b hb => ?_⟩
    · exact exec_request_answers h dt (.returnWrap _) ((runReturnWrap_port p _).trans (if_pos hready))
    · exact exec_request_answers h dt (.returnWrap _) ((runReturnWrap_port p _).trans (if_neg (Bool.eq_false_iff.mp hready)))
    · exact exec_request_answers h dt (.returnWrap b) (runReturnWrap_badField hb _)
  · rw [← s.asked_pendingRestart dt src]
    exact ⟨fun hnone => exec_request_answers h dt .restart ((runRestart_eq _).trans (if_pos hnone)),
      fun hsome => exec_request_answers h dt .restart ((runRestart_eq _).trans (if_neg hsome))⟩

end Sys2Proof.Machine
end


section
/-! PROOFS. A good ROLL that closes a train GOOD (R28, R126), and one that holds the tap's own number (R35, R98, R128). -/

namespace Sys2Proof.Machine

/-! ### A good frame leaves -/

/-- The end of a good frame that is not written into: beside the clock, only its ports and what has been sent move (R12, R13, R145). -/
theorem State.frameEnds_good (s : State) (dt : Nat) (p : Port) (f g : Frame) (out : Option Port) :
    let t := s.frameEnds dt p f g (some f.check) out false
    t = { s with now := s.now + dt, sent := t.sent, portW := t.portW, portE := t.portE } := by
  have leaves (u : State) (x : SentContent) :
      u.leaves out x false false =
        { u with
          sent := (u.leaves out x false false).sent
          portW := (u.leaves out x false false).portW
          portE := (u.leaves out x false false).portE } := by
    unfold State.leaves
    cases out with
    | none => rfl
    | some q =>
      dsimp only
      split
      · cases q <;> rfl
      · rfl
  dsimp only
  unfold State.frameEnds
  simp only [outcome_good, reduceCtorEq, decide_false, State.windowAdd_good, if_false, if_true, Bool.false_and, Bool.false_eq_true]
  rw [leaves]
  cases p <;> rfl

/-- It leaves at once by a port at which no ECHO is being sent (R13, R145). -/
theorem State.frameEnds_good_sent {s : State} {q : Port} (hq : (s.unit q).tx = none) (dt : Nat) (p : Port) (f g : Frame) :
    (s.frameEnds dt p f g (some f.check) (some q) false).sent = s.sent ++ [⟨q, .whole g g.check⟩] := by
  unfold State.frameEnds
  simp only [outcome_good, reduceCtorEq, decide_false, State.windowAdd_good, State.modUnit_sent, if_false, if_true, Bool.false_and,
    Bool.false_eq_true]
  have htx (u : State) (c : PortUnit → PortUnit) (hc : ∀ v, (c v).tx = v.tx) : ((u.modUnit p c).unit q).tx = (u.unit q).tx := by
    cases p <;> cases q <;> simp [State.modUnit, State.setUnit, State.unit, hc]
  have hu (n : Nat) (y : TapCounters) : State.unit { s with now := n, ctr := y } q = s.unit q := by cases q <;> rfl
  simp only [State.leaves, htx, hu, hq, implies_true, Option.isSome_none, Bool.false_eq_true, if_false, State.modUnit_sent]

/-! ### A good ROLL of the train -/

theorem State.rollEffect_unit (s : State) (d : RollDecision) (f : RollFrame) (q : Port) : (s.rollEffect d f).unit q = s.unit q := by
  cases d <;> cases q <;> simp [State.rollEffect, State.unit]

/-- A good, well-formed ROLL of the train at a listening port whose line is free: its decision takes effect and the train closes, and
beside the ports only what has been sent moves further, by the ROLL that leaves (R28, R126, R127). -/
theorem exec_roll_good {dt : Nat} {p : Port} {f : RollFrame} {s : State} {d : RollDecision} (hl : s.listens p) (hfree : s.lineFree p)
    (hr : s.trk.record = .inTrain p) (hf : f.malformed = false) (hd : rollDecision s.ctl.tapState s.rst.station f = d) :
    let closed := ((s.elapse dt).rollEffect d f).close s.rollClose (some f.closedRoll)
    let g := rollOut s.rollSample s.rst.station d f
    ∃ t : State,
      exec (.roll dt p f (some (Frame.check (.roll f)))) s = .next t ∧
        t = { closed with sent := t.sent, portW := t.portW, portE := t.portE } ∧
        ∀ out, s.route p = some out → t.sent = s.sent ++ [⟨out, .whole (.roll g) (Frame.check (.roll g))⟩] := by
  intro closed g
  have hm : s.meets p .roll (s.decides p .roll) := State.meets_of_listens hl (by simp)
  have hsample : (s.decides p .roll).roll = some s.rollSample := by simp [State.decides, hr, State.rollSample_eq]
  have hframe : ((s.elapse dt).takeRoll (some s.rollSample) f .good).2 = g := by
    simp only [State.takeRoll, hf, Bool.false_eq_true, if_false]
    exact congrArg (rollOut s.rollSample s.rst.station · f) hd
  have hplaced : closed.restartPlaced = (s.elapse dt).restartPlaced := by
    rw [State.close_restartPlaced, State.restartPlaced, State.rollEffect_mgmt]
    rfl
  have hends := State.receive_frameEnds (s := s.elapse dt) (t := closed) (f := .roll f) (g := .roll g)
    (fcs := some (Frame.check (.roll f))) (act := passRoll p f) ((State.meets_elapse s dt p _ _).mpr hm) (by simp [Frame.lead]) hplaced
    fun gap c _ => by
      rw [outcome_good, passRoll_decided (s := s.elapse dt) hm.seen hsample hr hf gap c, hframe]
      exact congrArg (fun d => Passed.mk (State.modUnit (State.close (State.rollEffect _ d f) _ _) p c) _) hd
  rw [hm.unwritten (by simp)] at hends
  refine ⟨_, congrArg Host.Outcome.next hends, State.frameEnds_good closed 0 p _ _ _, fun out ho => ?_⟩
  have hout : (s.decides p .roll).out = some out := ho
  have htx : (closed.unit out).tx = none := by
    rw [State.close_unit, State.rollEffect_unit, State.unit_elapse]
    exact hfree out ho
  rw [hout, State.frameEnds_good_sent htx, State.close_sent, State.rollEffect_sent]
  rfl

/-- Settles O30. -/
theorem rollClosesGood : Obligations.RollClosesGood := by
  intro dt p f s hl hfree hr hx hdef ht hf hcount hnone upstream
  have hd : rollDecision s.ctl.tapState s.rst.station f = .ownAppend := by
    rw [rollDecision_appending _ _ ht, if_neg, if_pos hcount]
    rw [openEntries_any]
    rintro ⟨x, hmem, hown⟩
    exact hnone x hmem hown
  have hkind : s.rollClose = .good := if_pos ⟨hx, hdef⟩
  obtain ⟨t, hexec, hframe, hsent⟩ := exec_roll_good (dt := dt) hl hfree hr hf hd
  rw [hkind] at hframe
  obtain ⟨a, b, hctr⟩ := State.close_ctr ((s.elapse dt).rollEffect .ownAppend f) .good (some f.closedRoll)
  have hroll := State.close_roll_some ((s.elapse dt).rollEffect .ownAppend f) .good f.closedRoll
  have hflags := State.close_cycleFlags ((s.elapse dt).rollEffect .ownAppend f) .good (some f.closedRoll)
  refine ⟨t, hexec, hframe, ?_, ?_, ?_, ?_, ?_, fun st => ?_, ?_, fun e => ?_, fun out ho => ?_, ?_, ?_, ?_⟩
  · rw [congrArg State.trk hframe, State.close_trk, State.rollEffect_trk]
    rfl
  · rw [congrArg State.ctl hframe, State.close_ctl]
    rfl
  · rw [congrArg State.ctr hframe, hctr]
    rfl
  · rw [congrArg State.ctr hframe, hctr]
    rfl
  · rw [congrArg State.roll hframe, hroll]
    rfl
  · rw [congrArg State.roll hframe, hroll]
    exact ofFn_get _ st
  · rw [congrArg State.roll hframe, hroll]
    rfl
  · rw [congrArg State.subs hframe]
    dsimp only
    exact hflags e
  · refine ⟨_, hsent out ho, ?_⟩
    have hown : rollOut s.rollSample s.rst.station .ownAppend f = appendEntry f (s.rollSample.entry s.rst.station .ownAppend) := rfl
    rw [hown]
    obtain ⟨hcode, -, hw, he, hwrapped, -⟩ := s.rollSample.statusByte_bits _ (rollStatusCode_lt s.ctl.tapState)
    refine ⟨rfl, rfl, rfl, fun i hi => ?_, fun i hi => ?_⟩
    · exact (ofFn_get _ i).trans (if_neg hi)
    · have hslot : (appendEntry f (s.rollSample.entry s.rst.station .ownAppend)).slots[i] =
          s.rollSample.entry s.rst.station .ownAppend := (ofFn_get _ i).trans (if_pos hi)
      rw [hslot]
      refine ⟨rfl, hcode.trans ?_, hw, he, hwrapped.trans s.isWrapped_eq⟩
      obtain h | h | h := ht <;> rw [h] <;> rfl
  · rw [congrArg State.inbound hframe, State.close_inbound]
    rfl
  · rw [congrArg State.rst hframe, State.close_rst]
    rfl
  · rw [congrArg State.lsp hframe, State.close_lsp]
    rfl

/-! ### The tap's own number in the open roll -/

/-- A mailbox as the entry into FAULTED leaves it (R98). -/
def Mailbox.abandoned (m : Mailbox) : Mailbox :=
  match m.state with
  | .waiting => { m with state := .done .abandoned none }
  | .inFlight r _ => { m with state := .done .abandoned (some r) }
  | _ => m

theorem State.abandonMailbox_mailbox (s : State) (m n : Fin 8) :
    (s.abandonMailbox m).sched.mailboxes[n] = if n = m then s.sched.mailboxes[m].abandoned else s.sched.mailboxes[n] := by
  have settled (x : MailboxState) (y : Source) : ((s.setMailbox m x).raise y).sched.mailboxes[n] =
      if n = m then { s.sched.mailboxes[m] with state := x } else s.sched.mailboxes[n] := upd_get _ _ _ _
  have kept : s.sched.mailboxes[n] = if n = m then s.sched.mailboxes[m] else s.sched.mailboxes[n] := by
    split
    · rename_i h
      rw [h]
    · rfl
  unfold State.abandonMailbox Mailbox.abandoned State.settle State.mailbox
  cases h : s.sched.mailboxes[m].state with
  | free => exact kept
  | waiting => exact settled _ _
  | inFlight r due => exact settled _ _
  | done o r => exact kept

/-- Every mailbox on entry into FAULTED (R98). -/
theorem State.enterFaulted_mailbox (s : State) (m : Fin 8) :
    s.enterFaulted.sched.mailboxes[m] = s.sched.mailboxes[m].abandoned := by
  have run (l : List (Fin 8)) (hl : l.Nodup) (t : State) :
      (l.foldl State.abandonMailbox t).sched.mailboxes[m] =
        if m ∈ l then t.sched.mailboxes[m].abandoned else t.sched.mailboxes[m] := by
    induction l generalizing t with
    | nil => rfl
    | cons n l ih =>
      obtain ⟨hn, hl⟩ := List.nodup_cons.mp hl
      rw [List.foldl_cons, ih hl, State.abandonMailbox_mailbox]
      by_cases h : m = n
      · subst h
        rw [if_neg hn, if_pos rfl, if_pos List.mem_cons_self]
      · simp only [List.mem_cons, h, false_or, if_false]
  rw [State.enterFaulted, run _ (List.nodup_finRange 8), if_pos (List.mem_finRange m), State.setTapState_sched]

/-- No abandoned mailbox is IN_FLIGHT, so a close leaves it (R87, R98). -/
theorem Mailbox.closed_abandoned (m : Mailbox) (missed : Bool) : m.abandoned.closed missed = m.abandoned := by
  unfold Mailbox.abandoned
  split
  · rfl
  · rfl
  · rename_i hw hf
    unfold Mailbox.closed
    split
    · rename_i r due h
      exact absurd h (hf r due)
    · rfl

/-- Settles O33. -/
theorem duplicateNumberFaults : Obligations.DuplicateNumberFaults := by
  intro dt p f s hl hfree hr ht hf hown
  have hd : rollDecision s.ctl.tapState s.rst.station f = .duplicate := by
    rw [rollDecision_appending _ _ ht, if_pos ((openEntries_any _ _).mpr hown)]
  have hnot : (s.elapse dt).ctl.tapState ≠ .faulted := by
    obtain h | h | h := ht <;> simp [h]
  obtain ⟨t, hexec, hframe, hsent⟩ := exec_roll_good (dt := dt) hl hfree hr hf hd
  have heffect : (s.elapse dt).rollEffect .duplicate f = (s.elapse dt).enterFaulted := rfl
  rw [heffect] at hframe
  obtain ⟨-, hatt, -, -, hboxes⟩ := State.close_units (s.elapse dt).enterFaulted s.rollClose (some f.closedRoll)
  refine ⟨t, hexec, ?_, ?_, ?_, ?_, fun m => ?_, hsent⟩
  · rw [congrArg State.ctl hframe, State.close_ctl, State.enterFaulted_ctl, State.elapse_ctl]
  · rw [congrArg State.att hframe, hatt, State.enterFaulted_att, if_neg hnot]
    rfl
  · rw [congrArg State.trk hframe, State.close_trk, if_neg s.rollClose_ne_missed]
  · rw [congrArg State.roll hframe, State.close_roll_some, State.enterFaulted_roll]
    rfl
  · rw [congrArg State.sched hframe, hboxes, State.enterFaulted_mailbox, Mailbox.closed_abandoned]
    rfl

end Sys2Proof.Machine
end


section
/-! PROOFS. The tracker's timers, and a frame that begins and ends in two commands (R30, R31, R34, R125). -/

namespace Sys2Proof.Machine

/-! ### A frame begins to arrive -/

/-- Beside the gap timer and the port, the beginning of a frame of the train moves nothing (R30). -/
theorem State.beginArrival_train {s : State} {p : Port} {lead : Lead} (h : s.listens p) (hrec : s.trk.record.port = some p)
    (he : lead ≠ .echo) (ho : lead ≠ .header 3#2 ∨ s.route p ≠ some p) :
    s.beginArrival p lead =
      State.modUnit { s with trk := { s.trk with gapTimer := none } } p fun u =>
        { u with arriving := some (s.decides p lead) } := by
  obtain ⟨hsees, hdiscard⟩ := State.sees_listening h lead he ho
  have hstop (t : State) (ht : t.trk.record.port = some p) : t.stopGap p = t.modTrk fun x => { x with gapTimer := none } := by
    rw [State.stopGap, if_pos ht]
  rw [State.beginArrival_listening hsees hdiscard, State.arrivalOf_listening h he ho, hstop _ (by simpa using hrec)]
  obtain ⟨-, -, -, hkept⟩ := h
  cases p <;> simp only [State.modUnit, State.setUnit, State.unit, State.modTrk] <;> rw [← hkept] <;> rfl

/-- The beginning of a frame outside BYPASS (R144). -/
theorem State.frameBegins_of_tapState_ne {s : State} (hb : s.ctl.tapState ≠ .bypass) (p : Port) (lead : Lead) :
    s.frameBegins p lead =
      match (s.unit p).arriving with
      | none => s.beginArrival p (if lead = .openCount then .roll else lead)
      | some a => if lead = .openCount then s.openCountArrives p a else s :=
  if_neg fun h => hb (of_decide_eq_true h)

theorem exec_frameBegins_train {dt : Nat} {p : Port} {lead : Lead} {s : State} (h : s.listens p)
    (hrec : s.trk.record.port = some p) (he : lead ≠ .echo) (hc : lead ≠ .openCount)
    (ho : lead ≠ .header 3#2 ∨ s.route p ≠ some p) :
    exec (.frameBeginsToArrive dt p lead) s =
      .next (State.modUnit { s.elapse dt with trk := { s.trk with gapTimer := none } } p fun u =>
        { u with arriving := some (s.decides p lead) }) := by
  have hl : (s.elapse dt).listens p := by cases p <;> exact h
  have hd : (s.elapse dt).decides p lead = s.decides p lead := by cases p <;> rfl
  have ho' : lead ≠ .header 3#2 ∨ (s.elapse dt).route p ≠ some p := ho
  have hbegin := State.beginArrival_train hl hrec he ho'
  obtain ⟨hb, -, ha, -⟩ := hl
  show Host.Outcome.next ((s.elapse dt).frameBegins p lead) = _
  rw [State.frameBegins_of_tapState_ne hb, ha]
  dsimp only
  rw [if_neg hc, hbegin, hd]
  rfl

/-- The open count of a ROLL of the train takes the sample anew (R125). -/
theorem exec_openCount_rollArriving {p : Port} {s : State} {a : Arriving} (dt : Nat) (hb : s.ctl.tapState ≠ .bypass)
    (hrec : s.trk.record = .inTrain p) (ha : (s.unit p).arriving = some a) (hlead : a.lead = .roll) (hseen : a.seen = true) :
    exec (.frameBeginsToArrive dt p .openCount) s =
      .next ((s.elapse dt).modUnit p fun u => { u with arriving := some { a with roll := some s.rollSample } }) := by
  have hopen : (s.elapse dt).openCountArrives p a =
      (s.elapse dt).modUnit p fun u => { u with arriving := some { a with roll := some s.rollSample } } := by
    rw [State.openCountArrives, State.rollTaken, if_pos ⟨hlead, hseen, hrec⟩]
    rfl
  have ha' : ((s.elapse dt).unit p).arriving = some a := by rwa [State.unit_elapse]
  show Host.Outcome.next ((s.elapse dt).frameBegins p .openCount) = _
  rw [State.frameBegins_of_tapState_ne (by exact hb), ha']
  exact congrArg Host.Outcome.next hopen

/-- With no ROLL arriving it is the beginning of one. -/
theorem exec_openCount_alone {p : Port} {s : State} (dt : Nat) (ha : (s.unit p).arriving = none) :
    exec (.frameBeginsToArrive dt p .openCount) s = exec (.frameBeginsToArrive dt p .roll) s := by
  have ha' : ((s.elapse dt).unit p).arriving = none := by rwa [State.unit_elapse]
  show Host.Outcome.next ((s.elapse dt).frameBegins p .openCount) = Host.Outcome.next ((s.elapse dt).frameBegins p .roll)
  rw [State.frameBegins, State.frameBegins, ha']
  rfl

/-! ### The gap timer -/

theorem exec_gapTimer_inTrain {s : State} {d : Nat} {p : Port} (dt : Nat) (hd : s.trk.gapTimer = some d)
    (hrec : s.trk.record = .inTrain p) :
    exec (.gapTimerExpiry dt) s = .next (State.close { s with now := max (s.now + dt) d } .aborted none) := by
  have hd' : (s.elapse dt).trk.gapTimer = some d := hd
  have hrec' : ((s.elapse dt).reach d).trk.record = .inTrain p := hrec
  show Host.Outcome.next (s.elapse dt).gapTimerExpiry = _
  rw [State.gapTimerExpiry, hd']
  dsimp only
  rw [hrec']
  rfl

theorem exec_gapTimer_passing {s : State} {d : Nat} {p : Port} (dt : Nat) (hd : s.trk.gapTimer = some d)
    (hrec : s.trk.record = .passing p) :
    exec (.gapTimerExpiry dt) s = .next (State.endRecord { s with now := max (s.now + dt) d }) := by
  have hd' : (s.elapse dt).trk.gapTimer = some d := hd
  have hrec' : ((s.elapse dt).reach d).trk.record = .passing p := hrec
  show Host.Outcome.next (s.elapse dt).gapTimerExpiry = _
  rw [State.gapTimerExpiry, hd']
  dsimp only
  rw [hrec']
  rfl

/-! ### The train timer -/

/-- The missed-cycle count reaches the active limit in a state that is not SILENT yet (R34). -/
def State.fallsSilent (s : State) : Prop :=
  satInc s.trk.missed = s.mgmt.active.params.cycleLoss ∧ s.trk.cycleState ≠ .silent

/-- The tracker after a MISSED close and the count that follows it, with the train timer as given (R31, R34). -/
def State.missedTrk (s : State) (timer : Option Nat) : Tracker :=
  { s.trk with
    missed := satInc s.trk.missed
    trainTimer := timer
    cycleState := if satInc s.trk.missed = s.mgmt.active.params.cycleLoss then .silent else s.trk.cycleState
    valid :=
      if satInc s.trk.missed = s.mgmt.active.params.cycleLoss ∧ s.trk.cycleState ≠ .silent then false else s.trk.valid }

theorem State.rearmTrain_eq {s : State} {period : Nat} (h : s.trk.lastPeriod = some period) :
    s.rearmTrain = { s with trk := { s.trk with trainTimer := some (s.now + period + 100) } } := by
  have htimer : (s.trk.lastPeriod.map fun x => s.now + x + trainMargin) = some (s.now + period + 100) := by
    rw [h]
    rfl
  rw [State.rearmTrain, State.modTrk]
  dsimp only
  rw [htimer]

theorem State.missedClose_of_not_fallsSilent {s : State} (h : ¬s.fallsSilent) :
    s.missedClose = { s.close .missed none with trk := s.missedTrk s.trk.trainTimer } := by
  have htrk : (s.close .missed none).trk = s.trk := by rw [State.close_trk, if_pos rfl]
  have hmgmt : (s.close .missed none).mgmt.active = s.mgmt.active := by rw [State.close_mgmt]
  have hmissed : s.missedTrk s.trk.trainTimer = { s.trk with missed := satInc s.trk.missed } := by
    unfold State.fallsSilent at h
    unfold State.missedTrk
    dsimp only
    rw [if_neg h]
    split
    · rename_i hlimit
      rw [not_not.mp fun hs => h ⟨hlimit, hs⟩]
    · rfl
  rw [hmissed]
  unfold State.missedClose
  dsimp only [State.modTrk]
  generalize s.close .missed none = c at htrk hmgmt ⊢
  rw [htrk, hmgmt]
  exact if_neg h

theorem State.missedClose_of_fallsSilent {s : State} (h : s.fallsSilent) :
    s.missedClose =
      State.raise
        { s.close .missed none with
          trk := s.missedTrk s.trk.trainTimer, att := { (s.close .missed none).att with cycle := true } }
        .cycleSilent := by
  have htrk : (s.close .missed none).trk = s.trk := by rw [State.close_trk, if_pos rfl]
  have hmgmt : (s.close .missed none).mgmt.active = s.mgmt.active := by rw [State.close_mgmt]
  have hmissed : s.missedTrk s.trk.trainTimer =
      { s.trk with missed := satInc s.trk.missed, cycleState := .silent, valid := false } := by
    obtain ⟨hlimit, hs⟩ := h
    unfold State.missedTrk
    dsimp only
    rw [if_pos hlimit, if_pos ⟨hlimit, hs⟩]
  rw [hmissed]
  unfold State.missedClose
  dsimp only [State.modTrk]
  generalize s.close .missed none = c at htrk hmgmt ⊢
  rw [htrk, hmgmt]
  exact if_pos h

theorem exec_trainTimer_inTrain {s : State} {d period : Nat} {p : Port} (dt : Nat) (hd : s.trk.trainTimer = some d)
    (hperiod : s.trk.lastPeriod = some period) (hrec : s.trk.record = .inTrain p) :
    exec (.trainTimerExpiry dt) s =
      .next
        { s with
          now := max (s.now + dt) d
          trk := { s.trk with trainTimer := some (max (s.now + dt) d + period + 100) } } := by
  have hd' : (s.elapse dt).trk.trainTimer = some d := hd
  have hrec' : ((s.elapse dt).reach d).trk.record = .inTrain p := hrec
  have hperiod' : ((s.elapse dt).reach d).trk.lastPeriod = some period := hperiod
  show Host.Outcome.next (s.elapse dt).trainTimerExpiry = _
  rw [State.trainTimerExpiry, hd']
  dsimp only
  rw [hrec']
  dsimp only
  rw [State.rearmTrain_eq hperiod']
  rfl

theorem exec_trainTimer_missed {s : State} {d : Nat} (dt : Nat) (hd : s.trk.trainTimer = some d)
    (hrec : ∀ q, s.trk.record ≠ .inTrain q) :
    exec (.trainTimerExpiry dt) s = .next (State.missedClose { s with now := max (s.now + dt) d }).rearmTrain := by
  have hd' : (s.elapse dt).trk.trainTimer = some d := hd
  show Host.Outcome.next (s.elapse dt).trainTimerExpiry = _
  rw [State.trainTimerExpiry, hd']
  dsimp only
  cases h : ((s.elapse dt).reach d).trk.record with
  | inTrain q => exact absurd h (hrec q)
  | idle => rfl
  | passing q => rfl

/-- A MISSED close by the train timer, which is then armed again (R31, R34). -/
theorem State.missedClose_rearmTrain {s : State} {period : Nat} (hperiod : s.trk.lastPeriod = some period) :
    let t := s.missedClose.rearmTrain
    t.trk = s.missedTrk (some (s.now + period + 100)) ∧
      (¬s.fallsSilent → t = { s.close .missed none with trk := t.trk }) ∧
      (s.fallsSilent →
        t = State.raise { s.close .missed none with trk := t.trk, att := { (s.close .missed none).att with cycle := true } }
          .cycleSilent) := by
  intro t
  by_cases h : s.fallsSilent
  · have ht : t =
        State.raise
          { s.close .missed none with
            trk := s.missedTrk (some (s.now + period + 100)), att := { (s.close .missed none).att with cycle := true } }
          .cycleSilent := by
      show s.missedClose.rearmTrain = _
      rw [State.missedClose_of_fallsSilent h, State.rearmTrain_eq (by exact hperiod), State.raise_now, State.raise_trk]
      dsimp only
      rw [State.close_now]
      generalize s.close .missed none = c
      rfl
    have htrk : t.trk = s.missedTrk (some (s.now + period + 100)) := by rw [ht, State.raise_trk]
    exact ⟨htrk, fun hn => absurd h hn, fun _ => htrk ▸ ht⟩
  · have ht : t = { s.close .missed none with trk := s.missedTrk (some (s.now + period + 100)) } := by
      show s.missedClose.rearmTrain = _
      rw [State.missedClose_of_not_fallsSilent h, State.rearmTrain_eq (by exact hperiod)]
      dsimp only
      rw [State.close_now]
      generalize s.close .missed none = c
      rfl
    have htrk : t.trk = s.missedTrk (some (s.now + period + 100)) := by rw [ht]
    exact ⟨htrk, fun _ => htrk ▸ ht, fun hs => absurd hs h⟩

/-- What the count of missed cycles, the state and its event leave of a MISSED close. -/
theorem State.missedClose_rearmTrain_kept {s t : State} (hquiet : ¬s.fallsSilent → t = { s.close .missed none with trk := t.trk })
    (hsilent : s.fallsSilent →
      t = State.raise { s.close .missed none with trk := t.trk, att := { (s.close .missed none).att with cycle := true } }
        .cycleSilent) :
    t.ctr = (s.close .missed none).ctr ∧ t.roll = s.roll ∧ t.ctl = s.ctl ∧ t.portW = s.portW ∧ t.portE = s.portE ∧
      t.sent = s.sent := by
  have hroll := State.close_roll_none s .missed
  have hctl := State.close_ctl s .missed none
  have hportW := State.close_portW s .missed none
  have hportE := State.close_portE s .missed none
  have hsent := State.close_sent s .missed none
  generalize s.close .missed none = c at *
  by_cases h : s.fallsSilent
  · rw [hsilent h]
    exact ⟨rfl, hroll, hctl, hportW, hportE, hsent⟩
  · rw [hquiet h]
    exact ⟨rfl, hroll, hctl, hportW, hportE, hsent⟩

/-- Settles O36. -/
theorem trackerTimers : Obligations.TrackerTimers := by
  refine ⟨⟨fun dt p lead s h hrec he hc ho => ?_, fun d dt p fcs s t hb ha => ?_, fun dt p s hb hrec => ?_,
    fun dt d p s hd hrec => ?_, fun dt d p s hd hrec => exec_gapTimer_passing dt hd hrec⟩,
    fun dt d period s hd hperiod hrec => ?_, fun dt d period p s hd hperiod hrec => exec_trainTimer_inTrain dt hd hperiod hrec⟩
  · refine ⟨_, exec_frameBegins_train h hrec he hc ho, ?_, ?_, ?_⟩
    · cases p <;> rfl
    · cases p <;> rfl
    · cases p <;> rfl
  · intro began
    have whole (f : Frame) (act : Arriving → Check → State → Passed) (hl : f.lead ≠ .openCount)
        (h : exec (.frameBeginsToArrive d p f.lead) s = .next t) :
        (t.elapse dt).receive p f fcs act = (s.elapse (d + dt)).receive p f fcs act :=
      State.receive_begun act hb ha hl (Host.Outcome.next.inj h)
    refine ⟨fun f h => ?_, fun f h => ?_, fun f h => ?_, fun f h => ?_, fun f h => ?_, fun f h => ?_⟩
    · exact congrArg Host.Outcome.next (whole (.header f) _ (by simp [Frame.lead]) h)
    · exact congrArg Host.Outcome.next (whole (.block f) _ (by simp [Frame.lead]) h)
    · exact congrArg Host.Outcome.next (whole (.container f) _ (by simp [Frame.lead]) h)
    · exact congrArg Host.Outcome.next (whole (.roll f) _ (by simp [Frame.lead]) h)
    · exact congrArg Host.Outcome.next (whole (.echo f) _ (by simp [Frame.lead]) h)
    · exact congrArg Host.Outcome.next (whole (.unknown f) _ (by simp [Frame.lead]) h)
  · have hsample := s.rollSample_eq
    exact ⟨fun a ha hlead hseen => hsample ▸ exec_openCount_rollArriving dt hb hrec ha hlead hseen,
      fun ha => exec_openCount_alone dt ha⟩
  · have hfills := State.close_fillFailures { s with now := max (s.now + dt) d } .aborted none rfl
    obtain ⟨a, b, hctr⟩ := State.close_ctr { s with now := max (s.now + dt) d } .aborted none
    refine ⟨_, exec_gapTimer_inTrain dt hd hrec, rfl, State.close_now .., ?_, ?_, hfills, State.close_cycleFlags _ _ _,
      State.close_roll_none .., State.close_ctl .., State.close_portW .., State.close_portE .., State.close_sent ..⟩
    · rw [State.close_trk, if_neg (by decide)]
    · rw [hctr]
      rfl
  · obtain ⟨htrk, hquiet, hsilent⟩ := State.missedClose_rearmTrain (s := { s with now := max (s.now + dt) d }) hperiod
    obtain ⟨a, b, hctr⟩ := State.close_ctr { s with now := max (s.now + dt) d } .missed none
    obtain ⟨hcounters, hroll, hctl, hportW, hportE, hsent⟩ := State.missedClose_rearmTrain_kept hquiet hsilent
    refine ⟨_, exec_trainTimer_missed dt hd hrec, hquiet, hsilent, ?_, htrk, hroll, hctl, hportW, hportE, hsent⟩
    rw [hcounters, hctr]
    rfl

end Sys2Proof.Machine
end


section
/-! PROOFS. Everything a close of a cycle does, in the terms of the specification (R33, R47 to R50, R60 to R63, R87, R124, R131). -/

namespace Sys2Proof.Machine

/-! ### What a close leaves alone -/

/-- The units that a close does not touch. -/
theorem State.close_frame (s : State) (k : CloseKind) (closed : Option (List RollEntry)) :
    let t := s.close k closed
    t = { s with
      trk := t.trk, mgmt := t.mgmt, subs := t.subs, rx := t.rx, pub := t.pub, sched := t.sched, roll := t.roll, sig := t.sig,
      att := t.att, ctr := t.ctr } := by
  intro t
  have hpending : t.pending = s.pending := s.close_pending k closed
  have hnow : t.now = s.now := s.close_now k closed
  have hsent : t.sent = s.sent := s.close_sent k closed
  have hctl : t.ctl = s.ctl := s.close_ctl k closed
  have hinbound : t.inbound = s.inbound := s.close_inbound k closed
  have hportW : t.portW = s.portW := s.close_portW k closed
  have hportE : t.portE = s.portE := s.close_portE k closed
  have hlsp : t.lsp = s.lsp := s.close_lsp k closed
  have hrst : t.rst = s.rst := s.close_rst k closed
  rw [← hpending, ← hnow, ← hsent, ← hctl, ← hinbound, ← hportW, ← hportE, ← hlsp, ← hrst]

/-! ### Counters -/

theorem CloseKind.tally_eq (k : CloseKind) (c : TapCounters) :
    k.tally c =
      { c with
        trainsDefective := if k = .defective then satInc c.trainsDefective else c.trainsDefective
        trainsAborted := if k = .aborted then satInc c.trainsAborted else c.trainsAborted
        cyclesMissed := if k = .missed then satInc c.cyclesMissed else c.cyclesMissed } := by
  cases k <;> rfl

theorem CloseKind.judges_eq (k : CloseKind) : (decide (k = .good) || decide (k = .defective)) = k.judges := by cases k <;> rfl

/-! ### Mailboxes -/

theorem Mailbox.unconfirmed_iff (m : Mailbox) (missed : Bool) :
    m.unconfirmed missed = true ↔ ∃ r due, m.state = .inFlight r due ∧ (due = true ∨ missed = true) := by
  unfold Mailbox.unconfirmed
  cases m.state with
  | inFlight r due =>
    refine Bool.or_eq_true_iff.trans ⟨fun h => ⟨r, due, rfl, h⟩, ?_⟩
    rintro ⟨_, _, heq, h⟩
    cases heq
    exact h
  | _ => simp

/-! ### Subscription records -/

/-- An entry's record after the close, its flags clear (R47, R49, R50). -/
theorem State.agedRecord_cleared (s : State) (e : Fin 32) :
    ({ s.agedRecord e with captured := false, freshNow := false } : SubRecord) =
      if s.mgmt.active.subs[e].valid = true then
        if s.subs[e].freshNow = true then ⟨.fresh, 0, some s.trk.lastCycle, false, false⟩
        else
          ⟨if s.mgmt.active.subs[e].ageLimit < satInc s.subs[e].age then .stale else s.subs[e].freshness,
            satInc s.subs[e].age, s.subs[e].lastFresh, false, false⟩
      else { s.subs[e] with captured := false, freshNow := false } := by
  unfold State.agedRecord SubRecord.agedFresh SubRecord.agedOlder
  split
  · split <;> rfl
  · rfl

/-! ### Receive banks -/

/-- A bank whose close judges it complete (R48, R60). -/
theorem State.judged_of_closeJudges (s : State) (k : CloseKind) (b : Fin 8) (x : RxBank) :
    (if s.closeJudges k = true then s.judged b x else x) =
      if (s.closeJudges k && s.owed b && s.allCaptured b) = true then x.completed s.trk.lastCycle (s.readBurst b) else x := by
  cases s.closeJudges k with
  | false => rfl
  | true => rfl

/-- A bank judged before `b` whose BANK_READY reaches the TAKE user of `b` (R60, R62). -/
theorem State.readied_of_closeJudges (s : State) (k : CloseKind) (b : Fin 8) :
    s.closeJudges k = true ∧ s.readied (· < b) b ↔
      ∃ c : Fin 8, c < b ∧ (s.closeJudges k && s.owed c) = true ∧ s.allCaptured c = true ∧
        s.bound (.bankReady c) (takeUser b) = true := by
  constructor
  · rintro ⟨hj, c, hlt, ⟨howed, hall⟩, hbound⟩
    exact ⟨c, hlt, Bool.and_eq_true_iff.mpr ⟨hj, howed⟩, hall, hbound⟩
  · rintro ⟨c, hlt, hboth, hall, hbound⟩
    obtain ⟨hj, howed⟩ := Bool.and_eq_true_iff.mp hboth
    exact ⟨hj, c, hlt, ⟨howed, hall⟩, hbound⟩

/-! ### The events -/

theorem State.presenceChanges_census (s : State) (l : List RollEntry) :
    s.presenceChanges l = true ↔
      ∃ st : Fin 63,
        (s.roll.census[st].update l st s.trk.lastCycle s.mgmt.active.params.lostThreshold).presence ≠ s.roll.census[st].presence := by
  rw [State.presenceChanges_iff]
  refine exists_congr fun st => ?_
  rw [State.nextCensus, ofFn_get]

/-- Settles O26. -/
theorem closeOfACycle : Obligations.CloseOfACycle := by
  intro s k closed
  rw [CloseKind.judges_eq]
  intro t judged names owed all stales raised reaches
  have hraised (x : Source) : raised x ↔ s.closeRaises k closed x := by
    cases x with
    | bankReady b => exact (and_congr_left' Bool.and_eq_true_iff).trans and_assoc
    | subFresh e => simp [raised, State.closeRaises, State.turnsFresh, and_assoc]
    | subStale e => exact Iff.rfl
    | censusChange => exact exists_congr fun l => and_congr_right' (s.presenceChanges_census l).symm
    | outcome m =>
      refine Iff.trans ?_ (Mailbox.unconfirmed_iff _ _).symm
      simp only [raised, decide_eq_true_eq]
    | _ => exact Iff.rfl
  have hreaches (u : Fin 21) : reaches u ↔ s.reached (s.closeRaises k closed) u :=
    exists_congr fun x => and_congr_left' (hraised x)
  have hevents := s.close_raised k closed
  obtain ⟨hsubs, hatt, hctr, hsched, hboxes⟩ := s.close_units k closed
  refine ⟨s.close_frame k closed, s.close_trk k closed, ?_, ⟨fun b => ?_, fun p => ⟨hevents.pub p, ?_⟩⟩, fun e => ?_, hatt, ?_,
    ⟨hsched, fun m => ?_⟩, s.close_mgmt k closed, hevents.sig, fun j => ⟨fun h => ?_, fun h => ?_⟩⟩
  · rw [CloseKind.tally_eq] at hctr
    exact hctr
  · intro asked completed judgedBank early
    obtain ⟨hkept, htaken, hearly⟩ := s.close_rx k closed b
    dsimp only at hkept htaken hearly
    rw [State.judged_of_closeJudges] at hkept htaken hearly
    rw [State.readied_of_closeJudges] at htaken hearly
    exact ⟨fun h => hkept (mt (hreaches _).mpr h), fun h he => htaken ((hreaches _).mp h) he, fun he => hearly he⟩
  · rw [hevents.posted, hreaches]
  · rw [hsubs, State.agedRecord_cleared]
  · refine ⟨fun h => ?_, fun l h => ?_⟩
    · show (s.close k closed).roll = s.roll
      rw [h, State.close_roll_none]
    · have hroll : t.roll = _ := (congrArg (fun c => (s.close k c).roll) h).trans (s.close_roll_some k l)
      rw [hroll]
      exact ⟨rfl, fun st => ofFn_get _ st⟩
  · show (s.close k closed).sched.mailboxes[m] = _
    rw [hboxes]
    unfold Mailbox.closed
    cases s.sched.mailboxes[m].state with
    | inFlight r due => exact if_congr (by simp) rfl rfl
    | _ => rfl
  · exact hevents.pinsHit j ((hreaches _).mp h)
  · exact hevents.pinsMissed j (mt (hreaches _).mpr h)

end Sys2Proof.Machine
end


section
/-! PROOFS. A good CONTAINER at its expected index that is taken, and one that is filled from a mailbox (R84, R89, R91 to R93). -/

namespace Sys2Proof.Machine

/-! ### A good CONTAINER acts and leaves -/

/-- The tap that has counted a frame of its train: the clock, the gap timer and the ports have moved (R12, R30). -/
theorem State.counted_train {s : State} {p : Port} (hr : s.trk.record = .inTrain p) (dt : Nat) :
    let u := (s.elapse dt).counted p false
    u = { s with now := s.now + dt, trk := { s.trk with gapTimer := none }, portW := u.portW, portE := u.portE } := by
  have hstop : (s.elapse dt).stopGap p = (s.elapse dt).modTrk fun x => { x with gapTimer := none } := by
    rw [State.stopGap, if_pos (by rw [State.elapse_trk, hr]; rfl)]
  unfold State.counted
  rw [hstop]
  cases p <;> rfl

/-- A good outcome in the error window moves no more than a port (R137). -/
theorem State.windowAdd_good_frame (s : State) (p : Port) :
    let t := s.windowAdd p false
    t = { s with sent := t.sent, portW := t.portW, portE := t.portE } := by
  rw [State.windowAdd_good]
  cases p <;> rfl

theorem State.counted_tx (s : State) (p : Port) (unknown : Bool) (q : Port) :
    ((s.counted p unknown).unit q).tx = (s.unit q).tx := by
  unfold State.counted State.stopGap
  split <;> cases p <;> cases q <;> rfl

/-- A good CONTAINER at its expected index, at a listening port whose line is free: beside what its acting moves, the position moves
on, the gap timer is armed and the container leaves (R27, R30, R84). -/
theorem exec_container_acts {s : State} {dt : Nat} {p : Port} {f : ContainerFrame} {r : Handled} (hl : s.listens p)
    (hfree : s.lineFree p) (hr : s.trk.record = .inTrain p) (hx : s.trk.expected = some (.container f.index.toNat))
    (hact : ((s.elapse dt).counted p false).actOnContainer f = r) (hplaced : r.state.mgmt = s.mgmt) :
    ∃ t : State,
      exec (.container dt p f (some (Frame.check (.container f)))) s = .next t ∧
        t = { r.state with
          trk := { s.trk with
            expected := some (if f.index.toNat + 1 < s.trk.containers.toNat then .container (f.index.toNat + 1) else .roll)
            gapTimer := some (s.now + dt + 100) }
          sent := t.sent
          portW := t.portW
          portE := t.portE } ∧
        ∀ out, s.route p = some out →
          t.sent = s.sent ++ [⟨out, .whole (.container r.frame) (Frame.check (.container r.frame))⟩] := by
  have hu := State.counted_train hr dt
  generalize huu : (s.elapse dt).counted p false = u at hact hu
  have hline : u.SameLine r.state := hact ▸ State.sameLine_actOnContainer u f
  have htrk : u.trk = { s.trk with gapTimer := none } := congrArg State.trk hu
  have hpass : passContainer p f ((s.elapse dt).arrivalOf p .container) .good u =
      ⟨{ r.state with
          trk := { s.trk with
            expected := some (afterContainer s.trk.containers f.index.toNat)
            gapTimer := some (s.now + dt + 100) } }, .container r.frame⟩ := by
    have hin : u.trk.record = .inTrain p := by rw [htrk]; exact hr
    have hex : u.trk.expected = some (.container f.index.toNat) := by rw [htrk]; exact hx
    have hport : r.state.trk.record.port = some p := by rw [hline.trk, hin]; rfl
    have hnow : r.state.now = s.now + dt := hline.now.trans (congrArg State.now hu)
    have hseen : ((s.elapse dt).arrivalOf p .container).seen = true :=
      (State.sees_listening (State.listens_elapse hl dt) .container (by simp) (.inl (by simp))).1
    simp only [passContainer, hseen, if_true, State.trackContainer, hin, State.goodContainer_expected hex, hact]
    rw [State.armGap_at (by exact hport)]
    simp only [State.expect, State.modTrk, State.handled, hline.trk, hnow, htrk]
  have hgood := State.receive_good (.container f) (passContainer p f) (State.listens_elapse hl dt) (State.lineFree_elapse hfree dt)
    (by simp [Frame.lead]) (.inl (by simp [Frame.lead]))
  have hknown : decide (Frame.lead (.container f) = .unknown) = false := rfl
  have hlead : Frame.lead (.container f) = .container := rfl
  rw [hknown, huu, hlead] at hgood
  have htx (q : Port) : (r.state.unit q).tx = ((s.elapse dt).unit q).tx := by
    rw [hline.tx, ← huu, State.counted_tx]
  replace hgood := hgood (fun q => by rw [hpass]; exact htx q)
    (by rw [hpass]; exact congrArg (fun m => State.restartPlaced { s with mgmt := m }) hplaced)
  rw [hpass] at hgood
  have hsent : r.state.sent = s.sent := hline.sent.trans (congrArg State.sent hu :)
  cases hroute : s.route p with
  | none =>
    rw [State.route_elapse, hroute] at hgood
    exact ⟨_, congrArg Host.Outcome.next hgood, State.windowAdd_good_frame _ p, fun out ho => nomatch ho⟩
  | some out =>
    rw [State.route_elapse, hroute] at hgood
    refine ⟨_, congrArg Host.Outcome.next hgood, State.windowAdd_good_frame (State.emit _ out _) p, fun out' ho => ?_⟩
    cases ho
    rw [State.windowAdd_good, State.modUnit_sent, ← hsent]
    rfl

/-! ### The steps that such a container passes -/

/-- No outcome is due at the index (R86). -/
theorem State.outcomeStep_none {s : State} {i : Fin 8} (h : ∀ m : Fin 8, s.sched.mailboxes[m].dueAt i = none) (f : ContainerFrame) :
    s.outcomeStep i f = s.handled f := by
  have hnone : s.dueMailboxAt i = none := by
    refine List.find?_eq_none.mpr fun m _ => ?_
    show ¬(s.sched.mailboxes[m].dueAt i).isSome = true
    rw [h m]
    exact Bool.false_ne_true
  rw [State.outcomeStep, hnone]

theorem State.stripStep_other {s : State} {f : ContainerFrame} (h : (f.isFull && s.ownNumber f.source) = false) :
    s.stripStep f = s.handled f := by
  rw [State.stripStep, h]
  rfl

/-- A USER message for this tap, with room in the queue, is taken (R89, R99). -/
theorem State.deliveryStep_user {s : State} {f : ContainerFrame} (hfull : f.isFull = true) (hdest : stationOf f.dest = s.rst.station)
    (hrefused : f.isRefused = false) (hcls : f.cls = 0x02#8) (hroom : s.inbound.length < 8) :
    s.deliveryStep f = (s.joinInbound f false).handled f.emptied := by
  have hfor : (f.isFull && s.ownNumber f.dest && !f.isRefused) = true := by
    rw [hfull, hrefused, State.ownNumber, decide_eq_true hdest]
    rfl
  rw [State.deliveryStep, if_pos hfor, if_neg (by rw [hcls]; decide), if_pos hcls]
  exact if_pos hroom

theorem State.deliveryStep_empty {s : State} {f : ContainerFrame} (h : f.isFull = false) : s.deliveryStep f = s.handled f := by
  rw [State.deliveryStep, h]
  rfl

theorem State.broadcastStep_empty {s : State} {f : ContainerFrame} (h : f.isFull = false) : s.broadcastStep f = s := by
  rw [State.broadcastStep, h]
  rfl

theorem emptied_isFull (f : ContainerFrame) : f.emptied.isFull = false := by
  show (0 : Byte).getLsbD 0 = false
  decide

/-! ### The fill step -/

/-- Nothing to fill with: no response, and no mailbox is WAITING (R91). -/
theorem State.fillStep_nothing {s : State} (hresponses : s.mgmt.responses = []) (h : ∀ m, s.waiting m = false) (t : TapState)
    (took : Bool) (i : Fin 8) (f : ContainerFrame) : s.fillStep t took i f = (s, f) := by
  have hchoose : s.chooseMailbox = none := by
    unfold State.chooseMailbox
    cases s.mgmt.active.params.order <;> cases s.mgmt.active.params.urgent <;> simp [h]
  rw [State.fillStep, hresponses, hchoose]
  exact ite_self _

/-- Under the fixed order with no urgent mailbox, the lowest WAITING mailbox fills (R91). -/
theorem State.fillStep_lowest {s : State} {t : TapState} {m : Fin 8} (hresponses : s.mgmt.responses = [])
    (ht : t = .online ∨ t = .halted) (hquota : s.sched.fills < s.mgmt.active.params.fillQuota.toNat)
    (horder : s.mgmt.active.params.order = .fixed) (hurgent : s.mgmt.active.params.urgent = none) (hm : s.waiting m = true)
    (hlowest : ∀ n : Fin 8, n.val < m.val → s.waiting n = false) (took : Bool) (i : Fin 8) (f : ContainerFrame) :
    s.fillStep t took i f =
      (s.fillFromMailbox i m false, filledFromMailbox f.index s.rst.station s.sched.mailboxes[m] s.sched.tagCounter) := by
  have hallowed : s.userFillAllowed t = true := by
    rw [State.userFillAllowed, decide_eq_true hquota]
    obtain rfl | rfl := ht <;> rfl
  have hfind : (List.finRange 8).find? s.waiting = some m := by
    rw [← Fin.find?_eq_find?_finRange, Fin.find?_eq_some_iff]
    exact ⟨hm, hlowest⟩
  have hchoose : s.chooseMailbox = some (m, false) := by
    unfold State.chooseMailbox
    rw [horder, hurgent, hfind]
    rfl
  rw [State.fillStep, hresponses, hchoose]
  exact if_pos hallowed

/-! ### The two containers -/

/-- A container that takes the five steps (R84). -/
theorem State.actOnContainer_steps {s : State} {f : ContainerFrame} (hf : f.malformed = false)
    (ht : s.ctl.tapState = .unconfigured ∨ s.ctl.tapState = .online ∨ s.ctl.tapState = .halted) :
    s.actOnContainer f = s.containerSteps s.ctl.tapState (Fin.ofNat 8 f.index.toNat) f := by
  rw [State.actOnContainer, if_neg (by rw [hf]; exact Bool.false_ne_true), if_pos ((takesContainers_iff _).mpr ht)]

/-- A USER message for this tap, where no outcome is due and nothing waits to fill the container again (R84). -/
theorem State.containerSteps_user {s : State} {f : ContainerFrame} (i : Fin 8) (t : TapState) (hfull : f.isFull = true)
    (hdest : stationOf f.dest = s.rst.station) (hsource : stationOf f.source ≠ s.rst.station) (hrefused : f.isRefused = false)
    (hcls : f.cls = 0x02#8) (hroom : s.inbound.length < 8) (hfree : ∀ m : Fin 8, s.sched.mailboxes[m].state = .free)
    (hresponses : s.mgmt.responses = []) : s.containerSteps t i f = (s.joinInbound f false).handled f.emptied := by
  have hdue (m : Fin 8) : s.sched.mailboxes[m].dueAt i = none := by rw [Mailbox.dueAt, hfree]
  have hwaiting (m : Fin 8) : (s.joinInbound f false).waiting m = false := congrArg MailboxState.isWaiting (hfree m)
  have hother : (f.isFull && s.ownNumber f.source) = false := by rw [State.ownNumber, decide_eq_false hsource, Bool.and_false]
  have hfill := fun took => State.fillStep_nothing (s := s.joinInbound f false) hresponses hwaiting t took i f.emptied
  rw [State.containerSteps_eq, State.outcomeStep_none hdue]
  simp only [State.handled, State.stripStep_other hother, State.deliveryStep_user hfull hdest hrefused hcls hroom,
    State.broadcastStep_empty (emptied_isFull f), emptied_isFull f, hfill, Bool.false_eq_true, if_false]

/-- An EMPTY container where no outcome is due and no response waits (R84, R91). -/
theorem State.containerSteps_empty {s : State} {f : ContainerFrame} {i : Fin 8} (t : TapState) (hempty : f.isFull = false)
    (hdue : ∀ m : Fin 8, s.sched.mailboxes[m].dueAt i = none) :
    s.containerSteps t i f = (s.fillStep t false i f).1.handled (s.fillStep t false i f).2 := by
  have hother : (f.isFull && s.ownNumber f.source) = false := by rw [hempty]; rfl
  have htakes : s.takesRequest f = false := by rw [State.takesRequest, hempty]; rfl
  rw [State.containerSteps_eq, State.outcomeStep_none hdue]
  simp only [State.handled, State.stripStep_other hother, State.deliveryStep_empty hempty, State.broadcastStep_empty hempty, htakes,
    hempty, Bool.false_eq_true, if_false]

/-- Settles O22. -/
theorem containersAreTakenAndFilled : Obligations.ContainersAreTakenAndFilled := by
  refine ⟨fun dt p f s hl hfree hr hx ht hf hfull hdest _ hsource hrefused hcls hroom hboxes hresponses => ?_,
    fun dt p f i m s hl hfree hr hx ht hi hempty hresponses hquota horder hurgent hm hlowest hdue => ?_⟩
  · have hu := State.counted_train hr dt
    dsimp only at hu
    have hact : ((s.elapse dt).counted p false).actOnContainer f =
        (((s.elapse dt).counted p false).joinInbound f false).handled f.emptied := by
      rw [hu, State.actOnContainer_steps hf (by exact ht)]
      exact State.containerSteps_user _ _ hfull hdest hsource hrefused hcls hroom hboxes hresponses
    obtain ⟨t, hexec, hframe, hsent⟩ := exec_container_acts hl hfree hr hx hact (by rw [hu]; rfl)
    generalize (s.elapse dt).counted p false = u at hu hframe
    generalize u.portW = w, u.portE = e at hu
    subst hu
    refine ⟨t, hexec, ?_, ?_, ?_, ?_, hsent⟩
    all_goals
      generalize t.sent = sent, t.portW = portW, t.portE = portE at hframe
      subst hframe
      rfl
  · intro box g
    have hu := State.counted_train hr dt
    dsimp only at hu
    have hindex : Fin.ofNat 8 f.index.toNat = i := by
      rw [hi]
      exact Fin.ofNat_val_eq_self i
    have hwell : f.malformed = false := by
      rw [ContainerFrame.malformed, hempty]
      rfl
    have hwaits (n : Fin 8) (h : s.sched.mailboxes[n].state ≠ .waiting) : s.waiting n = false := by
      unfold State.waiting State.mailbox MailboxState.isWaiting
      split
      · rename_i hw
        exact absurd hw h
      · rfl
    have hact : ((s.elapse dt).counted p false).actOnContainer f =
        (((s.elapse dt).counted p false).fillFromMailbox i m false).handled g := by
      have hsteps : s.ctl.tapState = .unconfigured ∨ s.ctl.tapState = .online ∨ s.ctl.tapState = .halted := .inr ht
      rw [hu, State.actOnContainer_steps hwell (by exact hsteps), hindex, State.containerSteps_empty _ hempty (by exact hdue),
        State.fillStep_lowest (by exact hresponses) (by exact ht) (by exact hquota) (by exact horder) (by exact hurgent)
          (by exact congrArg MailboxState.isWaiting hm) (fun n hn => by exact hwaits n (hlowest n hn))]
      rfl
    rw [← hi] at hx
    obtain ⟨t, hexec, hframe, hsent⟩ := exec_container_acts hl hfree hr hx hact (by rw [hu]; rfl)
    rw [hi] at hframe
    generalize (s.elapse dt).counted p false = u at hu hframe
    generalize u.portW = w, u.portE = e at hu
    subst hu
    refine ⟨t, hexec, ?_, ?_, ?_, ?_, hsent⟩
    all_goals
      generalize t.sent = sent, t.portW = portW, t.portE = portE at hframe
      subst hframe
      rfl

end Sys2Proof.Machine
end


section
/-! PROOFS. A good BLOCK at its expected position is captured (R26, R41, R43, R44, R46). -/

namespace Sys2Proof.Machine

/-! ### The records of the entries on a block -/

/-- An entry's record after it has been captured from the block (R46). -/
def State.capturedRecord (s : State) (f : BlockFrame) (e : Fin 32) : SubRecord :=
  { s.subs[e] with captured := true, freshNow := freshIn f s.mgmt.active.subs[e].publisher }

theorem State.captureEntry_subs (f : BlockFrame) (s : State) (d e : Fin 32) :
    (State.captureEntry f s d).subs[e] = if e = d ∧ s.subscribes d f = true then s.capturedRecord f d else s.subs[e] := by
  unfold State.captureEntry
  split
  · rename_i h
    simp only [h, and_true]
    exact upd_get _ _ _ _
  · rename_i h
    exact (if_neg fun hd => h hd.right).symm

/-- Every entry that takes part in the block has been captured from it, and no other record has moved (R43, R46). -/
theorem State.captureBlock_subs (f : BlockFrame) (s : State) (e : Fin 32) :
    (s.captureBlock f).subs[e] = if s.subscribes e f = true then s.capturedRecord f e else s.subs[e] := by
  have run (l : List (Fin 32)) (hl : l.Nodup) (t : State) :
      (l.foldl (State.captureEntry f) t).subs[e] =
        if e ∈ l ∧ t.subscribes e f = true then t.capturedRecord f e else t.subs[e] := by
    induction l generalizing t with
    | nil => simp
    | cons d l ih =>
      obtain ⟨hd, hl⟩ := List.nodup_cons.mp hl
      have hmgmt : (State.captureEntry f t d).mgmt = t.mgmt := State.captureEntry_mgmt f t d
      have hsub : (State.captureEntry f t d).subscribes e f = t.subscribes e f := by simp only [State.subscribes, hmgmt]
      have hget := State.captureEntry_subs f t d e
      rw [List.foldl_cons, ih hl, hsub]
      by_cases he : e = d
      · subst he
        rw [if_neg fun h => hd h.left, hget]
        simp
      · have hkept : (State.captureEntry f t d).subs[e] = t.subs[e] := hget.trans (if_neg fun h => he h.left)
        have hrecord : (State.captureEntry f t d).capturedRecord f e = t.capturedRecord f e := by
          simp only [State.capturedRecord, hkept, hmgmt]
        rw [hrecord, hkept]
        simp only [List.mem_cons, he, false_or]
  rw [State.captureBlock, run _ (List.nodup_finRange 32)]
  simp

/-! ### Entries of one bank in a valid table -/

/-- In a set that passed validation no valid entry shares words with a lower one (R41). -/
theorem TableSet.not_shares_lower {x : TableSet} (h : x.firstInvalid = none) {e d : Fin 32} (he : x.subs[e].valid = true)
    (hd : x.subs[d].valid = true) (hlt : d < e) : x.subs[e].shares x.subs[d] = false := by
  obtain ⟨hsub, -⟩ := (Option.orElse_eq_none _ _).mp h
  have hentry := List.findSome?_eq_none_iff.mp hsub e (List.mem_finRange e)
  by_contra hshares
  have hany : ((List.finRange 32).any fun j => decide (j < e) && x.subs[j].valid && x.subs[e].shares x.subs[j]) = true :=
    List.any_eq_true.mpr ⟨d, List.mem_finRange d, by
      rw [decide_eq_true hlt, hd, Bool.eq_true_of_not_eq_false hshares]
      rfl⟩
  dsimp only at hentry
  rw [hany, he] at hentry
  cases hfits : x.subs[e].fits <;>
    · rw [hfits] at hentry
      exact nomatch hentry

theorem SubEntry.shares_comm (e d : SubEntry) : e.shares d = d.shares e := by
  unfold SubEntry.shares meets
  rw [decide_eq_decide.mpr (eq_comm (a := e.bank)), Bool.and_comm (decide (_ < _ + 8 * d.count.val))]

/-- Two valid entries of one bank hold no word both (R41). -/
theorem TableSet.ranges_disjoint {x : TableSet} (h : x.firstInvalid = none) {e d : Fin 32} (he : x.subs[e].valid = true)
    (hd : x.subs[d].valid = true) (hne : d ≠ e) (hbank : x.subs[d].bank = x.subs[e].bank) {i : Nat}
    (hi : 8 * x.subs[e].slot.val ≤ i ∧ i < 8 * x.subs[e].slot.val + 8 * x.subs[e].count.val) :
    ¬(8 * x.subs[d].slot.val ≤ i ∧ i < 8 * x.subs[d].slot.val + 8 * x.subs[d].count.val) := by
  have hshares : x.subs[e].shares x.subs[d] = false := by
    obtain hlt | hlt := lt_or_gt_of_ne hne
    · exact TableSet.not_shares_lower h he hd hlt
    · rw [SubEntry.shares_comm]
      exact TableSet.not_shares_lower h hd he hlt
  intro hj
  have : x.subs[e].shares x.subs[d] = true := by
    simp only [SubEntry.shares, meets, hbank, decide_true, Bool.true_and, Bool.and_eq_true, decide_eq_true_eq]
    omega
  exact Bool.false_ne_true (hshares.symm.trans this)

/-! ### A BLOCK that is captured -/

theorem State.subscribes_iff (s : State) (e : Fin 32) (f : BlockFrame) :
    s.subscribes e f = true ↔ s.mgmt.active.subs[e].valid = true ∧ s.mgmt.active.subs[e].block.val = f.number.toNat := by
  rw [State.subscribes, Bool.and_eq_true_iff, decide_eq_true_iff]

/-- A good BLOCK at its expected position that is handed to the capture unit (R26, R43, R75). -/
theorem passBlock_captured {t : State} {p : Port} {f : BlockFrame} {a : Arriving} (hseen : a.seen = true) (hcap : a.capture = true)
    (hrec : t.trk.record = .inTrain p) (hex : t.trk.expected = some (.block f.number.toNat)) :
    let g := t.published f a.writes
    passBlock p f a .good t =
      ⟨{ t with
          subs := (t.captureBlock g).subs
          rx := (t.captureBlock g).rx
          trk := { t.trk with
            expected := some (afterBlock t.trk.blocks t.trk.containers f.number.toNat)
            gapTimer := some (t.now + 100) } }, .block g⟩ := by
  intro g
  have hnumber : g.number = f.number := State.published_number t f a.writes
  have hgood : t.goodBlock g true = (t.captureBlock g).expect (afterBlock t.trk.blocks t.trk.containers f.number.toNat) := by
    unfold State.goodBlock
    simp only [hex, hnumber, if_true]
  have honly := t.captureBlock_only g
  have htrack : t.trackBlock p g true .good =
      ((t.captureBlock g).expect (afterBlock t.trk.blocks t.trk.containers f.number.toNat)).armGap p := by
    rw [State.trackBlock, if_pos hrec, if_pos rfl, hgood]
  rw [passBlock, if_pos hseen, hcap, htrack]
  generalize t.captureBlock g = u at honly ⊢
  generalize u.subs = subs, u.rx = rx at honly ⊢
  subst honly
  rw [State.armGap_at (by exact congrArg TrainRecord.port hrec)]
  rfl

/-- Settles O16. -/
theorem expectedBlockIsPublishedAndCaptured : Obligations.ExpectedBlockIsPublishedAndCaptured := by
  refine ⟨fun dt p f a s hm hrec hex hcap => ?_, fun s f e i hvalid hblock => ?_⟩
  · intro g sub on holds trk
    have hnumber : g.number = f.number := State.published_number s f a.writes
    have hon (e : Fin 32) : s.subscribes e g = true ↔ on e := by rw [State.subscribes_iff, hnumber]
    have hword (e : Fin 32) (b : Fin 8) (i : Fin 128) : s.capturesWord g e b i ↔ on e ∧ (sub e).bank = b ∧ holds e i :=
      and_congr_left' (hon e)
    refine ⟨(s.captureBlock g).subs, (s.captureBlock g).rx, ?_, fun e => ?_, fun b => ?_, fun e i he hi honly => ?_,
      fun htables e d i he hd hne hbank hi => ?_⟩
    · refine congrArg Host.Outcome.next (State.receive_ends (f := .block f) (g := .block g)
        (t := { s with trk := trk, subs := (s.captureBlock g).subs, rx := (s.captureBlock g).rx }) hm (by simp [Frame.lead]) rfl
        fun gap c _ => ?_)
      obtain ⟨hsubs, hrx⟩ := State.captureBlock_congr (s := s)
        (t := State.modUnit { s.elapse dt with trk := { s.trk with gapTimer := gap } } p c) g (by simp) (by simp) (by simp)
      have hpass := passBlock_captured (t := State.modUnit { s.elapse dt with trk := { s.trk with gapTimer := gap } } p c)
        hm.seen hcap (by simpa using hrec) (by simpa using hex)
      rw [State.published_congr (s := s) (by simp)] at hpass
      rw [outcome_good, hpass, hsubs, hrx]
      generalize (s.captureBlock g).subs = subs, (s.captureBlock g).rx = rx
      rw [afterBlock_eq]
      cases p <;> rfl
    · rw [State.captureBlock_subs]
      exact if_congr (hon e) rfl rfl
    · obtain ⟨hbuffers, hothers, hwords⟩ := s.captureBlock_bank g b
      refine ⟨hbuffers, hothers, fun i hnone => (hwords i).left fun e he => ?_⟩
      obtain ⟨hone, hbank, hi⟩ := (hword e b i).mp he
      exact hnone e hone hbank hi
    · obtain ⟨-, -, hwords⟩ := s.captureBlock_bank g (sub e).bank
      refine (hwords i).right e ((hword e _ i).mpr ⟨he, rfl, hi⟩) fun d hne hd => ?_
      obtain ⟨hdon, hbank, hdi⟩ := (hword d _ i).mp hd
      exact honly d hne hdon hbank hdi
    · obtain ⟨hactive, -⟩ := htables
      exact TableSet.ranges_disjoint hactive he.left hd.left hne hbank hi
  · intro x t
    have hon := (s.subscribes_iff e f).mpr ⟨hvalid, hblock⟩
    obtain ⟨hbuffers, hothers, hwords⟩ := State.captureEntry_bank f s e x.bank
    have hfill : t.rx[x.bank].fill = s.rx[x.bank].fill := (congrArg RxBank.fill hbuffers :)
    refine ⟨?_, fun b hb => State.captureEntry_other f s e b (Ne.symm hb), hothers⟩
    rw [hfill]
    split
    · rename_i h
      exact (hwords i).left ⟨hon, rfl, h⟩
    · rename_i h
      exact (hwords i).right fun hw => h hw.right.right

end Sys2Proof.Machine
end


section
/-! PROOFS. What a first-pass header does for the train that it begins (R22, R59, R70, R71, R85, R92, R156). -/

namespace Sys2Proof.Machine

/-! ### The scheduler stands while the other blocks act -/

theorem State.refit_sched (s : State) (p : Port) : (s.refit p).sched = s.sched := by
  unfold State.refit
  dsimp only
  split
  · split
    · cases p <;> rfl
    · rfl
  · cases p <;> rfl

theorem State.enterUp_sched (s : State) (p : Port) : (s.enterUp p).sched = s.sched := by
  rw [State.enterUp, State.refit_sched, State.ringChange_sched, State.modUnit_sched]

theorem State.newPolicy_sched (old : ReturnPolicy) (s : State) (p : Port) : (State.newPolicy old s p).sched = s.sched := by
  unfold State.newPolicy
  split
  · exact State.modUnit_sched _ _ _
  · split
    · exact s.refit_sched p
    · rfl

theorem State.newQualification_sched (s : State) (p : Port) : (s.newQualification p).sched = s.sched := by
  unfold State.newQualification
  split
  · split
    · exact s.enterUp_sched p
    · rfl
  · rfl

theorem State.activate_sched (s : State) (x : Session) : (s.activate x).sched = s.sched := by
  have hstate (t : State) : t.activateTapState.sched = t.sched := by
    unfold State.activateTapState
    split
    · exact State.setTapState_sched _ _
    · rfl
  unfold State.activate State.activatePorts
  rw [foldl_keeps State.sched _ State.newQualification_sched, foldl_keeps State.sched _ (State.newPolicy_sched _)]
  exact hstate _

theorem State.activateDue_sched (s : State) (epoch : Byte) : (s.activateDue epoch).sched = s.sched := by
  unfold State.activateDue
  split
  · exact s.activate_sched _
  · rfl

/-! ### A run of events with the stamp FIFO -/

/-- `t` is `s` after the sources `raised`, and no other, have had an event; the stamp FIFO has moved only where one of them reaches the
STAMP user (R156). -/
structure State.Signalled (s t : State) (raised : Source → Prop) : Prop extends s.Took t raised where
  stamps : ¬s.reached raised stampUser → t.sig.stamps = s.sig.stamps

theorem State.Signalled.refl (s : State) : s.Signalled s fun _ => False := ⟨State.Took.refl s, fun _ => rfl⟩

theorem State.raise_stamps {s : State} {x : Source} (h : s.bound x stampUser = false) : (s.raise x).sig.stamps = s.sig.stamps := by
  show (s.edgeSignals (s.bound x)).stamps = s.sig.stamps
  unfold State.edgeSignals
  dsimp only
  split
  · rw [if_neg (by rw [h]; exact Bool.false_ne_true)]
  · rfl

theorem State.Signalled.raise {s t : State} {R : Source → Prop} (h : s.Signalled t R) (x : Source) :
    s.Signalled (t.raise x) fun y => R y ∨ y = x := by
  refine ⟨h.toTook.raise x, fun hnone => ?_⟩
  have hbound : t.bound x stampUser = false := by
    rw [State.bound_congr h.active, Bool.eq_false_iff]
    exact fun hx => hnone ⟨x, .inr rfl, hx⟩
  rw [State.raise_stamps hbound]
  exact h.stamps fun ⟨y, hy, hu⟩ => hnone ⟨y, .inl hy, hu⟩

theorem State.Signalled.iff {s t : State} {R Q : Source → Prop} (h : s.Signalled t R) (e : ∀ x, R x ↔ Q x) :
    s.Signalled t Q := by
  have : R = Q := funext fun x => propext (e x)
  exact this ▸ h

/-- A change of anything but what events move keeps what is known of them. -/
theorem State.Signalled.keep {s t t' : State} {R : Source → Prop} (h : s.Signalled t R) (ha : t'.mgmt.active = t.mgmt.active)
    (hn : t'.now = t.now) (hx : t'.lsp.txn = t.lsp.txn) (hp : t'.pub = t.pub) (hs : t'.sig = t.sig) (hr : t'.rx = t.rx) :
    s.Signalled t' R := ⟨h.toTook.keep ha hn hx hp hs hr, fun hnone => (congrArg Signals.stamps hs).trans (h.stamps hnone)⟩

/-! ### The publish banks at a header -/

/-- The publish banks are judged and swapped; the tap is otherwise as it was (R70, R71). -/
def State.judgedPub (s : State) : State := { s with pub := Vector.ofFn fun q => s.pub[q].header (s.writeBurst q) }

theorem State.signalled_raises {α : Type} (c : α → Bool) (x : α → Source) (l : List α) {s t : State} {R : Source → Prop}
    (h : s.Signalled t R) :
    s.Signalled (l.foldl (fun t p => if c p then t.raise (x p) else t) t) fun y => R y ∨ ∃ p ∈ l, c p = true ∧ y = x p := by
  induction l generalizing t R with
  | nil => exact h.iff (by simp)
  | cons p l ih =>
    rw [List.foldl_cons]
    cases hc : c p with
    | true => exact (ih (h.raise (x p))).iff fun y => by simp [hc, or_assoc]
    | false => exact (ih h).iff fun y => by simp [hc]

/-- The events of the publish banks at a header (R70). -/
def State.takenEvents (s : State) (x : Source) : Prop := s.ctl.tapState ≠ .faulted ∧ ∃ q, s.swaps q = true ∧ x = .postTaken q

theorem State.publishHeader_faulted {s : State} (h : s.ctl.tapState = .faulted) : s.publishHeader = s := by
  unfold State.publishHeader
  rw [h]

theorem State.publishHeader_signalled {s : State} (hb : s.ctl.tapState ≠ .bypass) (hf : s.ctl.tapState ≠ .faulted) :
    s.judgedPub.Signalled s.publishHeader fun x => ∃ q, s.swaps q = true ∧ x = .postTaken q := by
  have h := State.signalled_raises s.swaps .postTaken (List.finRange 4) (State.Signalled.refl s.judgedPub)
  have heq : s.publishHeader = (List.finRange 4).foldl (fun t p => if s.swaps p then t.raise (.postTaken p) else t) s.judgedPub := by
    unfold State.publishHeader
    split
    iterate 3 rfl
    · rename_i hx
      exact absurd hx hb
    · rename_i hx
      exact absurd hx hf
  rw [heq]
  exact h.iff fun x => by simp

theorem State.publishHeader_sched (s : State) : s.publishHeader.sched = s.sched := by
  have h (t : State) : ((List.finRange 4).foldl (fun t p => if s.swaps p then t.raise (.postTaken p) else t) t).sched = t.sched :=
    foldl_keeps State.sched _ (fun t p => by split <;> rfl) _ _
  unfold State.publishHeader
  split
  iterate 3 exact h _
  iterate 2 rfl

theorem State.publishHeader_att (s : State) : s.publishHeader.att = s.att := by
  have h (t : State) : ((List.finRange 4).foldl (fun t p => if s.swaps p then t.raise (.postTaken p) else t) t).att = t.att :=
    foldl_keeps State.att _ (fun t p => by split <;> rfl) _ _
  unfold State.publishHeader
  split
  iterate 3 exact h _
  iterate 2 rfl

/-! ### The mailboxes at a header -/

/-- A mailbox after a first-pass header: its flight is due in this train, or can no longer be found in it (R85). -/
def Mailbox.headed (h : HeaderFrame) (m : Mailbox) : Mailbox :=
  match m.state with
  | .inFlight r _ =>
    { m with
      state :=
        if h.cycle ≠ r.cycle + 1 ∨ 64 < h.blocks.toNat ∨ 8 < h.containers.toNat ∨ h.containers.toNat ≤ r.index.val then
          .done .unconfirmed (some r)
        else .inFlight r true }
  | _ => m

theorem State.dueMailbox_sched (h : HeaderFrame) (s : State) (m : Fin 8) :
    (State.dueMailbox h s m).sched =
      { s.sched with mailboxes := upd s.sched.mailboxes m (s.sched.mailboxes[m].headed h) } := by
  have same : ({ s.sched with mailboxes := upd s.sched.mailboxes m s.sched.mailboxes[m] } : Scheduler) = s.sched := by simp [upd]
  unfold State.dueMailbox Mailbox.headed State.settle State.mailbox
  cases hm : s.sched.mailboxes[m].state with
  | inFlight r due =>
    dsimp only
    split
    · simp only [State.raise_sched, State.setMailbox_sched, MailboxState.flight]
    · simp only [State.setMailbox_sched]
  | _ => exact same.symm

/-- The scheduler after the mailboxes have been judged (R85). -/
theorem State.schedulerHeader_sched (s : State) (h : HeaderFrame) :
    let t := s.schedulerHeader h
    t.sched = { s.sched with mailboxes := t.sched.mailboxes, fills := 0 } ∧
      ∀ m : Fin 8, t.sched.mailboxes[m] = s.sched.mailboxes[m].headed h := by
  have run (l : List (Fin 8)) (hl : l.Nodup) (u : State) :
      (l.foldl (State.dueMailbox h) u).sched =
          { u.sched with mailboxes := (l.foldl (State.dueMailbox h) u).sched.mailboxes } ∧
        ∀ m : Fin 8, (l.foldl (State.dueMailbox h) u).sched.mailboxes[m] =
          if m ∈ l then u.sched.mailboxes[m].headed h else u.sched.mailboxes[m] := by
    induction l generalizing u with
    | nil => exact ⟨rfl, fun m => rfl⟩
    | cons n l ih =>
      obtain ⟨hn, hl⟩ := List.nodup_cons.mp hl
      obtain ⟨hframe, hboxes⟩ := ih hl (State.dueMailbox h u n)
      have hstep := State.dueMailbox_sched h u n
      have hget (m : Fin 8) : (State.dueMailbox h u n).sched.mailboxes[m] =
          if m = n then u.sched.mailboxes[n].headed h else u.sched.mailboxes[m] := by
        rw [hstep]
        exact upd_get _ _ _ _
      rw [List.foldl_cons]
      refine ⟨hframe.trans ?_, fun m => ?_⟩
      · rw [hstep]
      · rw [hboxes, hget]
        by_cases hm : m = n
        · subst hm
          rw [if_neg hn, if_pos rfl, if_pos List.mem_cons_self]
        · simp only [List.mem_cons, hm, false_or, if_false]
  obtain ⟨hframe, hboxes⟩ := run (List.finRange 8) (List.nodup_finRange 8) { s with sched := { s.sched with fills := 0 } }
  intro t
  have ht : t = (List.finRange 8).foldl (State.dueMailbox h) { s with sched := { s.sched with fills := 0 } } := rfl
  rw [← ht] at hframe hboxes
  clear_value t
  refine ⟨hframe, fun m => ?_⟩
  rw [hboxes, if_pos (List.mem_finRange m)]

/-- The mailboxes' events at a header are outcomes (R85). -/
theorem State.schedulerHeader_signalled (s : State) (h : HeaderFrame) :
    ∃ R : Source → Prop, s.Signalled (s.schedulerHeader h) R ∧ ∀ x, R x → ∃ m, x = .outcome m := by
  have run (l : List (Fin 8)) {t : State} {R : Source → Prop} (ht : s.Signalled t R) (hR : ∀ x, R x → ∃ m, x = .outcome m) :
      ∃ Q : Source → Prop, s.Signalled (l.foldl (State.dueMailbox h) t) Q ∧ ∀ x, Q x → ∃ m, x = .outcome m := by
    induction l generalizing t R with
    | nil => exact ⟨R, ht, hR⟩
    | cons m l ih =>
      rw [List.foldl_cons]
      have moved (x : MailboxState) : s.Signalled (t.setMailbox m x) R := ht.keep rfl rfl rfl rfl rfl rfl
      unfold State.dueMailbox
      split
      · split
        · refine ih ((moved _).raise (.outcome m)) fun x hx => ?_
          obtain hx | rfl := hx
          · exact hR x hx
          · exact ⟨m, rfl⟩
        · exact ih (moved _) hR
      · exact ih ht hR
  exact run (List.finRange 8) ((State.Signalled.refl s).keep rfl rfl rfl rfl rfl rfl) (fun _ h => h.elim)

/-! ### The receive banks at a header -/

/-- The buffer with a bank's newest complete data (R59). -/
def RxBank.newest (b : RxBank) : BufName := if b.readyNew = true then b.ready else b.front

/-- `c` holds what `b` holds, in the same buffers, with the same one to fill and the same one newest. -/
def RxBank.SameData (b c : RxBank) : Prop := c.fill = b.fill ∧ (∀ n, c.buf n = b.buf n) ∧ c.newest = b.newest

theorem RxBank.requestTake_sameData (b : RxBank) (burst : Bool) : b.SameData (b.requestTake burst) := by
  unfold RxBank.requestTake RxBank.take
  split
  · exact ⟨rfl, fun n => by cases n <;> rfl, rfl⟩
  · split
    · rename_i h
      refine ⟨rfl, fun n => by cases n <;> rfl, ?_⟩
      simp [RxBank.newest, h]
    · exact ⟨rfl, fun n => rfl, rfl⟩

/-- A take, or a take put off, moves no data (R61, R63). -/
theorem RxBank.Asked.sameData {burst : Bool} {hit : Prop} {b c : RxBank} (h : RxBank.Asked burst hit b c) : b.SameData c := by
  obtain ⟨htaken, hkept⟩ := h
  by_cases hh : hit
  · rw [htaken hh]
    exact b.requestTake_sameData burst
  · rw [hkept hh]
    exact ⟨rfl, fun n => rfl, rfl⟩

/-- `c` is `b` after a header: the FILL buffer holds the newest complete data, and no other buffer has moved (R59). -/
def RxBank.Started (b c : RxBank) : Prop :=
  c.fill = b.fill ∧ c.buf b.fill = b.buf b.newest ∧ ∀ n, n ≠ b.fill → c.buf n = b.buf n

theorem RxBank.startFill_started (b : RxBank) : b.Started b.startFill := by
  refine ⟨?_, RxBank.buf_setBuf _ _ _, fun n hn => RxBank.buf_setBuf_ne _ _ _ _ hn⟩
  unfold RxBank.startFill RxBank.setBuf
  cases b.fill <;> rfl

theorem RxBank.SameData.started {a b c d : RxBank} (hab : a.SameData b) (hbc : b.Started c) (hcd : c.SameData d) : a.Started d := by
  obtain ⟨hfill, hbuf, hnewest⟩ := hab
  obtain ⟨hfill', hstart, hothers⟩ := hbc
  obtain ⟨hfill'', hbuf', -⟩ := hcd
  refine ⟨hfill''.trans (hfill'.trans hfill), ?_, fun n hn => ?_⟩
  · rw [hbuf', ← hfill, hstart, hbuf, hnewest]
  · rw [hbuf', hothers n (hfill ▸ hn), hbuf]

/-! ### A train prepared without an activation -/

/-- The publish banks as a header judges them, but in FAULTED (R70, R71). -/
def State.headedPub (s : State) : State := if s.ctl.tapState = .faulted then s else s.judgedPub

theorem State.headedPub_frame (s : State) : s.headedPub = { s with pub := s.headedPub.pub } := by
  unfold State.headedPub
  split <;> rfl

theorem State.publishHeader_events {s : State} (hb : s.ctl.tapState ≠ .bypass) :
    s.headedPub.Signalled s.publishHeader s.takenEvents := by
  unfold State.headedPub
  by_cases hf : s.ctl.tapState = .faulted
  · rw [if_pos hf, State.publishHeader_faulted hf]
    exact (State.Signalled.refl s).iff fun x => ⟨False.elim, fun h => h.left hf⟩
  · rw [if_neg hf]
    exact (State.publishHeader_signalled hb hf).iff fun x => ⟨fun h => ⟨hf, h⟩, And.right⟩

/-- The receive banks start from the newest complete data (R59). -/
def State.startedRx (s : State) : State := { s with rx := s.rx.map RxBank.startFill }

/-- The train prepared up to CYCLE_START. -/
def State.scheduled (s : State) (f : HeaderFrame) : State := s.publishHeader.startedRx.schedulerHeader f

/-- CYCLE_START is raised last, after an activation that is due. -/
theorem State.prepareTrain_raises (s : State) (f : HeaderFrame) :
    s.prepareTrain f = ((s.activateDue f.epoch).scheduled f).raise .cycleStart := rfl

theorem State.prepareTrain_eq {s : State} {f : HeaderFrame} (h : s.activateDue f.epoch = s) :
    s.prepareTrain f = (s.scheduled f).raise .cycleStart := by
  rw [State.prepareTrain_raises, h]

/-- The events before CYCLE_START: those of the publish banks and outcomes (R70, R85). -/
theorem State.scheduled_raised {s : State} (hb : s.ctl.tapState ≠ .bypass) (f : HeaderFrame) :
    ∃ R : Source → Prop,
      s.headedPub.Raised (s.scheduled f) R ∧ (∀ x, s.takenEvents x → R x) ∧
        (∀ x, R x → x ≠ .cycleStart) ∧ (¬s.headedPub.reached R stampUser → (s.scheduled f).sig.stamps = s.sig.stamps) := by
  have htaken := State.publishHeader_events hb
  obtain ⟨Q, hQ, houtcomes⟩ := State.schedulerHeader_signalled s.publishHeader.startedRx f
  have hkept : s.headedPub.Raised s.publishHeader.startedRx s.takenEvents := htaken.toRaised.keep rfl rfl rfl rfl rfl
  have hstamps : s.headedPub.sig = s.sig := by rw [State.headedPub_frame]
  refine ⟨_, hkept.trans hQ.toRaised, fun x hx => .inl hx, fun x hx => ?_, fun hnone => ?_⟩
  · obtain ⟨-, q, -, rfl⟩ | hx := hx
    · exact Source.noConfusion
    · obtain ⟨m, rfl⟩ := houtcomes x hx
      exact Source.noConfusion
  · rw [State.reached_or hkept.active, not_or] at hnone
    obtain ⟨hfirst, hsecond⟩ := hnone
    rw [State.scheduled, hQ.stamps hsecond]
    exact (htaken.stamps hfirst).trans (congrArg Signals.stamps hstamps)

theorem State.prepareTrain_rx {s : State} {f : HeaderFrame} (hb : s.ctl.tapState ≠ .bypass) (h : s.activateDue f.epoch = s)
    (b : Fin 8) : s.rx[b].Started (s.prepareTrain f).rx[b] := by
  obtain ⟨Q, hQ, -⟩ := State.schedulerHeader_signalled s.publishHeader.startedRx f
  have hbefore := ((State.publishHeader_events hb).rx b).sameData
  have hafter := ((hQ.raise .cycleStart).rx b).sameData
  have hrx : s.headedPub.rx = s.rx := by rw [State.headedPub_frame]
  have hstart : s.publishHeader.startedRx.rx[b] = s.publishHeader.rx[b].startFill := Vector.getElem_map _ _
  rw [hrx] at hbefore
  rw [hstart] at hafter
  rw [State.prepareTrain_eq h]
  exact RxBank.SameData.started hbefore (RxBank.startFill_started _) hafter

theorem State.prepareTrain_raised {s : State} {f : HeaderFrame} (hb : s.ctl.tapState ≠ .bypass) (h : s.activateDue f.epoch = s) :
    ∃ R : Source → Prop, s.headedPub.Raised (s.prepareTrain f) R ∧ ∀ x, s.takenEvents x → R x := by
  obtain ⟨R, hraised, htaken, -⟩ := State.scheduled_raised hb f
  rw [State.prepareTrain_eq h]
  exact ⟨_, hraised.raise .cycleStart, fun x hx => .inl (htaken x hx)⟩

theorem State.prepareTrain_att {s : State} {f : HeaderFrame} (h : s.activateDue f.epoch = s) : (s.prepareTrain f).att = s.att := by
  rw [State.prepareTrain_eq h, State.raise_att, State.scheduled, State.schedulerHeader_att]
  exact s.publishHeader_att

/-- An event that reaches the STAMP user while there is room leaves a record (R156). -/
theorem State.raise_stamps_reached {s : State} {x : Source} {c : Fin 12} (hf : s.follows stampUser = some c) (hx : s.source c = x)
    (hroom : s.sig.stamps.length < 4) : (s.raise x).sig.stamps = s.sig.stamps ++ [s.stampOf c] := by
  have hbound : s.bound x stampUser = true := (State.bound_iff _ _ _).mpr ⟨c, hf, hx⟩
  show (s.edgeSignals (s.bound x)).stamps = _
  unfold State.edgeSignals
  rw [hf]
  dsimp only
  rw [if_pos hbound, Signals.pushStamp, if_pos hroom]

/-- The record of CYCLE_START at the header that sets the reference has offset 0 (R156). -/
theorem State.prepareTrain_stamps {s : State} {f : HeaderFrame} {c : Fin 12} {cycle : Cycle} (hb : s.ctl.tapState ≠ .bypass)
    (h : s.activateDue f.epoch = s) (hu : s.mgmt.active.users[stampUser] = some c) (hc : s.mgmt.active.channels[c] = .cycleStart)
    (href : s.sig.ref = some ⟨cycle, s.now⟩) (hroom : s.sig.stamps.length < 4) :
    (s.prepareTrain f).sig.stamps = s.sig.stamps ++ [⟨c, cycle, 0⟩] := by
  obtain ⟨R, hraised, -, hother, hstamps⟩ := State.scheduled_raised hb f
  have hpub := s.headedPub_frame
  have hactive : (s.scheduled f).mgmt.active = s.mgmt.active := hraised.active.trans (by rw [hpub])
  have hnow : (s.scheduled f).now = s.now := hraised.now.trans (by rw [hpub])
  have href' : (s.scheduled f).sig.ref = some ⟨cycle, s.now⟩ := by rw [hraised.sig, hpub]; exact href
  have hbound : s.headedPub.bound .cycleStart stampUser = true :=
    (State.bound_iff _ _ _).mpr ⟨c, by rw [hpub]; exact hu, by rw [hpub]; exact hc⟩
  have hkept := hstamps fun ⟨x, hx, hbx⟩ => hother x hx (State.bound_unique hbx hbound)
  have hfollows : (s.scheduled f).follows stampUser = some c := by rw [State.follows, hactive]; exact hu
  have hsource : (s.scheduled f).source c = .cycleStart := by rw [State.source, hactive]; exact hc
  have hstamp : (s.scheduled f).stampOf c = ⟨c, cycle, 0⟩ := by
    rw [State.stampOf, href']
    dsimp only
    rw [hnow, Nat.sub_self]
    rfl
  rw [State.prepareTrain_eq h, State.raise_stamps_reached hfollows hsource (by rw [hkept]; exact hroom), hkept, hstamp]

/-! ### Each publish bank -/

theorem State.headedPub_swapped {s : State} {q : Fin 4} (hf : s.ctl.tapState ≠ .faulted) (hq : s.swaps q = true) :
    s.headedPub.pub[q] = s.pub[q].swap := by
  have hget : s.headedPub.pub[q] = s.pub[q].header (s.writeBurst q) := by
    rw [State.headedPub, if_neg hf]
    exact ofFn_get _ q
  rw [hget, PubBank.header]
  exact if_pos hq

theorem State.headedPub_kept {s : State} {q : Fin 4} (h : s.ctl.tapState = .faulted ∨ s.swaps q = false) :
    s.headedPub.pub[q] =
      { s.pub[q] with postedNow := if s.ctl.tapState = .faulted then s.pub[q].postedNow else false } := by
  by_cases hf : s.ctl.tapState = .faulted
  · rw [State.headedPub, if_pos hf, if_pos hf]
  · have hget : s.headedPub.pub[q] = s.pub[q].header (s.writeBurst q) := by
      rw [State.headedPub, if_neg hf]
      exact ofFn_get _ q
    rw [hget, PubBank.header, if_neg hf]
    exact if_neg (by rw [show (s.pub[q].posted && !s.writeBurst q) = false from h.resolve_left hf]; exact Bool.false_ne_true)

theorem State.not_reached_of_free {s : State} {u : Fin 21} (h : s.mgmt.active.users[u] = none) (R : Source → Prop) :
    ¬s.reached R u := by
  rintro ⟨x, -, hx⟩
  obtain ⟨c, hc, -⟩ := (State.bound_iff _ _ _).mp hx
  rw [State.follows, h] at hc
  exact nomatch hc

/-- A bank that swaps at the header (R67, R70). -/
theorem State.prepareTrain_swapped {s : State} {f : HeaderFrame} {q : Fin 4} (hb : s.ctl.tapState ≠ .bypass)
    (h : s.activateDue f.epoch = s) (hf : s.ctl.tapState ≠ .faulted) (hq : s.swaps q = true) :
    let t := s.prepareTrain f
    t.pub[q].draft = s.pub[q].draft ∧ t.pub[q].live = s.pub[q].draft ∧ t.pub[q].pIsDraft = !s.pub[q].pIsDraft ∧
      t.pub[q].postedNow = true ∧ (s.mgmt.active.users[postUser q] = none → t.pub[q].posted = false) ∧
      ∀ k : Fin 8, s.bound (.postTaken q) (trigUser k) = true → t.sig.pins[k] = ⟨true, some s.now⟩ := by
  intro t
  obtain ⟨R, hraised, htaken⟩ := State.prepareTrain_raised hb h
  have hframe := s.headedPub_frame
  have hpub := hraised.pub q
  have hposted := hraised.posted q
  rw [State.headedPub_swapped hf hq] at hpub hposted
  obtain ⟨hdraft, hlive⟩ := s.pub[q].swap_bufs
  refine ⟨?_, ?_, ?_, ?_, fun hfree => ?_, fun k hk => ?_⟩
  · rw [hpub]
    exact hdraft
  · rw [hpub]
    exact hlive
  · rw [hpub]
    rfl
  · rw [hpub]
    rfl
  · rw [Bool.eq_false_iff, Ne, hposted, not_or]
    exact ⟨Bool.false_ne_true, State.not_reached_of_free (by rw [hframe]; exact hfree) R⟩
  · have hnow : s.headedPub.now = s.now := by rw [hframe]
    have hbound : s.headedPub.bound (.postTaken q) (trigUser k) = true := by rw [hframe]; exact hk
    rw [← hnow]
    exact hraised.pinsHit k ⟨_, htaken _ ⟨hf, q, hq, rfl⟩, hbound⟩

/-- A bank that does not (R70, R71). -/
theorem State.prepareTrain_unswapped {s : State} {f : HeaderFrame} {q : Fin 4} (hb : s.ctl.tapState ≠ .bypass)
    (h : s.activateDue f.epoch = s) (hq : s.ctl.tapState = .faulted ∨ s.swaps q = false) :
    let t := s.prepareTrain f
    t.pub[q] =
        { s.pub[q] with
          posted := t.pub[q].posted, postedNow := if s.ctl.tapState = .faulted then s.pub[q].postedNow else false } ∧
      (s.mgmt.active.users[postUser q] = none → t.pub[q].posted = s.pub[q].posted) := by
  intro t
  obtain ⟨R, hraised, -⟩ := State.prepareTrain_raised hb h
  have hpub := hraised.pub q
  have hposted := hraised.posted q
  rw [State.headedPub_kept hq] at hpub hposted
  refine ⟨hpub, fun hfree => ?_⟩
  have hnone : ¬s.headedPub.reached R (postUser q) :=
    State.not_reached_of_free (by rw [State.headedPub_frame]; exact hfree) R
  rw [Bool.eq_iff_iff, hposted, or_iff_left hnone]

/-! ### Whatever is activated -/

theorem State.prepareTrain_sched (s : State) (f : HeaderFrame) :
    let t := s.prepareTrain f
    t.sched = { s.sched with mailboxes := t.sched.mailboxes, fills := 0 } ∧
      ∀ m : Fin 8, t.sched.mailboxes[m] = s.sched.mailboxes[m].headed f := by
  obtain ⟨hframe, hboxes⟩ := State.schedulerHeader_sched (s.activateDue f.epoch).publishHeader.startedRx f
  have hsched : (s.activateDue f.epoch).publishHeader.startedRx.sched = s.sched :=
    (State.publishHeader_sched _).trans (s.activateDue_sched _)
  have ht : (s.prepareTrain f).sched = ((s.activateDue f.epoch).publishHeader.startedRx.schedulerHeader f).sched := by
    rw [State.prepareTrain_raises, State.raise_sched, State.scheduled]
  rw [hsched] at hframe hboxes
  rw [← ht] at hframe hboxes
  exact ⟨hframe, hboxes⟩

theorem State.prepareTrain_pins (s : State) (f : HeaderFrame) (k : Fin 8)
    (h : (s.prepareTrain f).bound .cycleStart (trigUser k) = true) : (s.prepareTrain f).sig.pins[k] = ⟨true, some s.now⟩ := by
  have hnow := (s.prepares_prepareTrain f).now
  rw [State.prepareTrain_raises] at h hnow ⊢
  generalize (s.activateDue f.epoch).scheduled f = t at h hnow ⊢
  have hraised := (State.Raised.refl t).raise .cycleStart
  have hpin := hraised.pinsHit k ⟨.cycleStart, .inr rfl, h⟩
  rw [hpin, ← hraised.now, hnow]
  rfl

theorem State.activateDue_none {s : State} {epoch : Byte} (h : ∀ x, ¬s.commitDue x epoch) : s.activateDue epoch = s := by
  have hnone : s.dueCommit epoch = none := by
    unfold State.dueCommit
    split
    · rename_i x hx
      split
      · rename_i hs
        exact absurd ⟨hx, .inl hs⟩ (h x)
      · rename_i e hs
        refine if_neg ?_
        rintro rfl
        exact h x ⟨hx, .inr hs⟩
      · rfl
    · rfl
  rw [State.activateDue, hnone]

/-! ### The header has been counted and recorded -/

/-- What the tap has recorded of a first-pass header before the other blocks act (R21, R25, R156). -/
theorem State.recordHeader_countedGood (s : State) (dt : Nat) (p : Port) (gap : Option Nat) (f : HeaderFrame) :
    let r := (s.countedGood dt p gap).recordHeader p f
    r = { s with
      now := s.now + dt
      trk := r.trk
      ctr := r.ctr
      sig := { s.sig with ref := some ⟨f.cycle, s.now + dt⟩ }
      att := if s.trk.discontinuous f = true then { s.att with cycle := true } else s.att
      portW := r.portW
      portE := r.portE } := by
  have hjump : (s.countedGood dt p gap).trk.discontinuous f = s.trk.discontinuous f := by cases p <;> rfl
  unfold State.recordHeader
  rw [hjump]
  cases s.trk.discontinuous f with
  | true => cases p <;> rfl
  | false => cases p <;> rfl

/-- A frame's leaving does not touch the active set. -/
theorem Passed.sendOff_active (r : Passed) (p : Port) (a : Arriving) (fcs : Option Fcs) (placed : Bool) :
    (r.sendOff p a .good fcs placed).mgmt.active = r.state.mgmt.active := by
  unfold Passed.sendOff
  rw [State.countLost_good]
  simp only [reduceCtorEq, decide_false, State.windowAdd_good, State.modUnit_mgmt]
  unfold State.forward State.sendOut State.depart
  split
  · split
    · rw [State.modUnit_mgmt]
    · dsimp only
      split <;> rfl
  · rfl

theorem State.trainBegun_only (s : State) (p : Port) : s.trainBegun p = { s with trk := (s.trainBegun p).trk } := by
  unfold State.trainBegun State.armGap
  split <;> rfl

/-- A good header of a new cycle leaves what the train's preparation leaves, but for the tracker and the ports (R22). -/
theorem exec_header_prepares {dt : Nat} {p : Port} {f : HeaderFrame} {s : State} (h : s.meetsFirstPass p f) :
    ∃ (t : State) (gap : Option Nat),
      exec (.header dt p f (some (Frame.check (.header f)))) s = .next t ∧
        let u := ((s.countedGood dt p gap).recordHeader p f).prepareTrain f
        t.mgmt.active = u.mgmt.active ∧ t.pub = u.pub ∧ t.rx = u.rx ∧ t.sched = u.sched ∧ t.sig = u.sig ∧ t.att = u.att := by
  obtain ⟨⟨a, hm, -⟩, -, hidle, hnew⟩ := h
  obtain ⟨gap, hexec⟩ := exec_header_firstPass (dt := dt) hm hidle hnew
  generalize Frame.header (if a.out = some p then f.turned else f) = g at hexec
  obtain ⟨hframe, -⟩ := Passed.leaving_sendOff ⟨(s.countedGood dt p gap).firstPass p f, g⟩ p a (some (Frame.check (.header f)))
    s.restartPlaced
  have hactive := Passed.sendOff_active ⟨(s.countedGood dt p gap).firstPass p f, g⟩ p a (some (Frame.check (.header f)))
    s.restartPlaced
  generalize Passed.sendOff _ p a .good (some (Frame.check (.header f))) s.restartPlaced = t at hexec hframe hactive
  refine ⟨t, gap, hexec, ?_⟩
  rw [State.firstPass_eq] at hframe hactive
  intro u
  have hbegun : ((s.countedGood dt p gap).recordHeader p f).prepareTrain f = u := rfl
  rw [hbegun] at hframe hactive
  clear_value u
  rw [State.trainBegun_only] at hframe hactive
  exact ⟨hactive, (congrArg State.pub hframe :), (congrArg State.rx hframe :), (congrArg State.sched hframe :),
    (congrArg State.sig hframe :), (congrArg State.att hframe :)⟩

/-- Settles O13. -/
theorem firstPassPreparesTheTrain : Obligations.FirstPassPreparesTheTrain := by
  intro dt p f s hmeets jump swaps
  obtain ⟨t, gap, hexec, hactive, hpub, hrx, hsched, hsig, hatt⟩ := exec_header_prepares (dt := dt) hmeets
  obtain ⟨⟨a, ⟨hb, -⟩, -⟩, -⟩ := hmeets
  have hr := s.recordHeader_countedGood dt p gap f
  dsimp only at hr
  generalize (s.countedGood dt p gap).recordHeader p f = r at hr hactive hpub hrx hsched hsig hatt
  generalize r.trk = trk, r.ctr = ctr, r.portW = portW, r.portE = portE at hr
  refine ⟨t, hexec, ?_, fun m => ?_, fun k hk => ?_, fun hnone => ?_⟩
  · obtain ⟨hfills, -⟩ := r.prepareTrain_sched f
    subst hr
    rw [hsched]
    exact hfills
  · obtain ⟨-, hboxes⟩ := r.prepareTrain_sched f
    subst hr
    rw [hsched]
    exact hboxes m
  · have hpin := r.prepareTrain_pins f k (by rw [← State.bound_congr hactive]; exact hk)
    subst hr
    rw [hsig]
    exact hpin
  · have hb' : r.ctl.tapState ≠ .bypass := by
      rw [hr]
      exact hb
    have hdue : r.activateDue f.epoch = r := by
      rw [hr]
      exact State.activateDue_none hnone
    have hswapped := fun q => State.prepareTrain_swapped (q := q) hb' hdue
    have hkept := fun q => State.prepareTrain_unswapped (q := q) hb' hdue
    have hstarted := State.prepareTrain_rx hb' hdue
    have hcauses := State.prepareTrain_att hdue
    have hstamps := fun c => State.prepareTrain_stamps (c := c) (cycle := f.cycle) hb' hdue
    subst hr
    rw [hpub, hrx, hatt, hsig, hcauses]
    have hjump : jump ↔ s.trk.discontinuous f = true := by
      rw [Tracker.discontinuous, Bool.and_eq_true_iff, decide_eq_true_iff]
    refine ⟨fun q => ⟨fun hq => ?_, fun hq => ?_⟩, fun b => hstarted b, fun hj => ?_, fun hj => ?_, fun c hu hc hroom => ?_⟩
    · obtain ⟨hf, hposted, hburst⟩ := hq
      refine hswapped q hf ?_
      show (s.pub[q].posted && !s.writeBurst q) = true
      rw [hposted, hburst]
      rfl
    · refine hkept q ?_
      by_cases hf : s.ctl.tapState = .faulted
      · exact .inl hf
      · refine .inr (Bool.eq_false_iff.mpr fun hs => hq ?_)
        obtain ⟨hposted, hburst⟩ := Bool.and_eq_true_iff.mp hs
        exact ⟨hf, hposted, (Bool.not_eq_true' _).mp hburst⟩
    · exact if_pos (hjump.mp hj)
    · exact if_neg (mt hjump.mpr hj)
    · exact hstamps c hu hc rfl hroom

end Sys2Proof.Machine
end


section
/-! PROOFS. Freshness and age (R50): what the law of an entry's freshness and its age reads, and the operations that leave it alone. -/

namespace Sys2Proof.Machine

/-! ### What the law reads -/

/-- The active subscription table and the entries' records, which the law reads of the tap, and nothing else. -/
def State.subscriptions (s : State) : Vector SubEntry 32 × Vector SubRecord 32 := (s.mgmt.active.subs, s.subs)

theorem State.subscriptions_eq {s t : State} (ha : t.mgmt.active = s.mgmt.active) (hs : t.subs = s.subs) :
    t.subscriptions = s.subscriptions := by
  unfold State.subscriptions
  rw [ha, hs]

/-! ### The port units -/

@[simp] theorem State.setUnit_subscriptions (s : State) (p : Port) (u : PortUnit) :
    (s.setUnit p u).subscriptions = s.subscriptions := by cases p <;> rfl

@[simp] theorem State.modUnit_subscriptions (s : State) (p : Port) (f : PortUnit → PortUnit) :
    (s.modUnit p f).subscriptions = s.subscriptions := State.setUnit_subscriptions s p _

theorem State.depart_subscriptions (s : State) (p : Port) (h : HeldFrame) : (s.depart p h).subscriptions = s.subscriptions := by
  unfold State.depart
  dsimp only
  split <;> rfl

theorem State.sendOut_subscriptions (s : State) (p : Port) (h : HeldFrame) : (s.sendOut p h).subscriptions = s.subscriptions := by
  unfold State.sendOut
  split
  · exact s.modUnit_subscriptions p _
  · exact s.depart_subscriptions p h

theorem State.flushElastic_subscriptions (s : State) (p : Port) : (s.flushElastic p).subscriptions = s.subscriptions :=
  (State.modUnit_subscriptions _ p _).trans
    (foldl_keeps State.subscriptions _ (fun t x => t.depart_subscriptions p x) (s.unit p).elastic s)

theorem State.endPartial_subscriptions (s : State) (p : Port) : (s.endPartial p).subscriptions = s.subscriptions := by
  unfold State.endPartial
  split
  · rfl
  · dsimp only
    split
    · split
      · exact (State.sendOut_subscriptions _ _ _).trans (s.modUnit_subscriptions p _)
      · exact (State.sendOut_subscriptions _ _ _).trans (s.modUnit_subscriptions p _)
    · exact s.modUnit_subscriptions p _

theorem State.cutFrom_subscriptions (p : Port) (s : State) (q : Port) : (State.cutFrom p s q).subscriptions = s.subscriptions := by
  unfold State.cutFrom
  split
  · rfl
  · split
    · refine (State.modUnit_subscriptions _ q _).trans ?_
      split <;> split <;> rfl
    · rfl

theorem State.loseHeld_subscriptions (s : State) (h : HeldFrame) : (s.loseHeld h).subscriptions = s.subscriptions := by
  unfold State.loseHeld
  split <;> rfl

theorem State.cutOutputs_subscriptions (s : State) (p : Port) : (s.cutOutputs p).subscriptions = s.subscriptions := by
  have hcut : (bothPorts.foldl (State.cutFrom p) s).subscriptions = s.subscriptions :=
    foldl_keeps State.subscriptions _ (State.cutFrom_subscriptions p) bothPorts s
  have hlost := (foldl_keeps State.subscriptions _ State.loseHeld_subscriptions
    ((bothPorts.foldl (State.cutFrom p) s).unit p).elastic (bothPorts.foldl (State.cutFrom p) s)).trans hcut
  unfold State.cutOutputs
  refine (State.modUnit_subscriptions _ p _).trans ?_
  split
  · exact hlost
  · exact hlost

theorem State.leaveService_subscriptions (s : State) (p : Port) : (s.leaveService p).subscriptions = s.subscriptions := by
  unfold State.leaveService
  split
  · refine (State.modUnit_subscriptions _ p _).trans ?_
    split <;> rfl
  · rfl

theorem State.abortTest_subscriptions (s : State) (p : Port) : (s.abortTest p).subscriptions = s.subscriptions := by
  unfold State.abortTest
  split <;> rfl

theorem State.refit_subscriptions (s : State) (p : Port) : (s.refit p).subscriptions = s.subscriptions := by
  unfold State.refit
  dsimp only
  split
  · split
    · exact s.setUnit_subscriptions p _
    · rfl
  · exact s.setUnit_subscriptions p _

theorem State.enterUp_subscriptions (s : State) (p : Port) : (s.enterUp p).subscriptions = s.subscriptions :=
  (State.refit_subscriptions _ p).trans (s.modUnit_subscriptions p _)

theorem State.tryQualify_subscriptions (s : State) (p : Port) : (s.tryQualify p).subscriptions = s.subscriptions :=
  s.modUnit_subscriptions p _

theorem State.newPolicy_subscriptions (old : ReturnPolicy) (s : State) (p : Port) :
    (State.newPolicy old s p).subscriptions = s.subscriptions := by
  unfold State.newPolicy
  split
  · exact s.modUnit_subscriptions p _
  · split
    · exact s.refit_subscriptions p
    · rfl

theorem State.newQualification_subscriptions (s : State) (p : Port) : (s.newQualification p).subscriptions = s.subscriptions := by
  unfold State.newQualification
  split
  · split
    · exact s.enterUp_subscriptions p
    · rfl
  · rfl

theorem State.activatePorts_subscriptions (s : State) (old : ReturnPolicy) : (s.activatePorts old).subscriptions = s.subscriptions :=
  (foldl_keeps State.subscriptions _ State.newQualification_subscriptions bothPorts _).trans
    (foldl_keeps State.subscriptions _ (State.newPolicy_subscriptions old) bothPorts s)

theorem State.lockGained_subscriptions (s : State) (p : Port) : (s.lockGained p).subscriptions = s.subscriptions :=
  (State.tryQualify_subscriptions _ p).trans (s.modUnit_subscriptions p _)

theorem State.downHoldExpiry_subscriptions (s : State) (p : Port) : (s.downHoldExpiry p).subscriptions = s.subscriptions := by
  unfold State.downHoldExpiry
  split
  · exact (State.tryQualify_subscriptions _ p).trans (State.modUnit_subscriptions _ p _)
  · rfl

theorem State.qualificationComplete_subscriptions (s : State) (p : Port) :
    (s.qualificationComplete p).subscriptions = s.subscriptions := by
  unfold State.qualificationComplete
  split
  · exact State.enterUp_subscriptions _ p
  · rfl

theorem State.returnService_subscriptions (s : State) (p : Port) : (s.returnService p).subscriptions = s.subscriptions :=
  s.modUnit_subscriptions p _

/-! ### ECHO frames and the segment test -/

theorem State.echoStart_subscriptions (s : State) (p : Port) : (s.echoStart p).subscriptions = s.subscriptions := by
  unfold State.echoStart
  split
  · exact s.modUnit_subscriptions p _
  · split
    · exact s.modUnit_subscriptions p _
    · rfl

theorem State.echoSent_subscriptions (s : State) (p : Port) (f : EchoFrame) : (s.echoSent p f).subscriptions = s.subscriptions :=
  (State.flushElastic_subscriptions _ p).trans (State.modUnit_subscriptions _ p _)

theorem State.replySent_subscriptions (s : State) (p : Port) : (s.replySent p).subscriptions = s.subscriptions := by
  unfold State.replySent
  split
  · exact (State.modUnit_subscriptions _ p _).trans (s.echoSent_subscriptions p _)
  · rfl

theorem State.requestSent_subscriptions (s : State) (p : Port) : (s.requestSent p).subscriptions = s.subscriptions := by
  unfold State.requestSent
  split
  · exact s.echoSent_subscriptions p _
  · rfl

theorem State.echoWaitExpiry_subscriptions (s : State) : s.echoWaitExpiry.subscriptions = s.subscriptions := by
  unfold State.echoWaitExpiry
  dsimp only
  split <;> rfl

theorem State.judgeReply_subscriptions (s : State) (p : Port) (f : EchoFrame) (c : Check) :
    (s.judgeReply p f c).subscriptions = s.subscriptions := by
  unfold State.judgeReply
  dsimp only
  repeat' split
  all_goals rfl

theorem State.receiveEcho_subscriptions (s : State) (p : Port) (f : EchoFrame) (c : Check) :
    (s.receiveEcho p f c).subscriptions = s.subscriptions := by
  unfold State.receiveEcho
  repeat' split
  all_goals first
    | rfl
    | exact s.modUnit_subscriptions p _
    | exact s.judgeReply_subscriptions p f c

/-! ### The tracker, the scheduler and the tap state -/

theorem State.modTrk_subscriptions (s : State) (f : Tracker → Tracker) : (s.modTrk f).subscriptions = s.subscriptions := rfl

theorem State.raise_subscriptions (s : State) (x : Source) : (s.raise x).subscriptions = s.subscriptions := rfl

theorem State.enterSilent_subscriptions (s : State) : s.enterSilent.subscriptions = s.subscriptions := rfl

theorem State.armGap_subscriptions (s : State) (p : Port) : (s.armGap p).subscriptions = s.subscriptions := by
  unfold State.armGap
  split <;> rfl

theorem State.stopGap_subscriptions (s : State) (p : Port) : (s.stopGap p).subscriptions = s.subscriptions := by
  unfold State.stopGap
  split <;> rfl

theorem State.setTapState_subscriptions (s : State) (t : TapState) : (s.setTapState t).subscriptions = s.subscriptions := by
  unfold State.setTapState
  split <;> rfl

theorem State.enterFaulted_subscriptions (s : State) : s.enterFaulted.subscriptions = s.subscriptions :=
  State.subscriptions_eq (by rw [State.enterFaulted_mgmt]) s.enterFaulted_subs

theorem State.rollEffect_subscriptions (s : State) (d : RollDecision) (f : RollFrame) :
    (s.rollEffect d f).subscriptions = s.subscriptions := by
  cases d with
  | duplicate => exact s.enterFaulted_subscriptions
  | _ => rfl

theorem State.takeRoll_subscriptions (s : State) (x : Option RollSample) (f : RollFrame) (c : Check) :
    (s.takeRoll x f c).1.subscriptions = s.subscriptions := by
  unfold State.takeRoll
  split
  · rfl
  · split
    · rfl
    · dsimp only
      split
      · exact s.rollEffect_subscriptions _ f
      · rfl

theorem State.publishHeader_subscriptions (s : State) : s.publishHeader.subscriptions = s.subscriptions := by
  have taken (t : State) :
      ((List.finRange 4).foldl (fun t p => if s.swaps p then t.raise (.postTaken p) else t) t).subscriptions = t.subscriptions :=
    foldl_keeps State.subscriptions _ (fun t p => by split <;> rfl) _ t
  unfold State.publishHeader
  split
  iterate 3 exact taken _
  iterate 2 rfl

theorem State.schedulerHeader_subscriptions (s : State) (f : HeaderFrame) : (s.schedulerHeader f).subscriptions = s.subscriptions :=
  State.subscriptions_eq (by rw [State.schedulerHeader_mgmt]) (s.schedulerHeader_subs f)

theorem State.recordHeader_subscriptions (s : State) (p : Port) (f : HeaderFrame) :
    (s.recordHeader p f).subscriptions = s.subscriptions := by
  unfold State.recordHeader
  dsimp only
  split <;> rfl

/-- Of the preparation of a train, a due activation alone may move the records or the active table (R52, R119). -/
theorem State.prepareTrain_subscriptions (s : State) (f : HeaderFrame) :
    (s.prepareTrain f).subscriptions = (s.activateDue f.epoch).subscriptions := by
  refine (State.raise_subscriptions _ _).trans ((State.schedulerHeader_subscriptions _ f).trans ?_)
  refine Eq.trans ?_ (State.publishHeader_subscriptions _)
  generalize (s.activateDue f.epoch).publishHeader = t
  rfl

/-! ### Requests and containers -/

theorem State.clearGroup_subscriptions (s : State) (g : Group) : (s.clearGroup g).subscriptions = s.subscriptions := by
  cases g with
  | port p => exact s.modUnit_subscriptions p _
  | _ => rfl

theorem State.pulse_subscriptions (s : State) (c : Fin 12) : (s.pulse c).subscriptions = s.subscriptions := by
  unfold State.pulse
  dsimp only
  split <;> rfl

/-- No request moves a record or the active set: a set is staged, and becomes active at a header alone (R118). -/
theorem runRequest_subscriptions (r : Request) (src : Station) (s : State) :
    (runRequest r src s).state.subscriptions = s.subscriptions := by
  have halted (x : Bool) (t : TapState) : ((s.setCommandCause x).setTapState t).subscriptions = s.subscriptions :=
    State.setTapState_subscriptions _ t
  cases r
  all_goals
    simp only [runRequest, runIdentify, runReadStatus, runReadCounters, runClearCounters, runReadCensus,
      runReadSubscriptionState, runReadEntry, runOpenEdit, runStageEntry, runClearStaged, runCommit, runAbandonEdit,
      runQueryEdit, runHalt, runResume, runReturnWrap, runPulse, runRestart, runSegmentTestStart, runSegmentTestResult]
  all_goals (repeat' split)
  all_goals first
    | rfl
    | exact halted _ _
    | exact s.modUnit_subscriptions _ _
    | exact s.clearGroup_subscriptions _
    | exact s.pulse_subscriptions _

theorem State.touchSession_subscriptions (s : State) (src : Station) : (s.touchSession src).subscriptions = s.subscriptions := by
  rw [State.touchSession_eq]
  rfl

theorem State.executeRequest_subscriptions {run : State → Reply} (hr : ∀ t : State, (run t).state.subscriptions = t.subscriptions)
    (s : State) (src : Station) (tag code : Byte) : (s.executeRequest src tag code run).subscriptions = s.subscriptions := by
  unfold State.executeRequest State.remember State.respond
  refine (State.subscriptions_eq ?_ ?_).trans (hr s)
  · rw [State.modMgmt_mgmt, State.modMgmt_mgmt]
  · rw [State.modMgmt_subs, State.modMgmt_subs]

/-- A request taken moves what its execution moves (R106 to R108). -/
theorem State.takeRequest_subscriptions {run : State → Reply} (hr : ∀ t : State, (run t).state.subscriptions = t.subscriptions)
    (s : State) (src : Station) (tag code : Byte) : (s.takeRequest src tag code run).subscriptions = s.subscriptions := by
  have hexec := (State.executeRequest_subscriptions hr (s.touchSession src) src tag code).trans (s.touchSession_subscriptions src)
  unfold State.takeRequest
  dsimp only
  split
  · split
    · split
      · exact s.touchSession_subscriptions src
      · exact hexec
    · exact hexec
  · exact s.touchSession_subscriptions src

theorem State.deliver_subscriptions {run : State → Reply} (hr : ∀ t : State, (run t).state.subscriptions = t.subscriptions)
    (s : State) (src : Station) (tag code : Byte) : (s.deliver src tag code run).subscriptions = s.subscriptions := by
  unfold State.deliver
  split
  · split
    · exact State.takeRequest_subscriptions hr s src tag code
    · rfl
  · rfl

theorem State.takePayload_subscriptions (s : State) (src : Station) (tag : Byte) (payload : List Byte) :
    (s.takePayload src tag payload).subscriptions = s.subscriptions := by
  unfold State.takePayload
  split
  · exact State.takeRequest_subscriptions (runRequest_subscriptions _ src) s src tag _
  · exact State.takeRequest_subscriptions (fun _ => rfl) s src tag _

theorem State.outcomeStep_subscriptions (s : State) (i : Fin 8) (f : ContainerFrame) :
    (s.outcomeStep i f).state.subscriptions = s.subscriptions := by
  unfold State.outcomeStep
  repeat' split
  all_goals rfl

theorem State.stripStep_subscriptions (s : State) (f : ContainerFrame) : (s.stripStep f).state.subscriptions = s.subscriptions := by
  unfold State.stripStep
  split <;> rfl

theorem State.deliveryStep_subscriptions (s : State) (f : ContainerFrame) :
    (s.deliveryStep f).state.subscriptions = s.subscriptions := by
  unfold State.deliveryStep
  repeat' split
  all_goals first
    | rfl
    | exact s.takePayload_subscriptions _ _ _

theorem State.broadcastStep_subscriptions (s : State) (f : ContainerFrame) : (s.broadcastStep f).subscriptions = s.subscriptions := by
  unfold State.broadcastStep
  repeat' split
  all_goals rfl

theorem State.fillStep_subscriptions (s : State) (t : TapState) (took : Bool) (i : Fin 8) (f : ContainerFrame) :
    (s.fillStep t took i f).1.subscriptions = s.subscriptions := by
  unfold State.fillStep
  repeat' split
  all_goals rfl

theorem State.containerSteps_subscriptions (s : State) (t : TapState) (i : Fin 8) (f : ContainerFrame) :
    (s.containerSteps t i f).state.subscriptions = s.subscriptions := by
  unfold State.containerSteps
  dsimp only
  have hsteps (f2 f3 f4 : ContainerFrame) :
      ((((s.outcomeStep i f).state.stripStep f2).state.deliveryStep f3).state.broadcastStep f4).subscriptions = s.subscriptions :=
    (State.broadcastStep_subscriptions _ f4).trans ((State.deliveryStep_subscriptions _ f3).trans
      ((State.stripStep_subscriptions _ f2).trans (s.outcomeStep_subscriptions i f)))
  split
  · exact hsteps _ _ _
  · exact (State.fillStep_subscriptions _ t _ i _).trans (hsteps _ _ _)

theorem State.actOnContainer_subscriptions (s : State) (f : ContainerFrame) :
    (s.actOnContainer f).state.subscriptions = s.subscriptions := by
  unfold State.actOnContainer
  split
  · rfl
  · split
    · exact s.containerSteps_subscriptions _ _ f
    · rfl

theorem State.goodContainer_subscriptions (s : State) (f : ContainerFrame) :
    (s.goodContainer f).state.subscriptions = s.subscriptions := by
  unfold State.goodContainer
  dsimp only
  split
  · rfl
  · rfl
  · split
    · exact s.actOnContainer_subscriptions f
    · split <;> rfl

/-! ### A frame's beginning, its counting and its leaving -/

theorem State.beginArrival_subscriptions (s : State) (p : Port) (lead : Lead) :
    (s.beginArrival p lead).subscriptions = s.subscriptions := by
  unfold State.beginArrival
  dsimp only
  split
  · exact (State.stopGap_subscriptions _ p).trans (s.modUnit_subscriptions p _)
  · exact s.modUnit_subscriptions p _

theorem State.frameBegins_subscriptions (s : State) (p : Port) (lead : Lead) :
    (s.frameBegins p lead).subscriptions = s.subscriptions := by
  unfold State.frameBegins
  split
  · rfl
  · split
    · exact s.beginArrival_subscriptions p _
    · split
      · exact s.modUnit_subscriptions p _
      · rfl

theorem State.arrived_subscriptions (s : State) (p : Port) (lead : Lead) : (s.arrived p lead).1.subscriptions = s.subscriptions := by
  unfold State.arrived
  split
  · split
    · rfl
    · exact s.beginArrival_subscriptions p lead
  · exact s.beginArrival_subscriptions p lead

theorem State.countFrame_subscriptions (s : State) (p : Port) (a : Arriving) (c : Check) :
    (s.countFrame p a c).subscriptions = s.subscriptions := by
  unfold State.countFrame
  dsimp only
  split
  · exact s.modUnit_subscriptions p _
  · exact s.modUnit_subscriptions p _

theorem State.countLost_subscriptions (s : State) (a : Arriving) (c : Check) : (s.countLost a c).subscriptions = s.subscriptions := by
  unfold State.countLost
  split <;> rfl

theorem State.forward_subscriptions (s : State) (a : Arriving) (x : SentContent) (w r : Bool) :
    (s.forward a x w r).subscriptions = s.subscriptions := by
  unfold State.forward
  split
  · exact s.sendOut_subscriptions _ _
  · rfl

/-! ### Pins, the bypass hold and the local port -/

theorem State.stopRise_subscriptions (s : State) : s.stopRise.subscriptions = s.subscriptions := by
  unfold State.stopRise
  dsimp only
  split
  · exact State.setTapState_subscriptions _ _
  · rfl

theorem State.stopFall_subscriptions (s : State) : s.stopFall.subscriptions = s.subscriptions := by
  unfold State.stopFall
  dsimp only
  split
  · exact State.setTapState_subscriptions _ _
  · rfl

theorem State.pinChange_subscriptions (s : State) (k : Fin 8) (level : Bool) :
    (s.pinChange k level).subscriptions = s.subscriptions := by
  unfold State.pinChange
  split
  · dsimp only
    split <;> rfl
  · rfl

theorem State.trigOutFall_subscriptions (s : State) (k : Fin 8) : (s.trigOutFall k).subscriptions = s.subscriptions := by
  unfold State.trigOutFall
  split
  · rfl
  · dsimp only
    split <;> rfl

theorem State.pulseEnd_subscriptions (s : State) (c : Fin 12) : (s.pulseEnd c).subscriptions = s.subscriptions := by
  unfold State.pulseEnd
  split <;> rfl

theorem State.sessionIdleExpiry_subscriptions (s : State) : s.sessionIdleExpiry.subscriptions = s.subscriptions := by
  unfold State.sessionIdleExpiry
  repeat' split
  all_goals rfl

theorem State.startHold_subscriptions (s : State) (kind : RestartKind) : (s.startHold kind).subscriptions = s.subscriptions := by
  unfold State.startHold
  split <;> rfl

theorem State.powerSettled_subscriptions (s : State) : s.powerSettled.subscriptions = s.subscriptions := by
  unfold State.powerSettled
  split
  · exact State.startHold_subscriptions _ _
  · rfl

theorem State.rstNHigh_subscriptions (s : State) : s.rstNHigh.subscriptions = s.subscriptions := by
  unfold State.rstNHigh
  split
  · exact State.startHold_subscriptions _ _
  · rfl

theorem State.leaveBypass_subscriptions (s : State) : s.leaveBypass.subscriptions = s.subscriptions :=
  (State.setTapState_subscriptions _ _).trans ((State.modUnit_subscriptions _ _ _).trans (s.modUnit_subscriptions _ _))

theorem State.bypassHoldExpiry_subscriptions (s : State) (straps : Station) :
    (s.bypassHoldExpiry straps).subscriptions = s.subscriptions := by
  unfold State.bypassHoldExpiry
  split
  · dsimp only
    split
    · exact State.leaveBypass_subscriptions _
    · rfl
  · rfl
  · rfl

theorem State.endTransaction_subscriptions (s : State) : s.endTransaction.subscriptions = s.subscriptions := by
  unfold State.endTransaction
  split
  · rfl
  · dsimp only
    split <;> rfl

theorem State.transactionStart_subscriptions (s : State) (command : Byte) (a : Word) (words : Nat) :
    (s.transactionStart command a words).subscriptions = s.subscriptions := by
  have ended := s.endTransaction_subscriptions
  unfold State.transactionStart
  dsimp only
  split
  · exact ended
  · split
    · exact ended
    · split <;> exact ended

theorem State.writeMessage_subscriptions (s : State) (m : Fin 8) (w : Fin 50) (value : Word) :
    (s.writeMessage m w value).subscriptions = s.subscriptions := by
  unfold State.writeMessage
  dsimp only
  split <;> rfl

/-- A written word moves what its effect moves (R161). -/
theorem State.lspWrite_subscriptions {act : State → State} (s : State) (a : Word) (ha : (act s).subscriptions = s.subscriptions) :
    (s.lspWrite a act).subscriptions = s.subscriptions := by
  unfold State.lspWrite
  split
  · exact ha
  · rfl

theorem Acted.finish_subscriptions (x : Acted) : x.finish.subscriptions = x.state.subscriptions := by
  unfold Acted.finish
  dsimp only
  split <;> rfl

theorem State.takeAction_subscriptions (s : State) (o : BitVec 12) : (s.takeAction o).state.subscriptions = s.subscriptions := by
  unfold State.takeAction
  split
  · rfl
  · split <;> rfl

theorem State.postAction_subscriptions (s : State) (o : BitVec 12) : (s.postAction o).state.subscriptions = s.subscriptions := by
  unfold State.postAction
  split <;> rfl

theorem State.sendAction_subscriptions (s : State) (o : BitVec 12) : (s.sendAction o).state.subscriptions = s.subscriptions := by
  unfold State.sendAction
  split
  · rfl
  · split <;> rfl

theorem State.cancelAction_subscriptions (s : State) (o : BitVec 12) : (s.cancelAction o).state.subscriptions = s.subscriptions := by
  unfold State.cancelAction
  split
  · rfl
  · split <;> rfl

theorem State.clearAction_subscriptions (s : State) (o : BitVec 12) : (s.clearAction o).state.subscriptions = s.subscriptions := by
  unfold State.clearAction
  split
  · rfl
  · split <;> rfl

theorem State.releaseAction_subscriptions (s : State) : s.releaseAction.state.subscriptions = s.subscriptions := by
  unfold State.releaseAction
  split <;> rfl

theorem State.popAction_subscriptions (s : State) : s.popAction.state.subscriptions = s.subscriptions := by
  unfold State.popAction
  split <;> rfl

end Sys2Proof.Machine
end


section
/-! PROOFS. Freshness and age (R50): a close ages every entry, a BLOCK is captured, a set becomes active, a restart begins; these alone
move a record or the active table, and each keeps the law. -/

namespace Sys2Proof.Machine

/-! ### One record -/

/-- R50 for one record under its entry's age limit. -/
def SubRecord.lawful (r : SubRecord) (limit : Byte) : Prop := r.freshness = .stale ↔ limit < r.age

theorem SubRecord.lawful_reset (limit : Byte) : SubRecord.reset.lawful limit := by
  simp [SubRecord.lawful, SubRecord.reset]

/-- A record that was fresh this cycle has age 0, which is above no limit (R49). -/
theorem SubRecord.lawful_agedFresh (r : SubRecord) (cycle : Cycle) (limit : Byte) : (r.agedFresh cycle).lawful limit := by
  simp [SubRecord.lawful, SubRecord.agedFresh]

/-- An age that was above the limit is still above it one cycle on, at the counter's greatest value too. -/
theorem lt_satInc_of_lt {limit age : Byte} (h : limit < age) : limit < satInc age := by
  have hage := age.isLt
  rw [BitVec.lt_def, satInc_toNat]
  rw [BitVec.lt_def] at h
  omega

/-- A record that was not fresh this cycle turns STALE exactly as its age passes the limit (R50). -/
theorem SubRecord.lawful_agedOlder {r : SubRecord} {limit : Byte} (h : r.lawful limit) : (r.agedOlder limit).lawful limit := by
  unfold SubRecord.lawful SubRecord.agedOlder
  dsimp only
  split
  · rename_i hlt
    exact iff_of_true rfl hlt
  · rename_i hle
    exact iff_of_false (fun hstale => hle (lt_satInc_of_lt (h.mp hstale))) hle

/-! ### The law -/

theorem State.FreshnessLaw.of_subscriptions {s t : State} (h : s.FreshnessLaw) (e : t.subscriptions = s.subscriptions) :
    t.FreshnessLaw := by
  obtain ⟨htable, hrecords⟩ := Prod.mk.inj e
  intro i
  rw [htable, hrecords]
  exact h i

/-- Records at their reset values meet the law under any table (R42, R52). -/
theorem State.freshnessLaw_of_reset {s : State} (h : s.subs = Vector.replicate 32 SubRecord.reset) : s.FreshnessLaw := by
  intro e _
  have hreset : s.subs[e] = SubRecord.reset := by rw [h, Fin.getElem_fin, Vector.getElem_replicate]
  rw [hreset]
  exact SubRecord.lawful_reset _

/-- A close ages each entry by its limit, and clears flags that the law does not read (R47, R49, R50). -/
theorem State.FreshnessLaw.close {s : State} (h : s.FreshnessLaw) (k : CloseKind) (l : Option (List RollEntry)) :
    (s.close k l).FreshnessLaw := by
  obtain ⟨hrecords, -⟩ := s.close_units k l
  have hactive : (s.close k l).mgmt.active = s.mgmt.active := by rw [State.close_mgmt]
  intro e hvalid
  rw [hactive] at hvalid ⊢
  rw [hrecords e]
  show (s.agedRecord e).lawful _
  rw [State.agedRecord, if_pos hvalid]
  split
  · exact SubRecord.lawful_agedFresh _ _ _
  · exact SubRecord.lawful_agedOlder (h e hvalid)

/-- A capture sets the two flags of the cycle alone (R46). -/
theorem State.FreshnessLaw.captureBlock {s : State} (h : s.FreshnessLaw) (f : BlockFrame) : (s.captureBlock f).FreshnessLaw := by
  intro e hvalid
  rw [State.captureBlock_mgmt] at hvalid ⊢
  rw [State.captureBlock_subs]
  split
  · exact h e hvalid
  · exact h e hvalid

/-- An activation sets every record to its reset values (R52). -/
theorem State.freshnessLaw_activate (s : State) (x : Session) : (s.activate x).FreshnessLaw := by
  refine State.FreshnessLaw.of_subscriptions ?_ (State.activatePorts_subscriptions _ _)
  exact State.freshnessLaw_of_reset rfl

theorem State.freshnessLaw_beginRestart (s : State) (kind : RestartKind) : (s.beginRestart kind).FreshnessLaw :=
  State.freshnessLaw_of_reset rfl

/-! ### Where a train closes -/

theorem State.FreshnessLaw.endTrainAt {s : State} (h : s.FreshnessLaw) (p : Port) : (s.endTrainAt p).FreshnessLaw := by
  unfold State.endTrainAt
  split
  · split
    · exact h.close _ _
    · exact h
  · split
    · exact h
    · exact h
  · exact h

theorem State.FreshnessLaw.leaveUp {s : State} (h : s.FreshnessLaw) (p : Port) (c : DownCause) : (s.leaveUp p c).FreshnessLaw := by
  refine State.FreshnessLaw.endTrainAt (h.of_subscriptions ?_) p
  exact (State.abortTest_subscriptions _ p).trans ((State.cutOutputs_subscriptions _ p).trans
    ((State.leaveService_subscriptions _ p).trans ((State.modUnit_subscriptions _ p _).trans (s.endPartial_subscriptions p))))

theorem State.FreshnessLaw.goDown {s : State} (h : s.FreshnessLaw) (p : Port) (c : DownCause) : (s.goDown p c).FreshnessLaw := by
  unfold State.goDown
  split
  · exact h.leaveUp p c
  · exact h.of_subscriptions (s.modUnit_subscriptions p _)
  · exact h

theorem State.FreshnessLaw.windowAdd {s : State} (h : s.FreshnessLaw) (p : Port) (error : Bool) :
    (s.windowAdd p error).FreshnessLaw := by
  unfold State.windowAdd
  split
  · dsimp only
    split
    · exact (h.of_subscriptions (s.modUnit_subscriptions p _)).leaveUp p _
    · exact h.of_subscriptions (s.modUnit_subscriptions p _)
  · exact h

theorem State.FreshnessLaw.lockLost {s : State} (h : s.FreshnessLaw) (p : Port) : (s.lockLost p).FreshnessLaw :=
  State.FreshnessLaw.of_subscriptions
    ((h.of_subscriptions ((State.endPartial_subscriptions _ p).trans (s.modUnit_subscriptions p _))).goDown p .loss)
    (State.refit_subscriptions _ p)

theorem State.FreshnessLaw.farEnd {s : State} (h : s.FreshnessLaw) (p : Port) (sig : FarSignal) : (s.farEnd p sig).FreshnessLaw := by
  have hseen := h.of_subscriptions (s.modUnit_subscriptions p fun u => { u with farEnd := some sig })
  unfold State.farEnd
  split
  · refine State.FreshnessLaw.of_subscriptions ?_ (State.refit_subscriptions _ p)
    split
    · exact hseen.goDown p .remote
    · exact hseen.of_subscriptions (State.tryQualify_subscriptions _ p)
  · exact h

theorem State.FreshnessLaw.badFrame {s : State} (h : s.FreshnessLaw) : s.badFrame.FreshnessLaw := by
  unfold State.badFrame
  dsimp only
  split
  · exact h
  · exact h
  · exact State.FreshnessLaw.close (s := s.orderDefect) h _ _
  · exact h
  · exact h

theorem State.FreshnessLaw.gapTimerExpiry {s : State} (h : s.FreshnessLaw) : s.gapTimerExpiry.FreshnessLaw := by
  unfold State.gapTimerExpiry
  split
  · rename_i d _
    dsimp only
    split
    · exact State.FreshnessLaw.close (s := s.reach d) h _ _
    · exact h
    · exact h
  · exact h

/-- A MISSED close, and SILENT where it brings the count to the limit (R31, R34). -/
theorem State.FreshnessLaw.missedClose {s : State} (h : s.FreshnessLaw) : s.missedClose.FreshnessLaw := by
  have hcounted := (h.close .missed none).of_subscriptions
    (State.modTrk_subscriptions _ fun t => { t with missed := satInc t.missed })
  unfold State.missedClose
  dsimp only
  split
  · exact hcounted.of_subscriptions (State.enterSilent_subscriptions _)
  · exact hcounted

theorem State.FreshnessLaw.trainTimerExpiry {s : State} (h : s.FreshnessLaw) : s.trainTimerExpiry.FreshnessLaw := by
  unfold State.trainTimerExpiry
  split
  · rename_i d _
    have hmissed := State.FreshnessLaw.missedClose (s := s.reach d) h
    dsimp only
    split
    · exact h
    · exact hmissed.of_subscriptions (State.modTrk_subscriptions _ _)
    · exact hmissed.of_subscriptions (State.modTrk_subscriptions _ _)
  · exact h

/-! ### Headers, where a set may become active -/

theorem State.FreshnessLaw.activateDue {s : State} (h : s.FreshnessLaw) (epoch : Byte) : (s.activateDue epoch).FreshnessLaw := by
  unfold State.activateDue
  split
  · exact s.freshnessLaw_activate _
  · exact h

/-- A first pass: the header recorded, a due set activated, the train prepared (R21, R22, R118). -/
theorem State.FreshnessLaw.firstPass {s : State} (h : s.FreshnessLaw) (p : Port) (f : HeaderFrame) : (s.firstPass p f).FreshnessLaw := by
  have hdue := (h.of_subscriptions (s.recordHeader_subscriptions p f)).activateDue f.epoch
  rw [State.firstPass_eq]
  exact (hdue.of_subscriptions (State.prepareTrain_subscriptions _ f)).of_subscriptions
    ((State.armGap_subscriptions _ p).trans (State.modTrk_subscriptions _ _))

theorem State.FreshnessLaw.takeHeader {s : State} (h : s.FreshnessLaw) (p : Port) (f : HeaderFrame) :
    (s.takeHeader p f).FreshnessLaw := by
  unfold State.takeHeader
  split
  · exact h.firstPass p f
  · exact h.of_subscriptions (State.armGap_subscriptions _ p)

theorem State.FreshnessLaw.trackHeader {s : State} (h : s.FreshnessLaw) (p : Port) (f : HeaderFrame) (c : Check) :
    (s.trackHeader p f c).FreshnessLaw := by
  unfold State.trackHeader
  split
  · split
    · split
      · exact (h.close _ _).takeHeader p f
      · split
        · exact (h.close _ _).firstPass p f
        · exact h
    · split
      · exact h.badFrame.of_subscriptions (State.armGap_subscriptions _ p)
      · exact h
  · split
    · exact h.takeHeader p f
    · exact h
  · split
    · exact h.takeHeader p f
    · exact h.of_subscriptions (s.armGap_subscriptions p)

/-! ### The other frames -/

theorem State.FreshnessLaw.goodBlock {s : State} (h : s.FreshnessLaw) (f : BlockFrame) (capture : Bool) :
    (s.goodBlock f capture).FreshnessLaw := by
  have captured : (if capture then s.captureBlock f else s).FreshnessLaw := by
    split
    · exact h.captureBlock f
    · exact h
  unfold State.goodBlock
  dsimp only
  split
  · split
    · exact captured
    · split <;> exact h
  all_goals exact h

theorem State.FreshnessLaw.trackBlock {s : State} (h : s.FreshnessLaw) (p : Port) (f : BlockFrame) (capture : Bool) (c : Check) :
    (s.trackBlock p f capture c).FreshnessLaw := by
  unfold State.trackBlock
  split
  · refine State.FreshnessLaw.of_subscriptions ?_ (State.armGap_subscriptions _ p)
    split
    · exact h.goodBlock f capture
    · exact h.badFrame
  · exact h.of_subscriptions (s.armGap_subscriptions p)

theorem State.FreshnessLaw.trackContainer {s : State} (h : s.FreshnessLaw) (p : Port) (f : ContainerFrame) (c : Check) :
    (s.trackContainer p f c).state.FreshnessLaw := by
  unfold State.trackContainer
  split
  · split
    · exact h.of_subscriptions ((State.armGap_subscriptions _ p).trans (s.goodContainer_subscriptions f))
    · exact h.badFrame.of_subscriptions (State.armGap_subscriptions _ p)
  · exact h.of_subscriptions (s.armGap_subscriptions p)

theorem State.FreshnessLaw.endAtRoll {s : State} (h : s.FreshnessLaw) (p : Port) (f : RollFrame) (c : Check) :
    (s.endAtRoll p f c).FreshnessLaw := by
  unfold State.endAtRoll
  split
  · split
    · unfold State.endTrain
      split
      · exact h.close _ _
      · exact h.close _ _
    · exact h
  · split
    · exact h
    · exact h
  · exact h

/-- A frame from its beginning to its leaving: the law rests on the frame's own effect, and on the error window (R137). -/
theorem State.FreshnessLaw.receive {s : State} (h : s.FreshnessLaw) (p : Port) (f : Frame) (fcs : Option Fcs)
    {act : Arriving → Check → State → Passed}
    (hact : ∀ (a : Arriving) (c : Check) (t : State), t.FreshnessLaw → (act a c t).state.FreshnessLaw) :
    (s.receive p f fcs act).FreshnessLaw := by
  unfold State.receive
  split
  · exact h
  · have hcounted := h.of_subscriptions ((State.countFrame_subscriptions _ p (s.arrived p f.lead).2 (f.outcome fcs)).trans
      ((State.modUnit_subscriptions _ p fun u => { u with arriving := none }).trans (s.arrived_subscriptions p f.lead)))
    exact ((hact _ _ _ hcounted).of_subscriptions ((State.forward_subscriptions _ _ _ _ _).trans
      (State.countLost_subscriptions _ _ _))).windowAdd p _

theorem State.FreshnessLaw.passHeader {s : State} (h : s.FreshnessLaw) (p : Port) (f : HeaderFrame) (a : Arriving) (c : Check) :
    (passHeader p f a c s).state.FreshnessLaw := by
  unfold Machine.passHeader
  dsimp only
  split
  · exact h.trackHeader p f c
  · exact h

theorem State.FreshnessLaw.passBlock {s : State} (h : s.FreshnessLaw) (p : Port) (f : BlockFrame) (a : Arriving) (c : Check) :
    (passBlock p f a c s).state.FreshnessLaw := by
  unfold Machine.passBlock
  dsimp only
  split
  · exact h.trackBlock p _ _ c
  · exact h

theorem State.FreshnessLaw.passContainer {s : State} (h : s.FreshnessLaw) (p : Port) (f : ContainerFrame) (a : Arriving) (c : Check) :
    (passContainer p f a c s).state.FreshnessLaw := by
  unfold Machine.passContainer
  split
  · exact h.trackContainer p f c
  · exact h

theorem State.FreshnessLaw.passRoll {s : State} (h : s.FreshnessLaw) (p : Port) (f : RollFrame) (a : Arriving) (c : Check) :
    (passRoll p f a c s).state.FreshnessLaw := by
  unfold Machine.passRoll
  split
  · exact (h.of_subscriptions (s.takeRoll_subscriptions a.roll f c)).endAtRoll p f c
  · exact h

theorem State.FreshnessLaw.passUnknown {s : State} (h : s.FreshnessLaw) (p : Port) (f : UnknownFrame) (a : Arriving) (c : Check) :
    (passUnknown p f a c s).state.FreshnessLaw := by
  have marked : (s.trackUnknown p).subscriptions = s.subscriptions := by
    unfold State.trackUnknown
    split
    · exact State.armGap_subscriptions _ p
    · exact State.armGap_subscriptions _ p
  unfold Machine.passUnknown
  dsimp only
  split
  · exact h.of_subscriptions marked
  · exact h

/-! ### Every command -/

theorem State.FreshnessLaw.of_next {u t : State} (e : (.next u : Result) = .next t) (h : u.FreshnessLaw) : t.FreshnessLaw := by
  cases e
  exact h

/-- A command that a condition stops, as BYPASS does. -/
theorem State.FreshnessLaw.ite {s t : State} (b : Bool) (hs : s.FreshnessLaw) (ht : t.FreshnessLaw) :
    (if b then s else t).FreshnessLaw := by
  split
  · exact hs
  · exact ht

/-- An action word: the act on the transaction marked, an error, or nothing (R164). -/
theorem State.FreshnessLaw.localAction {s : State} (h : s.FreshnessLaw) {act : State → State}
    (hact : ∀ t : State, t.FreshnessLaw → (act t).FreshnessLaw) : (s.localAction act).FreshnessLaw := by
  unfold State.localAction
  split
  · split
    · exact h
    · exact hact s.markActed h
  · exact h

/-- An action that finishes with a report. -/
theorem State.FreshnessLaw.acts {s : State} (h : s.FreshnessLaw) {act : State → Acted}
    (hact : ∀ t : State, (act t).state.subscriptions = t.subscriptions) :
    (s.localAction fun t => (act t).finish).FreshnessLaw :=
  h.localAction fun t ht => ht.of_subscriptions ((Acted.finish_subscriptions _).trans (hact t))

/-- The rows of the requests are deliveries (R89). -/
theorem exec_requestRow_keepsFreshness (r : Request) (dt : Nat) (src : Station) (tag : Byte) {s t : State} (h : s.FreshnessLaw)
    (e : exec (requestRow r dt src tag) s = .next t) : t.FreshnessLaw := by
  have delivered (code : Byte) : ((s.elapse dt).deliver src tag code (runRequest r src)).FreshnessLaw :=
    h.of_subscriptions (State.deliver_subscriptions (runRequest_subscriptions r src) (s.elapse dt) src tag code)
  cases r <;> exact State.FreshnessLaw.of_next e (delivered _)

theorem exec_keepsFreshness (c : Instr) {s t : State} (h : s.FreshnessLaw) (e : exec c s = .next t) : t.FreshnessLaw := by
  have he (dt : Nat) : (s.elapse dt).FreshnessLaw := h
  cases c with
  | header dt p f fcs => exact .of_next e ((he dt).receive p _ fcs fun a c _ k => k.passHeader p f a c)
  | block dt p f fcs => exact .of_next e ((he dt).receive p _ fcs fun a c _ k => k.passBlock p f a c)
  | container dt p f fcs => exact .of_next e ((he dt).receive p _ fcs fun a c _ k => k.passContainer p f a c)
  | roll dt p f fcs => exact .of_next e ((he dt).receive p _ fcs fun a c _ k => k.passRoll p f a c)
  | echo dt p f fcs =>
    exact .of_next e ((he dt).receive p _ fcs fun a c t k => k.of_subscriptions (t.receiveEcho_subscriptions p f c))
  | unknownKind dt p f fcs => exact .of_next e ((he dt).receive p _ fcs fun a c _ k => k.passUnknown p f a c)
  | gapTimerExpiry dt => exact .of_next e (he dt).gapTimerExpiry
  | trainTimerExpiry dt => exact .of_next e (he dt).trainTimerExpiry
  | lockLost dt p => exact .of_next e (.ite _ (he dt) ((he dt).lockLost p))
  | lockGained dt p => exact .of_next e (.ite _ (he dt) ((he dt).of_subscriptions (State.lockGained_subscriptions _ p)))
  | farEndRecognised dt p sig => exact .of_next e (.ite _ (he dt) ((he dt).farEnd p sig))
  | downHoldExpiry dt p => exact .of_next e (.ite _ (he dt) ((he dt).of_subscriptions (State.downHoldExpiry_subscriptions _ p)))
  | qualificationComplete dt p =>
    exact .of_next e (.ite _ (he dt) ((he dt).of_subscriptions (State.qualificationComplete_subscriptions _ p)))
  | returnToService dt p => exact .of_next e (.ite _ ((he dt).of_subscriptions (State.returnService_subscriptions _ p)) (he dt))
  | echoTransmitStart dt p => exact .of_next e (.ite _ ((he dt).of_subscriptions (State.echoStart_subscriptions _ p)) (he dt))
  | echoReplySent dt p => exact .of_next e ((he dt).of_subscriptions (State.replySent_subscriptions _ p))
  | echoRequestSent dt p => exact .of_next e ((he dt).of_subscriptions (State.requestSent_subscriptions _ p))
  | echoWaitExpiry dt => exact .of_next e ((he dt).of_subscriptions (State.echoWaitExpiry_subscriptions _))
  | sessionIdleExpiry dt => exact .of_next e ((he dt).of_subscriptions (State.sessionIdleExpiry_subscriptions _))
  | stopRise dt => exact .of_next e ((he dt).of_subscriptions (State.stopRise_subscriptions _))
  | stopFall dt => exact .of_next e ((he dt).of_subscriptions (State.stopFall_subscriptions _))
  | triggerPinChange dt k level => exact .of_next e ((he dt).of_subscriptions (State.pinChange_subscriptions _ k level))
  | trigOutFall dt k => exact .of_next e ((he dt).of_subscriptions (State.trigOutFall_subscriptions _ k))
  | pulseEnd dt c => exact .of_next e ((he dt).of_subscriptions (State.pulseEnd_subscriptions _ c))
  | powerOn dt => exact .of_next e (State.freshnessLaw_beginRestart _ _)
  | powerSettled dt => exact .of_next e ((he dt).of_subscriptions (State.powerSettled_subscriptions _))
  | rstNLow dt => exact .of_next e (.ite _ (he dt) (State.freshnessLaw_beginRestart _ _))
  | rstNHigh dt => exact .of_next e ((he dt).of_subscriptions (State.rstNHigh_subscriptions _))
  | remoteRestartBegin dt => exact .of_next e (.ite _ (State.freshnessLaw_beginRestart _ _) (he dt))
  | bypassHoldExpiry dt straps => exact .of_next e ((he dt).of_subscriptions (State.bypassHoldExpiry_subscriptions _ straps))
  | lspTransactionStart dt command address words =>
    cases command with
    | none => exact .of_next e (he dt)
    | some x => exact .of_next e ((he dt).of_subscriptions (State.transactionStart_subscriptions _ x address words))
  | lspSelectRelease dt words =>
    exact .of_next e ((he dt).of_subscriptions (State.endTransaction_subscriptions ((s.elapse dt).clockWords words)))
  | publishWindowWrite dt p w value => exact .of_next e ((he dt).of_subscriptions (State.lspWrite_subscriptions _ _ rfl))
  | bankControlWrite dt b value => exact .of_next e ((he dt).of_subscriptions (State.lspWrite_subscriptions _ _ rfl))
  | mailboxWrite dt m w value =>
    exact .of_next e ((he dt).of_subscriptions (State.lspWrite_subscriptions _ _ (State.writeMessage_subscriptions _ m w value)))
  | attentionMaskWrite dt value => exact .of_next e ((he dt).of_subscriptions (State.lspWrite_subscriptions _ _ rfl))
  | lspIgnoredWrite dt address => exact .of_next e ((he dt).of_subscriptions (State.lspWrite_subscriptions _ _ rfl))
  | take dt o => exact .of_next e ((he dt).acts fun t => t.takeAction_subscriptions o)
  | post dt o => exact .of_next e ((he dt).acts fun t => t.postAction_subscriptions o)
  | send dt o => exact .of_next e ((he dt).acts fun t => t.sendAction_subscriptions o)
  | cancel dt o => exact .of_next e ((he dt).acts fun t => t.cancelAction_subscriptions o)
  | clear dt o => exact .of_next e ((he dt).acts fun t => t.clearAction_subscriptions o)
  | release dt => exact .of_next e ((he dt).acts State.releaseAction_subscriptions)
  | popStamp dt => exact .of_next e ((he dt).acts State.popAction_subscriptions)
  | clearCauses dt o => exact .of_next e ((he dt).acts (act := fun t => t.clearCausesAction o) fun _ => rfl)
  | localRestart dt => exact .of_next e ((he dt).localAction fun _ _ => State.freshnessLaw_beginRestart _ _)
  | badAction dt code => exact .of_next e ((he dt).acts (act := fun t => t.reported .badAction) fun _ => rfl)
  | identify dt src tag => exact exec_requestRow_keepsFreshness .identify dt src tag h e
  | readStatus dt src tag => exact exec_requestRow_keepsFreshness .readStatus dt src tag h e
  | readCounters dt src tag g => exact exec_requestRow_keepsFreshness (.readCounters g) dt src tag h e
  | clearCounters dt src tag g => exact exec_requestRow_keepsFreshness (.clearCounters g) dt src tag h e
  | readCensus dt src tag x n => exact exec_requestRow_keepsFreshness (.readCensus x n) dt src tag h e
  | readSubscriptionState dt src tag x n => exact exec_requestRow_keepsFreshness (.readSubscriptionState x n) dt src tag h e
  | readEntry dt src tag x y i => exact exec_requestRow_keepsFreshness (.readEntry x y i) dt src tag h e
  | openEdit dt src tag id => exact exec_requestRow_keepsFreshness (.openEdit id) dt src tag h e
  | stageEntry dt src tag x i y => exact exec_requestRow_keepsFreshness (.stageEntry x i y) dt src tag h e
  | clearStaged dt src tag x => exact exec_requestRow_keepsFreshness (.clearStaged x) dt src tag h e
  | commit dt src tag m x => exact exec_requestRow_keepsFreshness (.commit m x) dt src tag h e
  | abandonEdit dt src tag => exact exec_requestRow_keepsFreshness .abandonEdit dt src tag h e
  | queryEdit dt src tag => exact exec_requestRow_keepsFreshness .queryEdit dt src tag h e
  | halt dt src tag => exact exec_requestRow_keepsFreshness .halt dt src tag h e
  | resume dt src tag => exact exec_requestRow_keepsFreshness .resume dt src tag h e
  | returnWrap dt src tag p => exact exec_requestRow_keepsFreshness (.returnWrap p) dt src tag h e
  | pulse dt src tag c => exact exec_requestRow_keepsFreshness (.pulse c) dt src tag h e
  | restart dt src tag => exact exec_requestRow_keepsFreshness .restart dt src tag h e
  | segmentTestStart dt src tag p n => exact exec_requestRow_keepsFreshness (.segmentTestStart p n) dt src tag h e
  | segmentTestResult dt src tag => exact exec_requestRow_keepsFreshness .segmentTestResult dt src tag h e
  | badCommand dt src tag payload =>
    exact .of_next e ((he dt).of_subscriptions (State.deliver_subscriptions (fun _ => rfl) _ src tag _))
  | frameBeginsToArrive dt p lead => exact .of_next e ((he dt).of_subscriptions (State.frameBegins_subscriptions _ p lead))

/-- Settles O9: the law survives the command at the front of the queue, whichever it is. -/
theorem stepKeepsFreshnessLaw : Obligations.StepKeepsFreshnessLaw := by
  intro s t h e
  unfold step at e
  split at e
  · exact .of_next e h
  · rename_i rest _
    exact exec_keepsFreshness _ (State.FreshnessLaw.of_subscriptions (t := { s with pending := rest }) h rfl) e

end Sys2Proof.Machine
end


section
/-! PROOFS. Which entries of a BLOCK are fresh this cycle (R46), by the write maps as the frame leaves the publish unit (R76). -/

namespace Sys2Proof.Machine

/-! ### The flags of the write maps -/

/-- The tap's own flag joins those of this cycle where the publish unit writes into the BLOCK (R76). -/
theorem State.published_thisMap (s : State) (f : BlockFrame) (w : List SegWrite) {i : Nat} (hi : i < 64) :
    (s.published f w).thisMap.getLsbD i = true ↔ f.thisMap.getLsbD i = true ∨ i = s.rst.station.toNat ∧ w ≠ [] := by
  unfold State.published
  cases w with
  | nil => simp
  | cons x w =>
    have hown : (1#64 <<< s.rst.station.toNat).getLsbD i = true ↔ i = s.rst.station.toNat := by
      rw [BitVec.getLsbD_shiftLeft, BitVec.getLsbD_one]
      simp only [hi, Nat.zero_lt_succ, decide_true, Bool.true_and, Bool.and_eq_true, Bool.not_eq_true', decide_eq_true_eq,
        decide_eq_false_iff_not]
      omega
    simp only [List.isEmpty_cons, Bool.false_eq_true, if_false, BlockFrame.written, BitVec.getLsbD_or, Bool.or_eq_true, hown, ne_eq,
      reduceCtorEq, not_false_eq_true, and_true]

/-- The last cycle's flags leave as they came (R76). -/
theorem State.published_lastMap (s : State) (f : BlockFrame) (w : List SegWrite) : (s.published f w).lastMap = f.lastMap := by
  unfold State.published
  split <;> rfl

/-- A word is not zero where some bit of it is set. -/
theorem bitVec_ne_zero_iff {n : Nat} (x : BitVec n) : x ≠ 0 ↔ ∃ i : Fin n, x.getLsbD i.val = true := by
  constructor
  · intro h
    by_contra hnone
    refine h (BitVec.eq_of_getLsbD_eq fun i hi => ?_)
    have hbit : x.getLsbD i = false := Bool.eq_false_iff.mpr fun hset => hnone ⟨⟨i, hi⟩, hset⟩
    rw [hbit]
    simp
  · rintro ⟨i, hi⟩ rfl
    simp at hi

/-- A publisher that is a station: its flag in either map (R46). -/
theorem freshIn_station (f : BlockFrame) {x : Station} (h : x.toNat ≤ 62) :
    freshIn f x = true ↔ f.thisMap.getLsbD x.toNat = true ∨ f.lastMap.getLsbD x.toNat = true := by
  have hx : x ≠ 63#6 := by
    rintro rfl
    simp at h
  simp [freshIn, hx]

/-- The publisher ANY: some flag in either map (R46). -/
theorem freshIn_any (f : BlockFrame) {x : Station} (h : x.toNat = 63) :
    freshIn f x = true ↔ ∃ i : Fin 64, f.thisMap.getLsbD i.val = true ∨ f.lastMap.getLsbD i.val = true := by
  have hx : x = 63#6 := BitVec.eq_of_toNat_eq h
  simp only [freshIn, hx, if_true, decide_eq_true_eq, bitVec_ne_zero_iff, BitVec.getLsbD_or, Bool.or_eq_true]

/-! ### The end of a frame leaves the records -/

/-- A frame whose check is not bad takes no port down, so its leaving closes no train (R137). -/
theorem State.frameEnds_subs {f : Frame} {fcs : Option Fcs} (h : f.outcome fcs ≠ .bad) (s : State) (dt : Nat) (p : Port) (g : Frame)
    (out : Option Port) (written : Bool) : (s.frameEnds dt p f g fcs out written).subs = s.subs := by
  have leaves (t : State) (x : SentContent) (w r : Bool) : (t.leaves out x w r).subs = t.subs := by
    unfold State.leaves
    split
    · rfl
    · split
      · exact State.modUnit_subs t _ _
      · rfl
  unfold State.frameEnds
  dsimp only
  rw [decide_eq_false h, State.windowAdd_good, State.modUnit_subs, leaves, State.modUnit_subs]

/-! ### What is decided of a BLOCK at its expected position -/

theorem State.decides_block {s : State} {p : Port} {n : Byte} (hrec : s.trk.record = .inTrain p)
    (hex : s.trk.expected = some (.block n.toNat)) (honline : s.ctl.tapState = .online) :
    (s.decides p (.block n)).capture = true ∧ (s.decides p (.block n)).writes = s.publishWrites n := by
  simp [State.decides, hrec, hex, honline]

/-- Settles O18. The records a good BLOCK leaves are O16's; one that proves stomped takes the expected frame's place, by O19. -/
theorem freshnessFromWriteMaps : Obligations.FreshnessFromWriteMaps := by
  intro dt p f s hlistens _ hrec hex honline own
  have hm : s.meets p (.block f.number) (s.decides p (.block f.number)) := State.meets_of_listens hlistens (.inl (by simp))
  obtain ⟨hcapture, hwrites⟩ := State.decides_block hrec hex honline
  obtain ⟨captures, -⟩ := expectedBlockIsPublishedAndCaptured
  obtain ⟨subs, rx, hgood, hsubs, -⟩ := captures dt p f _ s hm hrec hex hcapture
  obtain ⟨stomps, -⟩ := defectsInsideATrain dt p (some (~~~(Frame.check (.block f)))) _ s hrec
  obtain ⟨hstomped, -⟩ := stomps f hm (by simp)
  rw [hwrites] at hsubs
  refine ⟨⟨_, hgood, fun e => ?_⟩, ⟨_, hstomped _ hex, State.frameEnds_subs (by simp) _ _ _ _ _ _⟩⟩
  intro x
  rw [State.frameEnds_subs (by simp), hsubs e]
  refine ⟨fun hon => ?_, fun hoff => if_neg hoff⟩
  rw [if_pos hon]
  refine ⟨rfl, fun hstation => ?_, fun hany => ?_⟩
  · show freshIn _ x.publisher = true ↔ _
    rw [freshIn_station _ hstation, State.published_thisMap s f _ (by omega), State.published_lastMap]
    exact or_right_comm.trans or_assoc
  · show freshIn _ x.publisher = true ↔ _
    rw [freshIn_any _ hany, State.published_lastMap]
    refine exists_congr fun i => ?_
    rw [State.published_thisMap s f _ i.isLt]
    exact or_right_comm.trans or_assoc

end Sys2Proof.Machine
end


section
/-! PROOFS. The validation of COMMIT (R41, R74, R117): the first failure of a set, table by table and in rising index. -/

namespace Sys2Proof.Machine

/-! ### A search in rising index -/

/-- The search stops at the first place that gives something. -/
theorem findSome?_finRange_first {α : Type} {n : Nat} {f : Fin n → Option α} {i : Fin n} {x : α} (hi : f i = some x)
    (hlower : ∀ j, j < i → f j = none) : (List.finRange n).findSome? f = some x := by
  induction n with
  | zero => exact i.elim0
  | succ n ih =>
    rw [List.finRange_succ, List.findSome?_cons]
    cases i using Fin.cases with
    | zero => rw [hi]
    | succ i =>
      rw [hlower 0 (Fin.succ_pos i), List.findSome?_map]
      exact ih hi fun j hj => hlower j.succ (Fin.succ_lt_succ_iff.mpr hj)

theorem findSome?_finRange_none {α : Type} {n : Nat} {f : Fin n → Option α} (h : ∀ i, f i = none) :
    (List.finRange n).findSome? f = none :=
  List.findSome?_eq_none_iff.mpr fun i _ => h i

/-! ### The subscription and the publish table -/

/-- The failure of one entry, its fit before its overlaps with lower entries (R41, R74). -/
def entryFailure (tab : Table) (valid fits overlapping : Bool) (i : Nat) : Option Invalid :=
  if !valid then none
  else if !fits then some ⟨tab, i, doesNotFit⟩
  else if overlapping then some ⟨tab, i, overlaps⟩
  else none

theorem TableSet.invalidSub_eq (t : TableSet) :
    t.invalidSub = (List.finRange 32).findSome? fun i => entryFailure .subscription t.subs[i].valid t.subs[i].fits
      ((List.finRange 32).any fun j => decide (j < i) && t.subs[j].valid && t.subs[i].shares t.subs[j]) i.val := rfl

theorem TableSet.invalidPub_eq (t : TableSet) :
    t.invalidPub = (List.finRange 16).findSome? fun i => entryFailure .publish t.pubs[i].valid t.pubs[i].fits
      ((List.finRange 16).any fun j => decide (j < i) && t.pubs[j].valid && t.pubs[i].shares t.pubs[j]) i.val := rfl

section
variable {n : Nat} {tab : Table} {valid fits overlapping : Fin n → Bool} {Fits Meets : Fin n → Prop}
  (hfits : ∀ i, fits i = true ↔ Fits i) (hmeets : ∀ i, overlapping i = true ↔ Meets i)

include hfits hmeets

/-- An entry fails nothing where it is not valid, or fits and meets no lower one. -/
theorem entryFailure_none {i : Fin n} (h : valid i = true → Fits i ∧ ¬Meets i) :
    entryFailure tab (valid i) (fits i) (overlapping i) i.val = none := by
  unfold entryFailure
  cases hv : valid i with
  | false => rfl
  | true =>
    obtain ⟨hfit, hmeet⟩ := h hv
    rw [(hfits i).mpr hfit, Bool.eq_false_iff.mpr (mt (hmeets i).mp hmeet)]
    rfl

/-- The first failure of a table, where every lower entry fails nothing (R117). -/
theorem findSome?_entryFailure {i : Fin n} (hlower : ∀ j, j < i → valid j = true → Fits j ∧ ¬Meets j) (hv : valid i = true) :
    let found := (List.finRange n).findSome? fun i => entryFailure tab (valid i) (fits i) (overlapping i) i.val
    (¬Fits i → found = some ⟨tab, i.val, 1⟩) ∧ (Fits i → Meets i → found = some ⟨tab, i.val, 2⟩) := by
  have first {x : Invalid} (hx : entryFailure tab (valid i) (fits i) (overlapping i) i.val = some x) :
      ((List.finRange n).findSome? fun i => entryFailure tab (valid i) (fits i) (overlapping i) i.val) = some x :=
    findSome?_finRange_first hx fun j hj => entryFailure_none hfits hmeets (hlower j hj)
  refine ⟨fun hfit => first ?_, fun hfit hmeet => first ?_⟩
  · rw [hv, Bool.eq_false_iff.mpr (mt (hfits i).mp hfit)]
    rfl
  · rw [hv, (hfits i).mpr hfit, (hmeets i).mpr hmeet]
    rfl

/-- A table all of whose entries fail nothing. -/
theorem findSome?_entryFailure_none (h : ∀ i, valid i = true → Fits i ∧ ¬Meets i) :
    ((List.finRange n).findSome? fun i => entryFailure tab (valid i) (fits i) (overlapping i) i.val) = none :=
  findSome?_finRange_none fun i => entryFailure_none hfits hmeets (h i)

end

/-- Two runs that are not empty meet where some number lies in both. -/
theorem meets_iff {a n b m : Nat} (hn : 1 ≤ n) (hm : 1 ≤ m) :
    meets a n b m = true ↔ ∃ w, (b ≤ w ∧ w < b + m) ∧ a ≤ w ∧ w < a + n := by
  rw [meets, Bool.and_eq_true_iff, decide_eq_true_iff, decide_eq_true_iff]
  constructor
  · rintro ⟨hab, hba⟩
    exact ⟨max a b, by omega, by omega⟩
  · rintro ⟨w, hb, ha⟩
    omega

/-- Two entries of one bank that have a word in common (R41). -/
theorem SubEntry.shares_iff {e d : SubEntry} (he : e.inRange) (hd : d.inRange) :
    e.shares d = true ↔ d.bank = e.bank ∧
      ∃ w, (8 * d.slot.val ≤ w ∧ w < 8 * d.slot.val + 8 * d.count.val) ∧
        8 * e.slot.val ≤ w ∧ w < 8 * e.slot.val + 8 * e.count.val := by
  obtain ⟨he, -⟩ := he
  obtain ⟨hd, -⟩ := hd
  rw [SubEntry.shares, Bool.and_eq_true_iff, decide_eq_true_iff, meets_iff (by omega) (by omega), eq_comm]

/-- Two entries of one block that have a segment in common (R74). -/
theorem PubEntry.shares_iff {e d : PubEntry} (he : e.inRange) (hd : d.inRange) :
    e.shares d = true ↔ d.block = e.block ∧
      ∃ x, (d.first.val ≤ x ∧ x < d.first.val + d.count.val) ∧ e.first.val ≤ x ∧ x < e.first.val + e.count.val := by
  obtain ⟨he, -⟩ := he
  obtain ⟨hd, -⟩ := hd
  rw [PubEntry.shares, Bool.and_eq_true_iff, decide_eq_true_iff, meets_iff he hd, eq_comm]

/-- Some lower valid entry of a table shares with an entry. -/
theorem any_lower_iff {n : Nat} {i : Fin n} {valid shares : Fin n → Bool} :
    ((List.finRange n).any fun j => decide (j < i) && valid j && shares j) = true ↔
      ∃ j, j < i ∧ valid j = true ∧ shares j = true := by
  simp [List.any_eq_true, and_assoc]

/-! ### The users and the managers -/

/-- A pin that is an output while a channel is sourced from it as an input (R117). -/
def TableSet.pinFails (t : TableSet) (k : Fin 8) : Prop := t.users[trigUser k] ≠ none ∧ ∃ c : Fin 12, t.channels[c] = .triggerIn k

theorem TableSet.pinCheck_iff (t : TableSet) (k : Fin 8) :
    (t.users[k.val].isSome && t.channels.toList.any fun x => decide (x = .triggerIn k)) = true ↔ t.pinFails k := by
  rw [TableSet.pinFails, Bool.and_eq_true_iff, Option.isSome_iff_ne_none, List.any_eq_true]
  refine and_congr_right' ⟨?_, ?_⟩
  · rintro ⟨x, hx, hk⟩
    obtain ⟨i, hi, rfl⟩ := Vector.mem_iff_getElem.mp (Vector.mem_toList_iff.mp hx)
    exact ⟨⟨i, hi⟩, of_decide_eq_true hk⟩
  · rintro ⟨c, hc⟩
    exact ⟨_, Vector.mem_toList_iff.mpr (Vector.getElem_mem c.isLt), decide_eq_true hc⟩

theorem TableSet.invalidUser_first {t : TableSet} {k : Fin 8} (hlower : ∀ j, j < k → ¬t.pinFails j) (hk : t.pinFails k) :
    t.invalidUser = some ⟨.user, k.val, 3⟩ :=
  findSome?_finRange_first (if_pos ((t.pinCheck_iff k).mpr hk)) fun j hj => if_neg (mt (t.pinCheck_iff j).mp (hlower j hj))

theorem TableSet.invalidUser_none {t : TableSet} (h : ∀ k, ¬t.pinFails k) : t.invalidUser = none :=
  findSome?_finRange_none fun k => if_neg (mt (t.pinCheck_iff k).mp (h k))

/-- A manager set without a station fails (R105, R117). -/
theorem TableSet.invalidManager_eq (t : TableSet) :
    ((∃ m : Fin 4, t.managers[m] ≠ none) → t.invalidManager = none) ∧
      ((¬∃ m : Fin 4, t.managers[m] ≠ none) → t.invalidManager = some ⟨.manager, 0, 4⟩) := by
  have hany : t.managers.toList.any Option.isSome = true ↔ ∃ m : Fin 4, t.managers[m] ≠ none := by
    rw [List.any_eq_true]
    constructor
    · rintro ⟨x, hx, hsome⟩
      obtain ⟨i, hi, rfl⟩ := Vector.mem_iff_getElem.mp (Vector.mem_toList_iff.mp hx)
      exact ⟨⟨i, hi⟩, Option.isSome_iff_ne_none.mp hsome⟩
    · rintro ⟨m, hm⟩
      exact ⟨_, Vector.mem_toList_iff.mpr (Vector.getElem_mem m.isLt), Option.isSome_iff_ne_none.mpr hm⟩
  exact ⟨fun h => if_pos (hany.mpr h), fun h => if_neg (mt hany.mp h)⟩

/-! ### Table by table -/

theorem TableSet.firstInvalid_sub {t : TableSet} {x : Invalid} (h : t.invalidSub = some x) : t.firstInvalid = some x := by
  rw [TableSet.firstInvalid, h]
  rfl

theorem TableSet.firstInvalid_pub {t : TableSet} {x : Invalid} (hsub : t.invalidSub = none) (h : t.invalidPub = some x) :
    t.firstInvalid = some x := by
  rw [TableSet.firstInvalid, hsub, h]
  rfl

theorem TableSet.firstInvalid_user {t : TableSet} {x : Invalid} (hsub : t.invalidSub = none) (hpub : t.invalidPub = none)
    (h : t.invalidUser = some x) : t.firstInvalid = some x := by
  rw [TableSet.firstInvalid, hsub, hpub, h]
  rfl

theorem TableSet.firstInvalid_manager {t : TableSet} (hsub : t.invalidSub = none) (hpub : t.invalidPub = none)
    (huser : t.invalidUser = none) : t.firstInvalid = t.invalidManager := by
  rw [TableSet.firstInvalid, hsub, hpub, huser]
  rfl

/-- Settles O57. -/
theorem commitValidation : Obligations.CommitValidation := by
  intro t hsubs hpubs word subFits subMeets subOk segment pubFits pubMeets pubOk pinOk managed
  have hsubFits (i : Fin 32) : t.subs[i].fits = true ↔ subFits i := decide_eq_true_iff
  have hpubFits (i : Fin 16) : t.pubs[i].fits = true ↔ pubFits i := decide_eq_true_iff
  have hsubMeets (i : Fin 32) :
      ((List.finRange 32).any fun j => decide (j < i) && t.subs[j].valid && t.subs[i].shares t.subs[j]) = true ↔ subMeets i := by
    rw [any_lower_iff]
    exact exists_congr fun j => and_congr_right' (and_congr_right' (SubEntry.shares_iff (hsubs i) (hsubs j)))
  have hpubMeets (i : Fin 16) :
      ((List.finRange 16).any fun j => decide (j < i) && t.pubs[j].valid && t.pubs[i].shares t.pubs[j]) = true ↔ pubMeets i := by
    rw [any_lower_iff]
    exact exists_congr fun j => and_congr_right' (and_congr_right' (PubEntry.shares_iff (hpubs i) (hpubs j)))
  have hpin (k : Fin 8) : ¬t.pinFails k ↔ pinOk k := not_and.trans (forall_congr' fun _ => not_exists)
  have subsPass (h : ∀ i, subOk i) : t.invalidSub = none := findSome?_entryFailure_none hsubFits hsubMeets h
  have pubsPass (h : ∀ i, pubOk i) : t.invalidPub = none := findSome?_entryFailure_none hpubFits hpubMeets h
  refine ⟨fun i hlower hv => ?_, fun hs i hlower hv => ?_, fun hs hp k hlower hk => ?_, fun hs hp hk => ?_⟩
  · obtain ⟨hfit, hmeet⟩ := findSome?_entryFailure (tab := .subscription) hsubFits hsubMeets hlower hv
    exact ⟨fun h => TableSet.firstInvalid_sub (hfit h), fun h h' => TableSet.firstInvalid_sub (hmeet h h')⟩
  · obtain ⟨hfit, hmeet⟩ := findSome?_entryFailure (tab := .publish) hpubFits hpubMeets hlower hv
    exact ⟨fun h => TableSet.firstInvalid_pub (subsPass hs) (hfit h),
      fun h h' => TableSet.firstInvalid_pub (subsPass hs) (hmeet h h')⟩
  · exact TableSet.firstInvalid_user (subsPass hs) (pubsPass hp)
      (TableSet.invalidUser_first (fun j hj => (hpin j).mpr (hlower j hj)) (not_not.mp (mt (hpin k).mp hk)))
  · rw [TableSet.firstInvalid_manager (subsPass hs) (pubsPass hp) (TableSet.invalidUser_none fun k => (hpin k).mpr (hk k))]
    exact t.invalidManager_eq.symm

end Sys2Proof.Machine
end


section
/-! PROOFS. The eight bytes of a table entry (12.2): which spell an entry, and what that entry holds (R40, R73, R105, R115). -/

namespace Sys2Proof.Machine

/-! ### One field -/

/-- A number below `n`. -/
theorem below_eq_some_iff {n : Nat} [NeZero n] {b : Byte} {i : Fin n} : below n b = some i ↔ i.val = b.toNat := by
  unfold below
  constructor
  · split
    · rename_i h
      rintro ⟨⟩
      exact Nat.mod_eq_of_lt h
    · exact fun h => nomatch h
  · intro h
    rw [if_pos (h ▸ i.isLt), Option.some_inj]
    exact Fin.ext ((Nat.mod_eq_of_lt (h ▸ i.isLt)).trans h.symm)

/-- A bank offset names its slot. -/
theorem slotOf_eq_some_iff {b : Byte} {k : Fin 16} : slotOf b = some k ↔ 8 * k.val = b.toNat := by
  unfold slotOf
  constructor
  · split
    · rename_i h
      rintro ⟨⟩
      show 8 * (b.toNat / 8 % 16) = _
      omega
    · exact fun h => nomatch h
  · intro h
    rw [if_pos (by omega), Option.some_inj]
    refine Fin.ext ?_
    show b.toNat / 8 % 16 = _
    omega

/-- A first segment and a count within a block of four segments. -/
theorem rangeOf_eq_some_iff {first count : Byte} {x : Fin 4} {n : Fin 5} :
    rangeOf first count = some (x, n) ↔ (x.val = first.toNat ∧ n.val = count.toNat) ∧ 1 ≤ n.val ∧ x.val + n.val ≤ 4 := by
  unfold rangeOf
  constructor
  · split
    · rename_i h
      rintro ⟨⟩
      have hx : (Fin.ofNat 4 first.toNat).val = first.toNat := Nat.mod_eq_of_lt (by omega)
      have hn : (Fin.ofNat 5 count.toNat).val = count.toNat := Nat.mod_eq_of_lt (by omega)
      rw [hx, hn]
      exact ⟨⟨rfl, rfl⟩, h.2⟩
    · exact fun h => nomatch h
  · rintro ⟨⟨hx, hn⟩, hone, hsum⟩
    rw [if_pos (by omega), ← hx, ← hn, Fin.ofNat_val_eq_self, Fin.ofNat_val_eq_self]

/-- A byte of two values, 0 and 1: a mode, a policy, an order. -/
theorem twoValued_eq {α : Type} (x y : α) (b : Byte) :
    (if b = 0 then some x else if b = 1 then some y else none) =
      if b.toNat ≤ 1 then some (if b.toNat = 0 then x else y) else none := by
  have hzero : b = 0 ↔ b.toNat = 0 := BitVec.toNat_eq
  have hone : b = 1 ↔ b.toNat = 1 := BitVec.toNat_eq
  simp only [hzero, hone]
  by_cases h0 : b.toNat = 0
  · rw [if_pos h0, if_pos (by omega), if_pos h0]
  · by_cases h1 : b.toNat = 1
    · rw [if_neg h0, if_pos h1, if_pos (by omega), if_neg h0]
    · rw [if_neg h0, if_neg h1, if_neg (by omega)]

/-- A number below `n`, or FFh for none. -/
theorem optionOf_eq (n : Nat) [NeZero n] (b : Byte) :
    optionOf n b =
      if b.toNat < n ∨ b.toNat = 255 then some (if b.toNat = 255 then none else some (Fin.ofNat n b.toNat)) else none := by
  have hff : b = 255 ↔ b.toNat = 255 := BitVec.toNat_eq
  unfold optionOf below
  simp only [hff]
  by_cases h : b.toNat = 255
  · rw [if_pos h, if_pos (.inr h), if_pos h]
  · by_cases hlt : b.toNat < n
    · rw [if_neg h, if_pos hlt, if_pos (.inl hlt), if_neg h]
      rfl
    · rw [if_neg h, if_neg hlt, if_neg (by omega)]
      rfl

/-! ### An entry of each table -/

/-- The bytes hold the subscription entry's fields in the order of 12.2. -/
def SubEntry.heldIn (x : SubEntry) (v : Vector Byte 8) : Prop :=
  x.valid = v[0].getLsbD 0 ∧ x.block.val = v[1].toNat ∧ x.first.val = v[2].toNat ∧ x.count.val = v[3].toNat ∧
    x.publisher.toNat = v[4].toNat ∧ x.bank.val = v[5].toNat ∧ 8 * x.slot.val = v[6].toNat ∧ x.ageLimit = v[7]

/-- The field checks of R40 pass exactly those bytes that hold an entry within the ranges of R40. -/
theorem decodeSub_eq_some_iff {v : Vector Byte 8} {x : SubEntry} : decodeSub v = some x ↔ x.heldIn v ∧ x.inRange := by
  unfold decodeSub
  constructor
  · split
    · rename_i block first count publisher bank slot hblock hrange hpublisher hbank hslot
      obtain ⟨⟨hfirst, hcount⟩, hone, hsum⟩ := rangeOf_eq_some_iff.mp hrange
      split
      · exact fun h => nomatch h
      · rename_i hage
        rintro ⟨⟩
        refine ⟨⟨rfl, below_eq_some_iff.mp hblock, hfirst, hcount, ?_, below_eq_some_iff.mp hbank, slotOf_eq_some_iff.mp hslot, rfl⟩,
          hone, hsum, not_or.mp hage⟩
        rw [← below_eq_some_iff.mp hpublisher]
        exact Nat.mod_eq_of_lt publisher.isLt
    · exact fun h => nomatch h
  · rintro ⟨⟨hvalid, hblock, hfirst, hcount, hpublisher, hbank, hslot, hage⟩, hone, hsum, hlimit⟩
    rw [below_eq_some_iff.mpr hblock, rangeOf_eq_some_iff.mpr ⟨⟨hfirst, hcount⟩, hone, hsum⟩,
      below_eq_some_iff.mpr (show x.publisher.toFin.val = _ from hpublisher), below_eq_some_iff.mpr hbank, slotOf_eq_some_iff.mpr hslot, ← hvalid, ← hage]
    exact (if_neg (not_or.mpr hlimit)).trans (by rw [BitVec.val_toFin, BitVec.ofNat_toNat, BitVec.setWidth_eq])

/-- Which bytes hold a subscription entry within the ranges of R40. -/
theorem SubEntry.heldIn_ranges (v : Vector Byte 8) :
    (v[1].toNat < 64 ∧ v[2].toNat ≤ 3 ∧ 1 ≤ v[3].toNat ∧ v[2].toNat + v[3].toNat ≤ 4 ∧ v[4].toNat < 64 ∧ v[5].toNat < 8 ∧
        v[6].toNat % 8 = 0 ∧ v[6].toNat ≤ 120 ∧ v[7].toNat ≠ 0 ∧ v[7].toNat ≠ 255) ↔
      ∃ x : SubEntry, x.heldIn v ∧ x.inRange := by
  constructor
  · rintro ⟨h1, h2, h3, hsum, h4, h5, h6, hmax, hzero, hff⟩
    refine ⟨⟨v[0].getLsbD 0, ⟨v[1].toNat, h1⟩, ⟨v[2].toNat, by omega⟩, ⟨v[3].toNat, by omega⟩, BitVec.ofNat 6 v[4].toNat,
      ⟨v[5].toNat, h5⟩, ⟨v[6].toNat / 8, by omega⟩, v[7]⟩, ⟨rfl, rfl, rfl, rfl, Nat.mod_eq_of_lt h4, rfl, ?_, rfl⟩, h3, hsum, ?_, ?_⟩
    · show 8 * (v[6].toNat / 8) = v[6].toNat
      omega
    · exact fun h => hzero (congrArg BitVec.toNat h)
    · exact fun h => hff (congrArg BitVec.toNat h)
  · rintro ⟨x, ⟨-, hblock, hfirst, hcount, hpublisher, hbank, hslot, hage⟩, hone, hsum, hzero, hff⟩
    rw [hage] at hzero hff
    refine ⟨by omega, by omega, by omega, by omega, by omega, by omega, by omega, by omega, fun h => hzero ?_, fun h => hff ?_⟩
    · exact BitVec.eq_of_toNat_eq h
    · exact BitVec.eq_of_toNat_eq h

/-- The bytes hold the publish entry's fields in the order of 12.2. -/
def PubEntry.heldIn (x : PubEntry) (v : Vector Byte 8) : Prop :=
  x.valid = v[0].getLsbD 0 ∧ x.block.val = v[1].toNat ∧ x.first.val = v[2].toNat ∧ x.count.val = v[3].toNat ∧
    x.bank.val = v[4].toNat ∧ 8 * x.slot.val = v[5].toNat ∧ v[6].toNat ≤ 1 ∧
    x.mode = if v[6].toNat = 0 then .continuous else .onPost

/-- The field checks of R73 pass exactly those bytes that hold an entry within the ranges of R73. -/
theorem decodePub_eq_some_iff {v : Vector Byte 8} {x : PubEntry} : decodePub v = some x ↔ x.heldIn v ∧ x.inRange := by
  have hmodeOf := twoValued_eq PublishMode.continuous PublishMode.onPost v[6]
  unfold decodePub modeOf
  rw [hmodeOf]
  constructor
  · split
    · rename_i block first count bank slot mode hblock hrange hbank hslot hmode
      obtain ⟨⟨hfirst, hcount⟩, hone, hsum⟩ := rangeOf_eq_some_iff.mp hrange
      obtain ⟨hle, hmode⟩ := Option.ite_none_right_eq_some.mp hmode
      rintro ⟨⟩
      exact ⟨⟨rfl, below_eq_some_iff.mp hblock, hfirst, hcount, below_eq_some_iff.mp hbank, slotOf_eq_some_iff.mp hslot, hle,
        (Option.some_inj.mp hmode).symm⟩, hone, hsum⟩
    · exact fun h => nomatch h
  · rintro ⟨⟨hvalid, hblock, hfirst, hcount, hbank, hslot, hle, hmode⟩, hone, hsum⟩
    rw [below_eq_some_iff.mpr hblock, rangeOf_eq_some_iff.mpr ⟨⟨hfirst, hcount⟩, hone, hsum⟩, below_eq_some_iff.mpr hbank,
      slotOf_eq_some_iff.mpr hslot, if_pos hle, ← hvalid, ← hmode]

/-- Which bytes hold a publish entry within the ranges of R73. -/
theorem PubEntry.heldIn_ranges (v : Vector Byte 8) :
    (v[1].toNat < 64 ∧ v[2].toNat ≤ 3 ∧ 1 ≤ v[3].toNat ∧ v[2].toNat + v[3].toNat ≤ 4 ∧ v[4].toNat < 4 ∧ v[5].toNat % 8 = 0 ∧
        v[5].toNat ≤ 120 ∧ v[6].toNat ≤ 1) ↔
      ∃ x : PubEntry, x.heldIn v ∧ x.inRange := by
  constructor
  · rintro ⟨h1, h2, h3, hsum, h4, h5, hmax, h6⟩
    refine ⟨⟨v[0].getLsbD 0, ⟨v[1].toNat, h1⟩, ⟨v[2].toNat, by omega⟩, ⟨v[3].toNat, by omega⟩, ⟨v[4].toNat, h4⟩,
      ⟨v[5].toNat / 8, by omega⟩, if v[6].toNat = 0 then .continuous else .onPost⟩, ⟨rfl, rfl, rfl, rfl, rfl, ?_, h6, rfl⟩, h3, hsum⟩
    show 8 * (v[5].toNat / 8) = v[5].toNat
    omega
  · rintro ⟨x, ⟨-, hblock, hfirst, hcount, hbank, hslot, hle, -⟩, hone, hsum⟩
    exact ⟨by omega, by omega, by omega, by omega, by omega, by omega, by omega, hle⟩

/-- The ranges of the seven parameters, and the parameters held (R105). -/
theorem decodeParams_eq (v : Vector Byte 8) :
    decodeParams v =
      if v[0].toNat ≤ 1 ∧ 1 ≤ v[1].toNat ∧ 1 ≤ v[2].toNat ∧ 1 ≤ v[3].toNat ∧ v[3].toNat ≤ 4 ∧ v[4].toNat ≤ 1 ∧
          (v[5].toNat < 8 ∨ v[5].toNat = 255) ∧ 1 ≤ v[6].toNat ∧ v[6].toNat ≤ 15 then
        some ⟨if v[0].toNat = 0 then .auto else .manual, v[1], v[2], v[3], if v[4].toNat = 0 then .fixed else .rotating,
          if v[5].toNat = 255 then none else some (Fin.ofNat 8 v[5].toNat), v[6]⟩
      else none := by
  unfold decodeParams policyOf orderOf
  rw [twoValued_eq, twoValued_eq, optionOf_eq]
  by_cases hpolicy : v[0].toNat ≤ 1
  · by_cases horder : v[4].toNat ≤ 1
    · by_cases hurgent : v[5].toNat < 8 ∨ v[5].toNat = 255
      · simp only [hpolicy, horder, hurgent, if_true, true_and]
      · simp [hurgent]
    · simp [horder]
  · simp [hpolicy]

/-! ### Which bytes spell an entry -/

/-- The eight bytes give an entry that is as said where `ok` holds, and none elsewhere. -/
def Spells (ok : Prop) (o : Option Entry) (is : Entry → Prop) : Prop := (ok → ∃ e, o = some e ∧ is e) ∧ (¬ok → o = none)

/-- A decoder that passes exactly the bytes some entry is held in. -/
theorem Spells.of_iff {α : Type} {o : Option α} {held : α → Prop} (h : ∀ x, o = some x ↔ held x) {ok : Prop} {wrap : α → Entry}
    {is : Entry → Prop} (hok : ok ↔ ∃ x, held x) (hheld : ∀ x, held x → is (wrap x)) : Spells ok (o.map wrap) is := by
  constructor
  · intro hk
    obtain ⟨x, hx⟩ := hok.mp hk
    exact ⟨wrap x, by rw [(h x).mpr hx]; rfl, hheld x hx⟩
  · intro hk
    cases ho : o with
    | none => rfl
    | some x => exact absurd (hok.mpr ⟨x, (h x).mp ho⟩) hk

/-- A decoder that is one test. -/
theorem Spells.of_ite {α : Type} {o : Option α} {ok : Prop} [Decidable ok] {x : α} (h : o = if ok then some x else none)
    (wrap : α → Entry) : Spells ok (o.map wrap) (fun e => e = wrap x) := by
  constructor
  · intro hk
    rw [h, if_pos hk]
    exact ⟨_, rfl, rfl⟩
  · intro hk
    rw [h, if_neg hk]
    rfl

/-- A kind of source without an operand. -/
theorem Spells.of_some {ok : Prop} (h : ok) (e : Entry) : Spells ok (some e) (fun x => x = e) :=
  ⟨fun _ => ⟨e, rfl, rfl⟩, fun hk => absurd h hk⟩

/-- A kind of source with an operand below `n`. -/
theorem Spells.of_operand {ok : Prop} {n : Nat} [NeZero n] {b : Byte} (h : ok ↔ b.toNat < n) (kind : Fin n → Source) :
    Spells ok (((below n b).map kind).map .channel) (fun e => e = .channel (kind (Fin.ofNat n b.toNat))) := by
  constructor
  · intro hk
    rw [below, if_pos (h.mp hk)]
    exact ⟨_, rfl, rfl⟩
  · intro hk
    rw [below, if_neg (mt h.mpr hk)]
    rfl

/-- Settles O54. -/
theorem entryFields : Obligations.EntryFields := by
  intro v n spells
  refine ⟨?_, ?_, ?_, ?_, ?_, ?_⟩
  · refine Spells.of_iff (fun _ => decodeSub_eq_some_iff) (SubEntry.heldIn_ranges v) ?_
    rintro x ⟨⟨hvalid, hblock, hfirst, hcount, hpublisher, hbank, hslot, hage⟩, -⟩
    exact ⟨x, rfl, hvalid, hblock, hfirst, hcount, hpublisher, hbank, hslot, congrArg BitVec.toNat hage⟩
  · refine Spells.of_iff (fun _ => decodePub_eq_some_iff) (PubEntry.heldIn_ranges v) ?_
    rintro x ⟨⟨hvalid, hblock, hfirst, hcount, hbank, hslot, -, hmode⟩, -⟩
    exact ⟨x, rfl, hvalid, hblock, hfirst, hcount, hbank, hslot, hmode⟩
  · show Spells _ ((decodeSource v).map .channel) _
    have hkind : v[0].toNat = n 0 := rfl
    have hoperand : v[1].toNat = n 1 := rfl
    unfold decodeSource
    rw [hkind]
    generalize n 0 = k
    match k with
    | 0 | 1 | 2 | 3 | 6 | 8 | 9 | 10 | 14 => exact Spells.of_some (by omega) _
    | 4 | 5 | 7 | 11 | 12 | 13 => exact Spells.of_operand (by omega) _
    | k + 15 =>
      refine ⟨fun h => ?_, fun _ => rfl⟩
      obtain ⟨hlt, -⟩ := h
      omega
  · exact Spells.of_ite (optionOf_eq _ v[0]) .user
  · exact Spells.of_ite (optionOf_eq _ v[0]) .manager
  · exact Spells.of_ite (decodeParams_eq v) .params

end Sys2Proof.Machine
end


section
/-! PROOFS. READ CENSUS, READ SUBSCRIPTION STATE and READ ENTRY (R54, R112, R113, R134): their checks, and the bytes of their records. -/

namespace Sys2Proof.Machine

/-! ### The checks of a run of places -/

section
variable {limit : Nat} {first count : Byte}

theorem runCheck_badFirst (h : limit ≤ first.toNat) : runCheck limit first count = some .badIndex := if_pos h

theorem runCheck_badCount (hfirst : first.toNat < limit) (h : count.toNat = 0 ∨ 8 < count.toNat) :
    runCheck limit first count = some .badField := by
  rw [runCheck, if_neg (by omega), if_pos h]

theorem runCheck_badSum (hfirst : first.toNat < limit) (hone : 1 ≤ count.toNat) (height : count.toNat ≤ 8)
    (h : limit < first.toNat + count.toNat) : runCheck limit first count = some .badIndex := by
  rw [runCheck, if_neg (by omega), if_neg (by omega), if_pos h]

theorem runCheck_passes (hone : 1 ≤ count.toNat) (height : count.toNat ≤ 8) (h : first.toNat + count.toNat ≤ limit) :
    runCheck limit first count = none := by
  rw [runCheck, if_neg (by omega), if_neg (by omega), if_neg (by omega)]

end

/-! ### READ CENSUS -/

/-- The eight bytes of a census record are words 0, 1, 3 and 5 of its mirror (R134, 12.3). -/
theorem State.shortForm_eq_words (s : State) {n : Nat} (h : n < 63) :
    s.roll.census[Fin.ofNat 63 n].shortForm =
      be16 (s.lspRead (BitVec.ofNat 16 (0x0104 + 6 * n))) ++ be16 (s.lspRead (BitVec.ofNat 16 (0x0104 + 6 * n + 1))) ++
        be16 (s.lspRead (BitVec.ofNat 16 (0x0104 + 6 * n + 3))) ++ be16 (s.lspRead (BitVec.ofNat 16 (0x0104 + 6 * n + 5))) := by
  have hrecord : s.roll.census[Fin.ofNat 63 n] = s.roll.census[(⟨n, h⟩ : Fin 63)] :=
    congrArg (fun k : Fin 63 => s.roll.census[k]) (Fin.ext (Nat.mod_eq_of_lt h))
  have hword (i : Fin 6) : s.lspRead (BitVec.ofNat 16 (0x0104 + 6 * n + i.val)) = s.roll.census[(⟨n, h⟩ : Fin 63)].wordAt i.val :=
    s.lspRead_census ⟨n, h⟩ i
  have h0 : s.lspRead (BitVec.ofNat 16 (0x0104 + 6 * n)) = s.roll.census[(⟨n, h⟩ : Fin 63)].wordAt 0 := hword 0
  have h1 : s.lspRead (BitVec.ofNat 16 (0x0104 + 6 * n + 1)) = s.roll.census[(⟨n, h⟩ : Fin 63)].wordAt 1 := hword 1
  have h3 : s.lspRead (BitVec.ofNat 16 (0x0104 + 6 * n + 3)) = s.roll.census[(⟨n, h⟩ : Fin 63)].wordAt 3 := hword 3
  have h5 : s.lspRead (BitVec.ofNat 16 (0x0104 + 6 * n + 5)) = s.roll.census[(⟨n, h⟩ : Fin 63)].wordAt 5 := hword 5
  rw [hrecord, h0, h1, h3, h5]
  rfl

/-- What READ CENSUS gives of a run within the stations, in words of the mirror (R112, R134). -/
theorem runReadCensus_words {first count : Byte} (h : runCheck 63 first count = none) (hsum : first.toNat + count.toNat ≤ 63)
    {s t : State} (hroll : t.roll = s.roll) :
    runReadCensus first count t =
      t.answer (be16 (s.lspRead 0x0100#16) ++ be16 (s.lspRead 0x0101#16) ++ be16 (s.lspRead 0x0102#16) ++
        (List.range count.toNat).flatMap fun i =>
          be16 (s.lspRead (BitVec.ofNat 16 (0x0104 + 6 * (first.toNat + i)))) ++
            be16 (s.lspRead (BitVec.ofNat 16 (0x0104 + 6 * (first.toNat + i) + 1))) ++
            be16 (s.lspRead (BitVec.ofNat 16 (0x0104 + 6 * (first.toNat + i) + 3))) ++
            be16 (s.lspRead (BitVec.ofNat 16 (0x0104 + 6 * (first.toNat + i) + 5)))) := by
  have hhead (i : Fin 3) : t.censusHeadWord i.val = s.lspRead (BitVec.ofNat 16 (0x0100 + i.val)) := by
    rw [s.lspRead_censusHead i]
    unfold State.censusHeadWord
    rw [hroll]
  have h0 : t.censusHeadWord 0 = s.lspRead 0x0100#16 := hhead 0
  have h1 : t.censusHeadWord 1 = s.lspRead 0x0101#16 := hhead 1
  have h2 : t.censusHeadWord 2 = s.lspRead 0x0102#16 := hhead 2
  rw [runReadCensus, h]
  dsimp only
  simp only [List.map_cons, List.map_nil, List.flatMap_cons, List.flatMap_nil, List.append_nil, List.append_assoc, h0, h1, h2, hroll]
  refine congrArg t.answer (congrArg _ (congrArg _ (congrArg _ (List.flatMap_congr fun i hi => ?_))))
  have hlt := List.mem_range.mp hi
  rw [s.shortForm_eq_words (by omega)]
  simp only [List.append_assoc]

/-! ### READ SUBSCRIPTION STATE -/

/-- The flags of a subscription's record at their bits (12.2). -/
theorem subFlags_eq (valid lastFresh captured freshNow : Bool) (f : Freshness) :
    natByte (valid.toNat + 2 * f.code + 8 * lastFresh.toNat + 16 * captured.toNat + 32 * freshNow.toNat) =
      0#2 ++ BitVec.ofBool freshNow ++ BitVec.ofBool captured ++ BitVec.ofBool lastFresh ++ BitVec.ofNat 2 f.code ++
        BitVec.ofBool valid := by
  cases f <;> revert valid lastFresh captured freshNow <;> decide

/-- The seven bytes of a subscription's record, the reset values for an entry that is not valid (R54, 12.2). -/
theorem State.subReport_eq (s : State) (e : Fin 32) :
    s.subReport e =
      let valid := s.mgmt.active.subs[e].valid
      let r := if valid = true then s.subs[e] else SubRecord.reset
      [BitVec.ofNat 8 e.val,
          0#2 ++ BitVec.ofBool r.freshNow ++ BitVec.ofBool r.captured ++ BitVec.ofBool r.lastFresh.isSome ++
            BitVec.ofNat 2 r.freshness.code ++ BitVec.ofBool valid,
          r.age] ++ be32 (r.lastFresh.getD 0) := by
  unfold State.subReport
  dsimp only
  rw [subFlags_eq]
  rfl

/-- What a record reports reads the active table and the records alone (R54). -/
theorem State.subReport_congr {s t : State} (ha : t.mgmt.active = s.mgmt.active) (hs : t.subs = s.subs) (e : Fin 32) :
    t.subReport e = s.subReport e := by
  unfold State.subReport
  rw [ha, hs]

/-! ### READ ENTRY -/

theorem tableOf_code (tab : Table) : tableOf (natByte tab.code) = some tab := by cases tab <;> decide

theorem setOf_none {b : Byte} (h : 2 ≤ b.toNat) : setOf b = none := by
  have hne (c : Byte) (hc : c.toNat < 2) : b ≠ c := by
    rintro rfl
    omega
  rw [setOf, if_neg (hne 0 (by decide)), if_neg (hne 1 (by decide))]

theorem tableOf_none {b : Byte} (h : 6 ≤ b.toNat) : tableOf b = none := by
  have hne (c : Byte) (hc : c.toNat < 6) : b ≠ c := by
    rintro rfl
    omega
  rw [tableOf, if_neg (hne 0 (by decide)), if_neg (hne 1 (by decide)), if_neg (hne 2 (by decide)), if_neg (hne 3 (by decide)),
    if_neg (hne 4 (by decide)), if_neg (hne 5 (by decide))]

theorem runReadEntry_badField {set table : Byte} (h : 2 ≤ set.toNat ∨ 6 ≤ table.toNat) (index : Byte) (s : State) :
    runReadEntry set table index s = s.refuse .badField := by
  unfold runReadEntry
  obtain h | h := h
  · rw [setOf_none h]
  · rw [tableOf_none h]
    cases setOf set <;> rfl

section
variable {tab : Table} {index : Byte}

theorem runReadEntry_badIndex (h : tab.entries ≤ index.toNat) (s : State) :
    runReadEntry 0x00#8 (natByte tab.code) index s = s.refuse .badIndex ∧
      runReadEntry 0x01#8 (natByte tab.code) index s = s.refuse .badIndex := by
  unfold runReadEntry
  rw [tableOf_code]
  exact ⟨if_pos h, if_pos h⟩

theorem runReadEntry_active (h : index.toNat < tab.entries) (s : State) :
    runReadEntry 0x00#8 (natByte tab.code) index s = s.answer (s.mgmt.active.report tab index.toNat) := by
  unfold runReadEntry
  rw [tableOf_code]
  exact if_neg (by omega)

/-- The staged set of whatever session there is (R113). -/
theorem runReadEntry_staged (h : index.toNat < tab.entries) {s : State} {x : Session} (hx : s.mgmt.session = some x) :
    runReadEntry 0x01#8 (natByte tab.code) index s = s.answer (x.staged.report tab index.toNat) := by
  unfold runReadEntry
  rw [tableOf_code, hx]
  exact if_neg (by omega)

theorem runReadEntry_noSession (h : index.toNat < tab.entries) {s : State} (hx : s.mgmt.session = none) :
    runReadEntry 0x01#8 (natByte tab.code) index s = s.refuse .noSession := by
  unfold runReadEntry
  rw [tableOf_code, hx]
  exact if_neg (by omega)

end

/-- Asking the tap leaves the staged set of its session, whoever asks (R116). -/
theorem State.asked_staged {s : State} {x : Session} (h : s.mgmt.session = some x) (dt : Nat) (src : Station) :
    ∃ y, (s.asked dt src).mgmt.session = some y ∧ y.staged = x.staged := by
  have he : (s.elapse dt).mgmt.session = some x := h
  rw [State.asked, State.touchSession, he]
  dsimp only
  split
  · exact ⟨_, rfl, rfl⟩
  · exact ⟨x, h, rfl⟩

/-! ### The three requests -/

section
variable {src : Station} {tag : Byte} {s : State} (h : s.executes src tag) (dt : Nat) (first count : Byte)

include h

theorem exec_readCensus_refused {x : Status} (hx : runCheck 63 first count = some x) :
    exec (.readCensus dt src tag first count) s = .next ((s.asked dt src).replied src tag [0x05#8, x.code] false) :=
  exec_request_answers h dt (.readCensus first count) (y := (s.asked dt src).refuse x) (by simp only [runRequest, runReadCensus, hx])

theorem exec_readCensus_reports (hx : runCheck 63 first count = none) (hsum : first.toNat + count.toNat ≤ 63) :
    exec (.readCensus dt src tag first count) s =
      .next ((s.asked dt src).replied src tag
        ([0x05#8, 0x00#8] ++ be16 (s.lspRead 0x0100#16) ++ be16 (s.lspRead 0x0101#16) ++ be16 (s.lspRead 0x0102#16) ++
          (List.range count.toNat).flatMap fun i =>
            be16 (s.lspRead (BitVec.ofNat 16 (0x0104 + 6 * (first.toNat + i)))) ++
              be16 (s.lspRead (BitVec.ofNat 16 (0x0104 + 6 * (first.toNat + i) + 1))) ++
              be16 (s.lspRead (BitVec.ofNat 16 (0x0104 + 6 * (first.toNat + i) + 3))) ++
              be16 (s.lspRead (BitVec.ofNat 16 (0x0104 + 6 * (first.toNat + i) + 5)))) false) := by
  have hanswer := exec_request_answers h dt (.readCensus first count) (runReadCensus_words hx hsum (s.asked_roll dt src))
  simp only [List.cons_append, List.nil_append]
  exact hanswer

theorem exec_readSubscriptionState_refused {x : Status} (hx : runCheck 32 first count = some x) :
    exec (.readSubscriptionState dt src tag first count) s = .next ((s.asked dt src).replied src tag [0x06#8, x.code] false) :=
  exec_request_answers h dt (.readSubscriptionState first count) (y := (s.asked dt src).refuse x)
    (by simp only [runRequest, runReadSubscriptionState, hx])

theorem exec_readSubscriptionState_reports (hx : runCheck 32 first count = none) :
    exec (.readSubscriptionState dt src tag first count) s =
      .next ((s.asked dt src).replied src tag
        ([0x06#8, 0x00#8] ++ be32 s.trk.lastCycle ++ [if s.trk.valid = true then 0x01#8 else 0x00#8] ++
          (List.range count.toNat).flatMap fun i => s.subReport (Fin.ofNat 32 (first.toNat + i))) false) := by
  have hreport (e : Fin 32) : (s.asked dt src).subReport e = s.subReport e := State.subReport_congr (by simp) (by simp) e
  have hvalid : natByte s.trk.valid.toNat = if s.trk.valid = true then 0x01#8 else 0x00#8 := by cases s.trk.valid <;> rfl
  refine exec_request_answers h dt (.readSubscriptionState first count) (y := (s.asked dt src).answer _) ?_
  simp only [runRequest, runReadSubscriptionState, hx, State.asked_trk, hreport, hvalid]
  rfl

end

/-- Settles O53. -/
theorem recordRequests : Obligations.RecordRequests := by
  refine ⟨?_, ?_⟩
  · intro dt src tag first count s h answer word report
    refine ⟨fun hfirst => ?_, fun hfirst hcount => ?_, fun hfirst hone height hsum => ?_, fun hone height hsum => ?_,
      fun hfirst => ?_, fun hfirst hcount => ?_, fun hfirst hone height hsum => ?_, fun hone height hsum => ?_⟩
    · exact exec_readCensus_refused (x := .badIndex) h dt _ _ (runCheck_badFirst (by omega))
    · exact exec_readCensus_refused (x := .badField) h dt _ _ (runCheck_badCount (by omega) hcount)
    · exact exec_readCensus_refused (x := .badIndex) h dt _ _ (runCheck_badSum (by omega) hone height hsum)
    · exact exec_readCensus_reports h dt _ _ (runCheck_passes hone height hsum) hsum
    · exact exec_readSubscriptionState_refused (x := .badIndex) h dt _ _ (runCheck_badFirst (by omega))
    · exact exec_readSubscriptionState_refused (x := .badField) h dt _ _ (runCheck_badCount (by omega) hcount)
    · exact exec_readSubscriptionState_refused (x := .badIndex) h dt _ _ (runCheck_badSum (by omega) hone height hsum)
    · have hreport : s.subReport = report := by
        funext e
        rw [State.subReport_eq]
        simp only [report, SubRecord.reset]
        generalize (if s.mgmt.active.subs[e].valid = true then s.subs[e] else _) = r
        obtain ⟨freshness, age, lastFresh, captured, freshNow⟩ := r
        cases freshness <;> rfl
      rw [← hreport]
      exact exec_readSubscriptionState_reports h dt _ _ (runCheck_passes hone height hsum)
  · intro dt src tag index tab s h answer
    refine ⟨fun hi => ?_, fun hi x hx => ?_, fun hi hx => ?_, fun hi => ⟨?_, ?_⟩, fun set table hbad => ?_⟩
    · refine (exec_request_answers h dt (.readEntry _ _ index) (runReadEntry_active hi _)).trans ?_
      rw [State.asked_active]
      rfl
    · obtain ⟨y, hy, hstaged⟩ := State.asked_staged hx dt src
      refine (exec_request_answers h dt (.readEntry _ _ index) (runReadEntry_staged hi hy)).trans ?_
      rw [hstaged]
      rfl
    · exact exec_request_answers h dt (.readEntry _ _ index) (runReadEntry_noSession hi (State.asked_noSession s dt src hx ▸ hx))
    · exact exec_request_answers h dt (.readEntry _ _ index) (runReadEntry_badIndex hi _).1
    · exact exec_request_answers h dt (.readEntry _ _ index) (runReadEntry_badIndex hi _).2
    · exact exec_request_answers h dt (.readEntry set table index) (runReadEntry_badField hbad index _)

end Sys2Proof.Machine
end


section
/-! PROOFS. One buffer for each role of each receive bank (R58): what the law reads, and the blocks that take, fill, complete or
clear a bank: each keeps the three roles on three buffers. -/

namespace Sys2Proof.Machine

/-! ### What keeps the law -/

/-- The law reads the receive banks alone. -/
theorem State.RolesLaw.of_rx {s t : State} (h : s.RolesLaw) (e : t.rx = s.rx) : t.RolesLaw := by
  intro b
  rw [e]
  exact h b

/-- One bank takes the place of another that meets the law. -/
theorem State.RolesLaw.of_upd {s t : State} (h : s.RolesLaw) {b : Fin 8} {x : RxBank} (hx : x.rolesDistinct = true)
    (e : t.rx = upd s.rx b x) : t.RolesLaw := by
  intro c
  rw [e, upd_get]
  split
  · exact hx
  · exact h c

theorem State.RolesLaw.of_map {s t : State} (h : s.RolesLaw) {f : RxBank → RxBank}
    (hf : ∀ x : RxBank, x.rolesDistinct = true → (f x).rolesDistinct = true) (e : t.rx = s.rx.map f) : t.RolesLaw := by
  intro b
  rw [e, Fin.getElem_fin, Vector.getElem_map]
  exact hf _ (h b)

/-- What every pass of a fold keeps, the fold keeps. -/
theorem State.RolesLaw.foldl {γ : Type} {g : State → γ → State} (hg : ∀ (t : State) (x : γ), t.RolesLaw → (g t x).RolesLaw)
    (l : List γ) {s : State} (h : s.RolesLaw) : (l.foldl g s).RolesLaw := by
  induction l generalizing s with
  | nil => exact h
  | cons x l ih => exact ih (hg s x h)

/-- A choice of which both sides keep the law, as where BYPASS stops a command. -/
theorem State.RolesLaw.ite {s t : State} (c : Prop) [Decidable c] (hs : s.RolesLaw) (ht : t.RolesLaw) :
    (if c then s else t).RolesLaw := by
  split
  · exact hs
  · exact ht

/-- Every bank at its reset values has its roles on three buffers (R58). -/
theorem RxBank.reset_roles : RxBank.reset.rolesDistinct = true := by decide

theorem State.rolesLaw_of_reset {s : State} (e : s.rx = Vector.replicate 8 RxBank.reset) : s.RolesLaw := by
  intro b
  rw [e, Fin.getElem_fin, Vector.getElem_replicate]
  exact RxBank.reset_roles

/-! ### Edges and events: a TAKE user takes (R154) -/

theorem State.RolesLaw.fire {s : State} (h : s.RolesLaw) (hit : Fin 21 → Bool) : (s.fire hit).RolesLaw := by
  intro b
  show (Vector.ofFn fun b => if hit (takeUser b) then s.rx[b].requestTake (s.readBurst b) else s.rx[b])[b].rolesDistinct = true
  rw [ofFn_get]
  split
  · exact RxBank.requestTake_roles _ _ (h b)
  · exact h b

theorem State.RolesLaw.raise {s : State} (h : s.RolesLaw) (x : Source) : (s.raise x).RolesLaw := h.fire _

theorem State.RolesLaw.edgeOn {s : State} (h : s.RolesLaw) (c : Fin 12) : (s.edgeOn c).RolesLaw := h.fire _

theorem State.RolesLaw.ringChange {s : State} (h : s.RolesLaw) : s.ringChange.RolesLaw := h.raise .ringChange

/-! ### A close -/

/-- A completion exchanges FILL and READY, and where HOLD is clear a take READY and FRONT (R60, R61). -/
theorem RxBank.completed_roles (b : RxBank) (cycle : Cycle) (burst : Bool) (h : b.rolesDistinct = true) :
    (b.completed cycle burst).rolesDistinct = true := by
  have hcomplete := RxBank.complete_roles b cycle h
  unfold RxBank.completed
  split
  · exact hcomplete
  · exact RxBank.requestTake_roles _ _ hcomplete

theorem State.judged_roles (s : State) (b : Fin 8) {x : RxBank} (h : x.rolesDistinct = true) :
    (s.judged b x).rolesDistinct = true := by
  unfold State.judged
  split
  · exact RxBank.completed_roles _ _ _ h
  · exact h

/-- A close judges each bank, and its TAKE user takes before, after or not at all (R48, R60 to R63). -/
theorem State.RolesLaw.close {s : State} (h : s.RolesLaw) (k : CloseKind) (l : Option (List RollEntry)) : (s.close k l).RolesLaw := by
  intro b
  obtain ⟨hkept, htaken, hearly⟩ := s.close_rx k l b
  have judged {x : RxBank} (hx : x.rolesDistinct = true) :
      (if s.closeJudges k = true then s.judged b x else x).rolesDistinct = true := by
    split
    · exact s.judged_roles b hx
    · exact hx
  by_cases he : s.closeJudges k = true ∧ s.readied (· < b) b
  · rw [hearly he]
    exact judged (RxBank.requestTake_roles _ _ (h b))
  · by_cases ht : s.reached (s.closeRaises k l) (takeUser b)
    · rw [htaken ht he]
      exact RxBank.requestTake_roles _ _ (judged (h b))
    · rw [hkept ht]
      exact judged (h b)

/-! ### Mailboxes -/

theorem State.RolesLaw.settle {s : State} (h : s.RolesLaw) (m : Fin 8) (o : MsgOutcome) : (s.settle m o).RolesLaw :=
  State.RolesLaw.raise (h.of_rx (s.setMailbox_rx m _)) _

theorem State.RolesLaw.dueMailbox {s : State} (h : s.RolesLaw) (f : HeaderFrame) (m : Fin 8) : (State.dueMailbox f s m).RolesLaw := by
  unfold State.dueMailbox
  split
  · split
    · exact h.settle m _
    · exact h.of_rx (s.setMailbox_rx m _)
  · exact h

theorem State.RolesLaw.schedulerHeader {s : State} (h : s.RolesLaw) (f : HeaderFrame) : (s.schedulerHeader f).RolesLaw :=
  State.RolesLaw.foldl (fun _ m k => k.dueMailbox f m) _ (h.of_rx rfl)

theorem State.RolesLaw.setTapState {s : State} (h : s.RolesLaw) (x : TapState) : (s.setTapState x).RolesLaw :=
  h.of_rx (s.setTapState_rx x)

theorem State.RolesLaw.abandonMailbox {s : State} (h : s.RolesLaw) (m : Fin 8) : (s.abandonMailbox m).RolesLaw := by
  unfold State.abandonMailbox
  split
  · exact h.settle m _
  · exact h.settle m _
  · exact h

theorem State.RolesLaw.enterFaulted {s : State} (h : s.RolesLaw) : s.enterFaulted.RolesLaw :=
  State.RolesLaw.foldl (fun _ m k => k.abandonMailbox m) _ (h.setTapState _)

/-! ### Capture: a BLOCK moves the words of FILL buffers (R44) -/

theorem State.RolesLaw.captureBlock {s : State} (h : s.RolesLaw) (f : BlockFrame) : (s.captureBlock f).RolesLaw := by
  intro b
  obtain ⟨hbank, -⟩ := s.captureBlock_bank f b
  have hroles := h b
  rw [RxBank.rolesDistinct_iff] at hroles ⊢
  rw [congrArg RxBank.front hbank, congrArg RxBank.ready hbank, congrArg RxBank.fill hbank]
  exact hroles

/-! ### The receive monitor and the lane switch -/

theorem State.RolesLaw.modUnit {s : State} (h : s.RolesLaw) (p : Port) (f : PortUnit → PortUnit) : (s.modUnit p f).RolesLaw :=
  h.of_rx (s.modUnit_rx p f)

theorem State.RolesLaw.leaveService {s : State} (h : s.RolesLaw) (p : Port) : (s.leaveService p).RolesLaw := by
  unfold State.leaveService
  split
  · dsimp only
    split
    · exact (State.RolesLaw.modUnit (s := s.count _) h p _).ringChange
    · exact (h.modUnit p _).ringChange
  · exact h

theorem State.RolesLaw.abortTest {s : State} (h : s.RolesLaw) (p : Port) : (s.abortTest p).RolesLaw := .ite _ h h

/-- The train record of a failed port ends, with an ABORTED close where a train was in progress (R32). -/
theorem State.RolesLaw.endTrainAt {s : State} (h : s.RolesLaw) (p : Port) : (s.endTrainAt p).RolesLaw := by
  unfold State.endTrainAt
  split
  · exact .ite _ (h.close _ _) h
  · exact .ite _ h h
  · exact h

theorem State.RolesLaw.leaveUp {s : State} (h : s.RolesLaw) (p : Port) (c : DownCause) : (s.leaveUp p c).RolesLaw := by
  have down := ((h.of_rx (s.endPartial_rx p)).modUnit p fun u =>
    (u.enterDown c (s.endPartial p).now).count fun c => { c with downs := satInc c.downs }).ringChange
  exact (((down.leaveService p).of_rx (State.cutOutputs_rx _ p)).abortTest p).endTrainAt p

theorem State.RolesLaw.goDown {s : State} (h : s.RolesLaw) (p : Port) (c : DownCause) : (s.goDown p c).RolesLaw := by
  unfold State.goDown
  split
  · exact h.leaveUp p c
  · exact h.modUnit p _
  · exact h

theorem State.RolesLaw.windowAdd {s : State} (h : s.RolesLaw) (p : Port) (error : Bool) : (s.windowAdd p error).RolesLaw :=
  have added (w : List Bool) : (s.modUnit p fun u => { u with window := w }).RolesLaw := h.modUnit p _
  .ite _ (.ite _ ((added _).leaveUp p _) (added _)) h

theorem State.RolesLaw.refit {s : State} (h : s.RolesLaw) (p : Port) : (s.refit p).RolesLaw :=
  have set (u : PortUnit) : (s.setUnit p u).RolesLaw := h.of_rx (s.setUnit_rx p u)
  .ite _ (.ite _ (set _).ringChange h) (set _)

theorem State.RolesLaw.enterUp {s : State} (h : s.RolesLaw) (p : Port) : (s.enterUp p).RolesLaw :=
  (h.modUnit p _).ringChange.refit p

theorem State.RolesLaw.tryQualify {s : State} (h : s.RolesLaw) (p : Port) : (s.tryQualify p).RolesLaw := h.modUnit p _

theorem State.RolesLaw.newPolicy {s : State} (h : s.RolesLaw) (old : ReturnPolicy) (p : Port) :
    (State.newPolicy old s p).RolesLaw := by
  unfold State.newPolicy
  split
  · exact h.modUnit p _
  · exact .ite _ (h.refit p) h

theorem State.RolesLaw.newQualification {s : State} (h : s.RolesLaw) (p : Port) : (s.newQualification p).RolesLaw := by
  unfold State.newQualification
  split
  · exact .ite _ (h.enterUp p) h
  · exact h

theorem State.RolesLaw.activatePorts {s : State} (h : s.RolesLaw) (old : ReturnPolicy) : (s.activatePorts old).RolesLaw :=
  .foldl (fun _ p k => k.newQualification p) bothPorts (.foldl (fun _ p k => k.newPolicy old p) bothPorts h)

theorem State.RolesLaw.lockLost {s : State} (h : s.RolesLaw) (p : Port) : (s.lockLost p).RolesLaw :=
  State.RolesLaw.refit (.goDown ((h.modUnit p _).of_rx (State.endPartial_rx _ p)) p .loss) p

theorem State.RolesLaw.farEnd {s : State} (h : s.RolesLaw) (p : Port) (sig : FarSignal) : (s.farEnd p sig).RolesLaw :=
  have seen : (s.modUnit p fun u => { u with farEnd := some sig }).RolesLaw := h.modUnit p _
  .ite _ (.refit (.ite _ (seen.goDown p .remote) (seen.tryQualify p)) p) h

theorem State.RolesLaw.downHoldExpiry {s : State} (h : s.RolesLaw) (p : Port) : (s.downHoldExpiry p).RolesLaw := by
  unfold State.downHoldExpiry
  split
  · rename_i t _
    exact State.RolesLaw.tryQualify (State.RolesLaw.modUnit (s := s.reach t) h p _) p
  · exact h

theorem State.RolesLaw.qualificationComplete {s : State} (h : s.RolesLaw) (p : Port) : (s.qualificationComplete p).RolesLaw := by
  unfold State.qualificationComplete
  split
  · rename_i t _ _
    exact State.RolesLaw.enterUp (s := s.reach (t + s.qualificationTime)) h p
  · exact h

theorem State.RolesLaw.returnService {s : State} (h : s.RolesLaw) (p : Port) : (s.returnService p).RolesLaw :=
  (h.modUnit p _).ringChange

/-! ### ECHO frames -/

theorem State.flushElastic_rx (s : State) (p : Port) : (s.flushElastic p).rx = s.rx := by
  rw [State.flushElastic_eq, State.modUnit_rx]

theorem State.RolesLaw.echoStart {s : State} (h : s.RolesLaw) (p : Port) : (s.echoStart p).RolesLaw := by
  unfold State.echoStart
  split
  · exact h.modUnit p _
  · exact .ite _ (h.modUnit p _) h

theorem State.RolesLaw.echoSent {s : State} (h : s.RolesLaw) (p : Port) (f : EchoFrame) : (s.echoSent p f).RolesLaw :=
  (State.RolesLaw.modUnit (s := s.emit p _) h p _).of_rx (State.flushElastic_rx _ p)

theorem State.RolesLaw.replySent {s : State} (h : s.RolesLaw) (p : Port) : (s.replySent p).RolesLaw := by
  unfold State.replySent
  split
  · exact (h.echoSent p _).modUnit p _
  · exact h

theorem State.RolesLaw.requestSent {s : State} (h : s.RolesLaw) (p : Port) : (s.requestSent p).RolesLaw := by
  unfold State.requestSent
  split
  · exact h.echoSent p _
  · exact h

theorem State.RolesLaw.echoWaitExpiry {s : State} (h : s.RolesLaw) : s.echoWaitExpiry.RolesLaw := by
  unfold State.echoWaitExpiry
  dsimp only
  split
  · exact h
  · exact h

theorem State.RolesLaw.judgeReply {s : State} (h : s.RolesLaw) (p : Port) (f : EchoFrame) (c : Check) :
    (s.judgeReply p f c).RolesLaw := by
  unfold State.judgeReply
  dsimp only
  split
  · exact .ite _ (.ite _ h (.ite _ (.ite _ h h) h)) h
  · exact h

theorem State.RolesLaw.receiveEcho {s : State} (h : s.RolesLaw) (p : Port) (f : EchoFrame) (c : Check) :
    (s.receiveEcho p f c).RolesLaw :=
  .ite _ (.ite _ (.ite _ (h.modUnit p _) h) (.ite _ (h.judgeReply p f c) h)) h

/-! ### The tracker's timers -/

theorem State.RolesLaw.modTrk {s : State} (h : s.RolesLaw) (f : Tracker → Tracker) : (s.modTrk f).RolesLaw := h.of_rx (s.modTrk_rx f)

theorem State.RolesLaw.armGap {s : State} (h : s.RolesLaw) (p : Port) : (s.armGap p).RolesLaw := .ite _ h h

theorem State.RolesLaw.badFrame {s : State} (h : s.RolesLaw) : s.badFrame.RolesLaw := by
  unfold State.badFrame
  dsimp only
  split
  · exact h
  · exact h
  · exact State.RolesLaw.close (s := s.orderDefect) h _ _
  · exact h
  · exact h

theorem State.RolesLaw.gapTimerExpiry {s : State} (h : s.RolesLaw) : s.gapTimerExpiry.RolesLaw := by
  unfold State.gapTimerExpiry
  split
  · rename_i d _
    dsimp only
    split
    · exact State.RolesLaw.close (s := s.reach d) h _ _
    · exact h
    · exact h
  · exact h

theorem State.RolesLaw.enterSilent {s : State} (h : s.RolesLaw) : s.enterSilent.RolesLaw :=
  ((h.modTrk _).of_rx (State.setSticky_rx _ _)).raise _

/-- A MISSED close, and SILENT with its event where it brings the count to the limit (R31, R34). -/
theorem State.RolesLaw.missedClose {s : State} (h : s.RolesLaw) : s.missedClose.RolesLaw := by
  have counted := (h.close .missed none).modTrk fun t => { t with missed := satInc t.missed }
  unfold State.missedClose
  dsimp only
  split
  · exact counted.enterSilent
  · exact counted

theorem State.RolesLaw.trainTimerExpiry {s : State} (h : s.RolesLaw) : s.trainTimerExpiry.RolesLaw := by
  unfold State.trainTimerExpiry
  split
  · rename_i d _
    have hmissed := State.RolesLaw.missedClose (s := s.reach d) h
    dsimp only
    split
    · exact h
    · exact hmissed.modTrk _
    · exact hmissed.modTrk _
  · exact h

/-! ### Headers -/

/-- An activation clears every bank (R66); the ports take up the set after it, and their RING_CHANGE finds banks cleared. -/
theorem State.rolesLaw_activate (s : State) (x : Session) : (s.activate x).RolesLaw := by
  unfold State.activate
  refine State.RolesLaw.activatePorts ?_ _
  intro b
  show (Vector.map RxBank.clear _)[b].rolesDistinct = true
  rw [Fin.getElem_fin, Vector.getElem_map]
  exact RxBank.clear_roles _

theorem State.RolesLaw.activateDue {s : State} (h : s.RolesLaw) (epoch : Byte) : (s.activateDue epoch).RolesLaw := by
  unfold State.activateDue
  split
  · exact s.rolesLaw_activate _
  · exact h

theorem State.RolesLaw.publishHeader {s : State} (h : s.RolesLaw) : s.publishHeader.RolesLaw := by
  have taken (t : State) (ht : t.RolesLaw) :
      ((List.finRange 4).foldl (fun t p => if s.swaps p then t.raise (.postTaken p) else t) t).RolesLaw :=
    .foldl (fun _ _ k => .ite _ (k.raise _) k) _ ht
  unfold State.publishHeader
  split
  iterate 3 exact taken _ h
  iterate 2 exact h

/-- The banks start from their newest complete data; no role moves (R59). -/
theorem State.RolesLaw.prepareTrain {s : State} (h : s.RolesLaw) (f : HeaderFrame) : (s.prepareTrain f).RolesLaw :=
  State.RolesLaw.raise (.schedulerHeader ((h.activateDue f.epoch).publishHeader.of_map RxBank.startFill_roles rfl) f) _

theorem State.RolesLaw.firstPass {s : State} (h : s.RolesLaw) (p : Port) (f : HeaderFrame) : (s.firstPass p f).RolesLaw := by
  have recorded : (s.recordHeader p f).RolesLaw := by
    unfold State.recordHeader
    dsimp only
    split
    · exact h
    · exact h
  rw [State.firstPass_eq]
  exact ((recorded.prepareTrain f).modTrk _).armGap p

theorem State.RolesLaw.takeHeader {s : State} (h : s.RolesLaw) (p : Port) (f : HeaderFrame) : (s.takeHeader p f).RolesLaw :=
  .ite _ (h.firstPass p f) ((h.modTrk _).armGap p)

theorem State.RolesLaw.trackHeader {s : State} (h : s.RolesLaw) (p : Port) (f : HeaderFrame) (c : Check) :
    (s.trackHeader p f c).RolesLaw := by
  have closed := h.close .aborted none
  unfold State.trackHeader
  split
  · exact .ite _ (.ite _ (closed.takeHeader p f) (.ite _ (closed.firstPass p f) h)) (.ite _ (h.badFrame.armGap p) h)
  · exact .ite _ (h.takeHeader p f) h
  · exact .ite _ (h.takeHeader p f) (h.armGap p)

end Sys2Proof.Machine
end


section
/-! PROOFS. One buffer for each role of each receive bank (R58): frames, requests, the local port and restarts, and so every command. -/

namespace Sys2Proof.Machine

/-! ### Requests -/

theorem State.RolesLaw.clearGroup {s : State} (h : s.RolesLaw) (g : Group) : (s.clearGroup g).RolesLaw := by
  cases g with
  | port p => exact h.modUnit p _
  | _ => exact h

theorem State.RolesLaw.pulse {s : State} (h : s.RolesLaw) (c : Fin 12) : (s.pulse c).RolesLaw := by
  unfold State.pulse
  dsimp only
  split
  · exact h
  · exact State.RolesLaw.edgeOn h c

/-- Of the requests PULSE alone reaches a bank, by the edge it makes (R153). -/
theorem State.RolesLaw.runRequest {s : State} (h : s.RolesLaw) (r : Request) (src : Station) :
    (runRequest r src s).state.RolesLaw := by
  have halted (x : Bool) (t : TapState) : ((s.setCommandCause x).setTapState t).RolesLaw :=
    State.RolesLaw.setTapState (s := s.setCommandCause x) h t
  cases r with
  | clearCounters g =>
    simp only [Machine.runRequest, runClearCounters]
    split
    · exact h.clearGroup _
    · exact h
  | halt =>
    simp only [Machine.runRequest, runHalt]
    split
    · exact halted _ _
    all_goals exact h
  | resume =>
    simp only [Machine.runRequest, runResume]
    split
    · exact h
    · split
      · exact h
      · exact halted _ _
    all_goals exact h
  | returnWrap port =>
    simp only [Machine.runRequest, runReturnWrap]
    split
    · exact h
    · split
      · exact h.modUnit _ _
      · exact h
  | pulse channel =>
    simp only [Machine.runRequest, runPulse]
    split
    · exact h
    · split
      · exact h.pulse _
      · exact h
  | _ =>
    simp only [Machine.runRequest, runIdentify, runReadStatus, runReadCounters, runReadCensus, runReadSubscriptionState,
      runReadEntry, runOpenEdit, runStageEntry, runClearStaged, runCommit, runAbandonEdit, runQueryEdit, runRestart,
      runSegmentTestStart, runSegmentTestResult]
    repeat' split
    all_goals exact h

theorem State.touchSession_rx (s : State) (src : Station) : (s.touchSession src).rx = s.rx := by
  rw [State.touchSession_eq]

/-- A request taken keeps the law where its execution does (R106 to R108). -/
theorem State.RolesLaw.takeRequest {s : State} (h : s.RolesLaw) (src : Station) (tag code : Byte) {run : State → Reply}
    (hr : ∀ t : State, t.RolesLaw → (run t).state.RolesLaw) : (s.takeRequest src tag code run).RolesLaw := by
  have touched := h.of_rx (s.touchSession_rx src)
  have executed : ((s.touchSession src).executeRequest src tag code run).RolesLaw :=
    (hr _ touched).of_rx ((State.modMgmt_rx _ _).trans (State.modMgmt_rx _ _))
  have responded (r : Response) : ((s.touchSession src).respond r).RolesLaw := touched.of_rx (State.modMgmt_rx _ _)
  unfold State.takeRequest
  dsimp only
  split
  · split
    · exact .ite _ (responded _) executed
    · exact executed
  · exact responded _

theorem State.RolesLaw.deliver {s : State} (h : s.RolesLaw) (src : Station) (tag code : Byte) {run : State → Reply}
    (hr : ∀ t : State, t.RolesLaw → (run t).state.RolesLaw) : (s.deliver src tag code run).RolesLaw :=
  .ite _ (.ite _ (h.takeRequest src tag code hr) h) h

theorem State.RolesLaw.takePayload {s : State} (h : s.RolesLaw) (src : Station) (tag : Byte) (payload : List Byte) :
    (s.takePayload src tag payload).RolesLaw := by
  unfold State.takePayload
  split
  · exact h.takeRequest src tag _ fun _ k => k.runRequest _ src
  · exact h.takeRequest src tag _ fun _ k => k

/-! ### The container unit's steps (R84) -/

theorem State.RolesLaw.joinInbound {s : State} (h : s.RolesLaw) (f : ContainerFrame) (broadcast : Bool) :
    (s.joinInbound f broadcast).RolesLaw :=
  State.RolesLaw.raise (s := State.count { s with inbound := _ } _) h _

theorem State.RolesLaw.outcomeStep {s : State} (h : s.RolesLaw) (i : Fin 8) (f : ContainerFrame) :
    (s.outcomeStep i f).state.RolesLaw := by
  unfold State.outcomeStep
  split
  · exact h
  · split
    · exact h
    · exact h.settle _ _

theorem State.RolesLaw.stripStep {s : State} (h : s.RolesLaw) (f : ContainerFrame) : (s.stripStep f).state.RolesLaw := by
  unfold State.stripStep
  split
  · exact h
  · exact h

theorem State.RolesLaw.deliveryStep {s : State} (h : s.RolesLaw) (f : ContainerFrame) : (s.deliveryStep f).state.RolesLaw := by
  unfold State.deliveryStep
  split
  · split
    · split
      · exact h.takePayload _ _ _
      · exact h
    · split
      · split
        · exact h.joinInbound f _
        · exact h
      · exact h
  · exact h

theorem State.RolesLaw.broadcastStep {s : State} (h : s.RolesLaw) (f : ContainerFrame) : (s.broadcastStep f).RolesLaw :=
  .ite _ (.ite _ (.ite _ (h.joinInbound f _) h) h) h

theorem State.RolesLaw.fillStep {s : State} (h : s.RolesLaw) (t : TapState) (took : Bool) (i : Fin 8) (f : ContainerFrame) :
    (s.fillStep t took i f).1.RolesLaw := by
  unfold State.fillStep
  split
  · exact h
  · split
    · split
      · exact h
      · exact h
    · exact h

theorem State.RolesLaw.containerSteps {s : State} (h : s.RolesLaw) (t : TapState) (i : Fin 8) (f : ContainerFrame) :
    (s.containerSteps t i f).state.RolesLaw := by
  have stepped (f2 f3 f4 : ContainerFrame) :
      ((((s.outcomeStep i f).state.stripStep f2).state.deliveryStep f3).state.broadcastStep f4).RolesLaw :=
    (((h.outcomeStep i f).stripStep f2).deliveryStep f3).broadcastStep f4
  unfold State.containerSteps
  dsimp only
  split
  · exact stepped _ _ _
  · exact (stepped _ _ _).fillStep t _ i _

theorem State.RolesLaw.goodContainer {s : State} (h : s.RolesLaw) (f : ContainerFrame) : (s.goodContainer f).state.RolesLaw := by
  have acted : (s.actOnContainer f).state.RolesLaw := by
    unfold State.actOnContainer
    split
    · exact h
    · split
      · exact h.containerSteps _ _ f
      · exact h
  unfold State.goodContainer
  dsimp only
  split
  · exact h
  · exact h
  · split
    · exact acted.modTrk _
    · split
      · exact h
      · exact h

/-! ### A frame from its beginning to its end -/

theorem State.RolesLaw.beginArrival {s : State} (h : s.RolesLaw) (p : Port) (lead : Lead) : (s.beginArrival p lead).RolesLaw := by
  have begun : (s.modUnit p fun u => { u with arriving := some (s.arrivalOf p lead), discard := s.discardAfter p lead }).RolesLaw :=
    h.modUnit p _
  exact .ite _ (.ite _ (begun.modTrk _) begun) begun

theorem State.RolesLaw.frameBegins {s : State} (h : s.RolesLaw) (p : Port) (lead : Lead) : (s.frameBegins p lead).RolesLaw := by
  unfold State.frameBegins
  split
  · exact h
  · split
    · exact h.beginArrival p _
    · exact .ite _ (h.modUnit p _) h

theorem State.RolesLaw.arrived {s : State} (h : s.RolesLaw) (p : Port) (lead : Lead) : (s.arrived p lead).1.RolesLaw := by
  unfold State.arrived
  split
  · split
    · exact h
    · exact h.beginArrival p lead
  · exact h.beginArrival p lead

theorem State.RolesLaw.countFrame {s : State} (h : s.RolesLaw) (p : Port) (a : Arriving) (c : Check) :
    (s.countFrame p a c).RolesLaw := by
  have counted : (s.countPort p fun x => x.received c (decide (a.lead = .unknown))).RolesLaw := h.modUnit p _
  exact .ite _ (counted.of_rx (State.count_rx _ _)) counted

theorem State.RolesLaw.countLost {s : State} (h : s.RolesLaw) (a : Arriving) (c : Check) : (s.countLost a c).RolesLaw := .ite _ h h

theorem State.RolesLaw.forward {s : State} (h : s.RolesLaw) (a : Arriving) (x : SentContent) (w r : Bool) :
    (s.forward a x w r).RolesLaw := by
  unfold State.forward
  split
  · exact h.of_rx (s.sendOut_rx _ _)
  · exact h

/-- The end of a frame keeps the law where the frame's own effect does; the error window may close a train (R137). -/
theorem State.RolesLaw.receive {s : State} (h : s.RolesLaw) (p : Port) (f : Frame) (fcs : Option Fcs)
    {act : Arriving → Check → State → Passed} (ha : ∀ a c (t : State), t.RolesLaw → (act a c t).state.RolesLaw) :
    (s.receive p f fcs act).RolesLaw := by
  unfold State.receive
  split
  · exact h
  · exact (((ha _ _ _ (((h.arrived p f.lead).modUnit p _).countFrame p _ _)).countLost _ _).forward _ _ _ _).windowAdd p _

theorem State.RolesLaw.passHeader {s : State} (h : s.RolesLaw) (p : Port) (f : HeaderFrame) (a : Arriving) (c : Check) :
    (passHeader p f a c s).state.RolesLaw :=
  .ite _ (h.trackHeader p f c) h

/-- A good BLOCK at its expected position is captured (R26, R43). -/
theorem State.RolesLaw.goodBlock {s : State} (h : s.RolesLaw) (f : BlockFrame) (capture : Bool) :
    (s.goodBlock f capture).RolesLaw := by
  have captured : (if capture then s.captureBlock f else s).RolesLaw := .ite _ (h.captureBlock f) h
  unfold State.goodBlock
  dsimp only
  split
  · split
    · exact captured.modTrk _
    · exact .ite _ h h
  all_goals exact h

theorem State.RolesLaw.passBlock {s : State} (h : s.RolesLaw) (p : Port) (f : BlockFrame) (a : Arriving) (c : Check) :
    (passBlock p f a c s).state.RolesLaw :=
  .ite _ (.ite _ (.armGap (.ite _ (h.goodBlock _ _) h.badFrame) p) (h.armGap p)) h

theorem State.RolesLaw.passContainer {s : State} (h : s.RolesLaw) (p : Port) (f : ContainerFrame) (a : Arriving) (c : Check) :
    (passContainer p f a c s).state.RolesLaw := by
  unfold Machine.passContainer State.trackContainer
  dsimp only
  split
  · split
    · split
      · exact (h.goodContainer f).armGap p
      · exact h.badFrame.armGap p
    · exact h.armGap p
  · exact h

/-- The roll unit on a ROLL: a duplicate number raises the outcomes of FAULTED (R98, R128). -/
theorem State.RolesLaw.takeRoll {s : State} (h : s.RolesLaw) (x : Option RollSample) (f : RollFrame) (c : Check) :
    (s.takeRoll x f c).1.RolesLaw := by
  have effect (d : RollDecision) : (s.rollEffect d f).RolesLaw := by
    cases d with
    | duplicate => exact h.enterFaulted
    | _ => exact h
  unfold State.takeRoll
  split
  · exact h
  · split
    · exact h
    · exact .ite _ (effect _) h

theorem State.RolesLaw.endAtRoll {s : State} (h : s.RolesLaw) (p : Port) (f : RollFrame) (c : Check) :
    (s.endAtRoll p f c).RolesLaw := by
  unfold State.endAtRoll
  split
  · exact .ite _ (.ite _ (h.close _ _) (h.close _ _)) h
  · exact .ite _ h h
  · exact h

theorem State.RolesLaw.passRoll {s : State} (h : s.RolesLaw) (p : Port) (f : RollFrame) (a : Arriving) (c : Check) :
    (passRoll p f a c s).state.RolesLaw := by
  unfold Machine.passRoll
  split
  · exact (h.takeRoll a.roll f c).endAtRoll p f c
  · exact h

theorem State.RolesLaw.passUnknown {s : State} (h : s.RolesLaw) (p : Port) (f : UnknownFrame) (a : Arriving) (c : Check) :
    (passUnknown p f a c s).state.RolesLaw :=
  .ite _ (.ite _ ((h.modTrk _).armGap p) (h.armGap p)) h

/-! ### Pins, restarts and the bypass hold -/

theorem State.rolesLaw_beginRestart (s : State) (kind : RestartKind) : (s.beginRestart kind).RolesLaw := State.rolesLaw_of_reset rfl

theorem State.RolesLaw.stopRise {s : State} (h : s.RolesLaw) : s.stopRise.RolesLaw := by
  unfold State.stopRise
  dsimp only
  split
  · exact State.RolesLaw.setTapState (s := s.setPinCause true) h _
  · exact h

theorem State.RolesLaw.stopFall {s : State} (h : s.RolesLaw) : s.stopFall.RolesLaw := by
  unfold State.stopFall
  dsimp only
  split
  · exact State.RolesLaw.setTapState (s := s.setPinCause false) h _
  · exact h

/-- A rising TRIGGER_IN is an event (R152). -/
theorem State.RolesLaw.pinChange {s : State} (h : s.RolesLaw) (k : Fin 8) (level : Bool) : (s.pinChange k level).RolesLaw :=
  have sampled : State.RolesLaw { s with sig := { s.sig with trigIn := upd s.sig.trigIn k level } } := h
  .ite _ (.ite _ (sampled.raise _) h) h

theorem State.RolesLaw.trigOutFall {s : State} (h : s.RolesLaw) (k : Fin 8) : (s.trigOutFall k).RolesLaw := by
  unfold State.trigOutFall
  split
  · exact h
  · exact .ite _ h h

theorem State.RolesLaw.pulseEnd {s : State} (h : s.RolesLaw) (c : Fin 12) : (s.pulseEnd c).RolesLaw := by
  unfold State.pulseEnd
  split
  · exact h
  · exact h

theorem State.RolesLaw.sessionIdleExpiry {s : State} (h : s.RolesLaw) : s.sessionIdleExpiry.RolesLaw := by
  unfold State.sessionIdleExpiry
  split
  · split
    · exact h
    · exact h
  · exact h

theorem State.RolesLaw.startHold {s : State} (h : s.RolesLaw) (kind : RestartKind) : (s.startHold kind).RolesLaw := .ite _ h h

theorem State.RolesLaw.powerSettled {s : State} (h : s.RolesLaw) : s.powerSettled.RolesLaw := by
  unfold State.powerSettled
  split
  · exact State.RolesLaw.startHold (by exact h.of_rx rfl) _
  · exact h

theorem State.RolesLaw.rstNHigh {s : State} (h : s.RolesLaw) : s.rstNHigh.RolesLaw := by
  unfold State.rstNHigh
  split
  · exact State.RolesLaw.startHold (by exact h.of_rx rfl) _
  · exact h

theorem State.RolesLaw.leaveBypass {s : State} (h : s.RolesLaw) : s.leaveBypass.RolesLaw :=
  ((h.modUnit .w _).modUnit .e _).setTapState _

theorem State.RolesLaw.bypassHoldExpiry {s : State} (h : s.RolesLaw) (straps : Station) : (s.bypassHoldExpiry straps).RolesLaw := by
  unfold State.bypassHoldExpiry
  split
  · exact .ite _ (State.RolesLaw.leaveBypass h) h
  · exact h
  · exact h

/-! ### The local port -/

/-- The end of a read burst makes the take that it put off (R63). -/
theorem State.RolesLaw.endTransaction {s : State} (h : s.RolesLaw) : s.endTransaction.RolesLaw := by
  unfold State.endTransaction
  split
  · exact h
  · dsimp only
    split
    · exact h.of_upd (RxBank.endBurst_roles _ (h _)) rfl
    · exact h
    · exact h

theorem State.RolesLaw.transactionStart {s : State} (h : s.RolesLaw) (command : Byte) (a : Word) (words : Nat) :
    (s.transactionStart command a words).RolesLaw := by
  have ended := h.endTransaction
  unfold State.transactionStart
  generalize s.endTransaction = t at ended
  exact .ite _ ended (.ite _ ended (.ite _ ended ended))

/-- A written word keeps the law where its act does. -/
theorem State.RolesLaw.lspWrite {s : State} (h : s.RolesLaw) (a : Word) {act : State → State} (ha : (act s).RolesLaw) :
    (s.lspWrite a act).RolesLaw :=
  .ite _ (ha.of_rx rfl) h

/-- HOLD is no role (R61). -/
theorem State.RolesLaw.writeHold {s : State} (h : s.RolesLaw) (b : Fin 8) (v : Word) : (s.writeHold b v).RolesLaw :=
  h.of_upd (x := { s.rx[b] with hold := v.getLsbD 0 }) (h b) rfl

/-- A local action keeps the law where its act does. -/
theorem State.RolesLaw.localAction {s : State} (h : s.RolesLaw) {act : State → State}
    (ha : ∀ t : State, t.RolesLaw → (act t).RolesLaw) : (s.localAction act).RolesLaw :=
  .ite _ (.ite _ h (ha s.markActed h)) h

theorem State.RolesLaw.finish {x : Acted} (h : x.state.RolesLaw) : x.finish.RolesLaw := .ite _ h h

theorem State.RolesLaw.takeAction {s : State} (h : s.RolesLaw) (o : BitVec 12) : (s.takeAction o).state.RolesLaw := by
  unfold State.takeAction
  split
  · exact h
  · split
    · exact h.of_upd (RxBank.take_roles _ (h _)) rfl
    · exact h

/-! Of the other actions none names a receive bank. -/

theorem State.postAction_rx (s : State) (o : BitVec 12) : (s.postAction o).state.rx = s.rx := by
  unfold State.postAction
  split <;> rfl

theorem State.sendAction_rx (s : State) (o : BitVec 12) : (s.sendAction o).state.rx = s.rx := by
  unfold State.sendAction
  split
  · rfl
  · split <;> rfl

theorem State.cancelAction_rx (s : State) (o : BitVec 12) : (s.cancelAction o).state.rx = s.rx := by
  unfold State.cancelAction
  split
  · rfl
  · split <;> rfl

theorem State.clearAction_rx (s : State) (o : BitVec 12) : (s.clearAction o).state.rx = s.rx := by
  unfold State.clearAction
  split
  · rfl
  · split <;> rfl

theorem State.releaseAction_rx (s : State) : s.releaseAction.state.rx = s.rx := by
  unfold State.releaseAction
  split <;> rfl

theorem State.popAction_rx (s : State) : s.popAction.state.rx = s.rx := by
  unfold State.popAction
  split <;> rfl

/-! ### Every command -/

theorem State.RolesLaw.of_next {u t : State} (e : (.next u : Result) = .next t) (h : u.RolesLaw) : t.RolesLaw := by
  cases e
  exact h

/-- An action that finishes with a report, and moves no receive bank. -/
theorem State.RolesLaw.acts {s : State} (h : s.RolesLaw) {act : State → Acted} (hact : ∀ t : State, (act t).state.rx = t.rx) :
    (s.localAction fun t => (act t).finish).RolesLaw :=
  h.localAction fun t k => (k.of_rx (hact t)).finish

/-- The rows of the requests are deliveries (R89). -/
theorem exec_requestRow_keepsRoles (r : Request) (dt : Nat) (src : Station) (tag : Byte) {s t : State} (h : s.RolesLaw)
    (e : exec (requestRow r dt src tag) s = .next t) : t.RolesLaw := by
  have delivered (code : Byte) : ((s.elapse dt).deliver src tag code (runRequest r src)).RolesLaw :=
    State.RolesLaw.deliver (s := s.elapse dt) h src tag code fun _ k => k.runRequest r src
  cases r <;> exact State.RolesLaw.of_next e (delivered _)

theorem exec_keepsRoles (c : Instr) {s t : State} (h : s.RolesLaw) (e : exec c s = .next t) : t.RolesLaw := by
  have he (dt : Nat) : (s.elapse dt).RolesLaw := h
  cases c with
  | header dt p f fcs => exact .of_next e ((he dt).receive p _ fcs fun a c _ k => k.passHeader p f a c)
  | block dt p f fcs => exact .of_next e ((he dt).receive p _ fcs fun a c _ k => k.passBlock p f a c)
  | container dt p f fcs => exact .of_next e ((he dt).receive p _ fcs fun a c _ k => k.passContainer p f a c)
  | roll dt p f fcs => exact .of_next e ((he dt).receive p _ fcs fun a c _ k => k.passRoll p f a c)
  | echo dt p f fcs => exact .of_next e ((he dt).receive p _ fcs fun _ c _ k => k.receiveEcho p f c)
  | unknownKind dt p f fcs => exact .of_next e ((he dt).receive p _ fcs fun a c _ k => k.passUnknown p f a c)
  | gapTimerExpiry dt => exact .of_next e (he dt).gapTimerExpiry
  | trainTimerExpiry dt => exact .of_next e (he dt).trainTimerExpiry
  | lockLost dt p => exact .of_next e (.ite _ (he dt) ((he dt).lockLost p))
  | lockGained dt p => exact .of_next e (.ite _ (he dt) (((he dt).modUnit p _).tryQualify p))
  | farEndRecognised dt p sig => exact .of_next e (.ite _ (he dt) ((he dt).farEnd p sig))
  | downHoldExpiry dt p => exact .of_next e (.ite _ (he dt) ((he dt).downHoldExpiry p))
  | qualificationComplete dt p => exact .of_next e (.ite _ (he dt) ((he dt).qualificationComplete p))
  | returnToService dt p => exact .of_next e (.ite _ ((he dt).returnService p) (he dt))
  | echoTransmitStart dt p => exact .of_next e (.ite _ ((he dt).echoStart p) (he dt))
  | echoReplySent dt p => exact .of_next e ((he dt).replySent p)
  | echoRequestSent dt p => exact .of_next e ((he dt).requestSent p)
  | echoWaitExpiry dt => exact .of_next e (he dt).echoWaitExpiry
  | sessionIdleExpiry dt => exact .of_next e (he dt).sessionIdleExpiry
  | stopRise dt => exact .of_next e (he dt).stopRise
  | stopFall dt => exact .of_next e (he dt).stopFall
  | triggerPinChange dt k level => exact .of_next e ((he dt).pinChange k level)
  | trigOutFall dt k => exact .of_next e ((he dt).trigOutFall k)
  | pulseEnd dt c => exact .of_next e ((he dt).pulseEnd c)
  | powerOn dt => exact .of_next e (State.rolesLaw_beginRestart _ _)
  | powerSettled dt => exact .of_next e (he dt).powerSettled
  | rstNLow dt => exact .of_next e (.ite _ (he dt) (State.rolesLaw_beginRestart _ _))
  | rstNHigh dt => exact .of_next e (he dt).rstNHigh
  | remoteRestartBegin dt => exact .of_next e (.ite _ (State.rolesLaw_beginRestart _ _) (he dt))
  | bypassHoldExpiry dt straps => exact .of_next e ((he dt).bypassHoldExpiry straps)
  | lspTransactionStart dt command address words =>
    cases command with
    | none => exact .of_next e (he dt)
    | some x => exact .of_next e ((he dt).transactionStart x address words)
  | lspSelectRelease dt words => exact .of_next e (State.RolesLaw.endTransaction (s := (s.elapse dt).clockWords words) h)
  | publishWindowWrite dt p w value => exact .of_next e ((he dt).lspWrite _ h)
  | bankControlWrite dt b value => exact .of_next e ((he dt).lspWrite _ ((he dt).writeHold b value))
  | mailboxWrite dt m w value => exact .of_next e ((he dt).lspWrite _ (.ite _ h h))
  | attentionMaskWrite dt value => exact .of_next e ((he dt).lspWrite _ h)
  | lspIgnoredWrite dt address => exact .of_next e ((he dt).lspWrite _ h)
  | take dt o => exact .of_next e ((he dt).localAction fun _ k => (k.takeAction o).finish)
  | post dt o => exact .of_next e ((he dt).acts fun t => t.postAction_rx o)
  | send dt o => exact .of_next e ((he dt).acts fun t => t.sendAction_rx o)
  | cancel dt o => exact .of_next e ((he dt).acts fun t => t.cancelAction_rx o)
  | clear dt o => exact .of_next e ((he dt).acts fun t => t.clearAction_rx o)
  | release dt => exact .of_next e ((he dt).acts State.releaseAction_rx)
  | popStamp dt => exact .of_next e ((he dt).acts State.popAction_rx)
  | clearCauses dt o => exact .of_next e ((he dt).acts (act := fun t => t.clearCausesAction o) fun _ => rfl)
  | localRestart dt => exact .of_next e ((he dt).localAction fun _ _ => State.rolesLaw_beginRestart _ _)
  | badAction dt code => exact .of_next e ((he dt).acts (act := fun t => t.reported .badAction) fun _ => rfl)
  | identify dt src tag => exact exec_requestRow_keepsRoles .identify dt src tag h e
  | readStatus dt src tag => exact exec_requestRow_keepsRoles .readStatus dt src tag h e
  | readCounters dt src tag g => exact exec_requestRow_keepsRoles (.readCounters g) dt src tag h e
  | clearCounters dt src tag g => exact exec_requestRow_keepsRoles (.clearCounters g) dt src tag h e
  | readCensus dt src tag x n => exact exec_requestRow_keepsRoles (.readCensus x n) dt src tag h e
  | readSubscriptionState dt src tag x n => exact exec_requestRow_keepsRoles (.readSubscriptionState x n) dt src tag h e
  | readEntry dt src tag x y i => exact exec_requestRow_keepsRoles (.readEntry x y i) dt src tag h e
  | openEdit dt src tag id => exact exec_requestRow_keepsRoles (.openEdit id) dt src tag h e
  | stageEntry dt src tag x i y => exact exec_requestRow_keepsRoles (.stageEntry x i y) dt src tag h e
  | clearStaged dt src tag x => exact exec_requestRow_keepsRoles (.clearStaged x) dt src tag h e
  | commit dt src tag m x => exact exec_requestRow_keepsRoles (.commit m x) dt src tag h e
  | abandonEdit dt src tag => exact exec_requestRow_keepsRoles .abandonEdit dt src tag h e
  | queryEdit dt src tag => exact exec_requestRow_keepsRoles .queryEdit dt src tag h e
  | halt dt src tag => exact exec_requestRow_keepsRoles .halt dt src tag h e
  | resume dt src tag => exact exec_requestRow_keepsRoles .resume dt src tag h e
  | returnWrap dt src tag p => exact exec_requestRow_keepsRoles (.returnWrap p) dt src tag h e
  | pulse dt src tag c => exact exec_requestRow_keepsRoles (.pulse c) dt src tag h e
  | restart dt src tag => exact exec_requestRow_keepsRoles .restart dt src tag h e
  | segmentTestStart dt src tag p n => exact exec_requestRow_keepsRoles (.segmentTestStart p n) dt src tag h e
  | segmentTestResult dt src tag => exact exec_requestRow_keepsRoles .segmentTestResult dt src tag h e
  | badCommand dt src tag payload => exact .of_next e ((he dt).deliver src tag _ fun _ k => k)
  | frameBeginsToArrive dt p lead => exact .of_next e ((he dt).frameBegins p lead)

/-- Settles O6: the law survives the command at the front of the queue, whichever it is. -/
theorem stepKeepsRolesLaw : Obligations.StepKeepsRolesLaw := by
  intro s t h e
  unfold step at e
  split at e
  · exact .of_next e h
  · rename_i rest _
    exact exec_keepsRoles _ (s := { s with pending := rest }) h e

end Sys2Proof.Machine
end


section
/-! PROOFS. A bank that a close finds complete (R60, R61, R63), and the laws at reset. -/

namespace Sys2Proof.Machine

/-! ### A completion -/

/-- The tap after steps 1 to 3 of a completion and BANK_READY, before the take (R60). -/
def State.bankReady (s : State) (b : Fin 8) : State :=
  State.raise { s with rx := upd s.rx b (s.rx[b].complete s.trk.lastCycle) } (.bankReady b)

/-- The bank's own TAKE user may take at its BANK_READY (R62). -/
theorem State.bankReady_asked (s : State) (b : Fin 8) :
    RxBank.Asked (s.readBurst b) (s.bound (.bankReady b) (takeUser b) = true) (s.rx[b].complete s.trk.lastCycle)
      (s.bankReady b).rx[b] := by
  have h := State.raise_asked { s with rx := upd s.rx b (s.rx[b].complete s.trk.lastCycle) } (.bankReady b) b
  rw [show (upd s.rx b (s.rx[b].complete s.trk.lastCycle))[b] = s.rx[b].complete s.trk.lastCycle from by
    rw [upd_get, if_pos rfl]] at h
  exact h

theorem RxBank.Asked.requestTake {burst : Bool} {hit : Prop} {b c : RxBank} (h : RxBank.Asked burst hit b c) :
    c.requestTake burst = b.requestTake burst := by
  by_cases hh : hit
  · rw [h.1 hh, RxBank.requestTake_twice]
  · rw [h.2 hh]

/-- A completion in one equation: with HOLD clear the bank is taken, whether or not its TAKE user has taken it already (R61). -/
theorem State.completeBank_eq (s : State) (b : Fin 8) :
    s.completeBank b =
      if s.rx[b].hold = true then s.bankReady b
      else
        { s.bankReady b with
          rx := upd (s.bankReady b).rx b ((s.rx[b].complete s.trk.lastCycle).requestTake (s.readBurst b)) } := by
  have hasked := s.bankReady_asked b
  have hhold : (s.bankReady b).rx[b].hold = s.rx[b].hold := hasked.hold
  rw [← hhold, ← hasked.requestTake]
  rfl

/-- Settles O27. -/
theorem completionOfABank : Obligations.CompletionOfABank := by
  intro s b howed hall done ready t
  have hjudged : t = s.completeBank b := (if_pos howed).trans (if_pos hall)
  have hcompleted := hjudged.trans (s.completeBank_eq b)
  refine ⟨fun hhold => hcompleted.trans (if_pos hhold), fun hhold => ?_, fun hbound => ?_, fun c hc hbound => ?_⟩
  · have htaken := hcompleted.trans (if_neg (ne_true_of_eq_false hhold))
    refine ⟨fun hburst => htaken.trans ?_, fun hburst => htaken.trans ?_⟩
    · rw [hburst]
      rfl
    · rw [hburst]
      rfl
  · obtain ⟨-, hkept⟩ := s.bankReady_asked b
    exact hkept (ne_true_of_eq_false hbound)
  · obtain ⟨-, hkept⟩ := s.completeBank_rx_ne b c hc
    rw [hjudged]
    exact hkept (ne_true_of_eq_false hbound)

/-! ### The laws at reset -/

/-- The empty set is valid: no entry is, no user follows a channel, and station 0 is a manager (R105, R117). -/
theorem TableSet.firstInvalid_empty : TableSet.empty.firstInvalid = none := by
  have hsub : TableSet.empty.invalidSub = none :=
    findSome?_finRange_none fun i => by simp [TableSet.empty, SubEntry.cleared]
  have hpub : TableSet.empty.invalidPub = none :=
    findSome?_finRange_none fun i => by simp [TableSet.empty, PubEntry.cleared]
  have huser : TableSet.empty.invalidUser = none :=
    findSome?_finRange_none fun i => by simp [TableSet.empty]
  rw [TableSet.firstInvalid_manager hsub hpub huser]
  rfl

/-- Settles O5. -/
theorem lawsHoldAtReset : Obligations.LawsHoldAtReset := by
  refine ⟨State.rolesLaw_of_reset rfl, by unfold State.QueueLaw; decide, fun p => ?_, State.freshnessLaw_of_reset rfl,
    TableSet.firstInvalid_empty, fun x hx => ?_⟩
  · cases p <;> exact fun h => nomatch h
  · cases hx

end Sys2Proof.Machine
end


section
/-! PROOFS. What a READ returns beyond the status block (R162, 12.3): the fields of a word, and each window of the map. -/

namespace Sys2Proof.Machine

/-! ### The fields of a word -/

/-- A word whose fields do not reach past bit 15 is the number that they make up. -/
theorem pack_toNat {l : List (Nat × Nat)} {n : Nat} (hsum : l.foldl (fun a x => a + x.2 * 2 ^ x.1) 0 = n) (h : n < 65536) :
    (pack l).toNat = n := by
  rw [pack, BitVec.toNat_ofNat, hsum, Nat.mod_eq_of_lt h]

/-- The field of `n` bits from bit `k` on. -/
theorem extractLsb'_eq_ofNat {x : Word} {k n v : Nat} (h : x.toNat / 2 ^ k % 2 ^ n = v) : x.extractLsb' k n = BitVec.ofNat n v := by
  apply BitVec.eq_of_toNat_eq
  rw [BitVec.extractLsb'_toNat, BitVec.toNat_ofNat, Nat.shiftRight_eq_div_pow, h, ← h, Nat.mod_mod]

theorem getLsbD_eq_flag {x : Word} {k : Nat} {b : Bool} (h : x.toNat / 2 ^ k % 2 = b.toNat) : x.getLsbD k = b := by
  rw [BitVec.getLsbD, Nat.testBit_eq_decide_div_mod_eq, h]
  cases b <;> rfl

theorem halfWord_append (c : BitVec 32) : halfWord c 0 ++ halfWord c 1 = c := highWord_append_lowWord c

theorem byteWord_toNat (b : Byte) : (b.setWidth 16 : Word).toNat = b.toNat :=
  BitVec.toNat_setWidth_of_le (by decide)

theorem toList_getD {α : Type} {n : Nat} (v : Vector α n) {i : Nat} (h : i < n) (d : α) : v.toList.getD i d = v[i] := by
  rw [List.getD_eq_getElem _ _ (by simpa using h), Vector.getElem_toList]

/-! ### Mailboxes (R94) -/

theorem Mailbox.windowWord_message (x : Mailbox) (i : Fin 50) : x.windowWord i.val = x.message[i] := by
  rw [Mailbox.windowWord, if_pos i.isLt]
  exact toList_getD _ i.isLt _

/-- Word 50: the state, and in DONE the outcome. -/
theorem Mailbox.windowWord_state (x : Mailbox) : (x.windowWord 50).toNat = x.stateByte := by
  have hlt := x.stateByte_lt
  exact pack_toNat (l := [(0, x.stateByte)]) (by simp) (by omega)

/-- Words 51 to 54 where no flight is recorded. -/
theorem Mailbox.windowWord_noFlight {x : Mailbox} (h : x.state.flight = none) {i : Nat} (hi : 50 < i) : x.windowWord i = 0 := by
  rw [Mailbox.windowWord, if_neg (by omega), if_neg (by omega)]
  cases hs : x.state with
  | free => rfl
  | waiting => rfl
  | inFlight f due => rw [hs] at h; cases h
  | done o f => rw [hs] at h; cases h; rfl

theorem Mailbox.windowWord_flight {x : Mailbox} {f : Flight} (h : x.state.flight = some f) {i : Nat} (hi : 50 < i) :
    x.windowWord i = Mailbox.windowWord.flightWord f i := by
  rw [Mailbox.windowWord, if_neg (by omega), if_neg (by omega)]
  cases hs : x.state with
  | free => rw [hs] at h; cases h
  | waiting => rw [hs] at h; cases h
  | inFlight g due => rw [hs] at h; cases h; rfl
  | done o g => rw [hs] at h; cases h; rfl

/-- Word 51: the index of the flight, and that it is recorded. -/
theorem Mailbox.flightWord_index (f : Flight) : (Mailbox.windowWord.flightWord f 51).toNat = 0x8000 + f.index.val := by
  have hlt := f.index.isLt
  exact pack_toNat (l := [(0, f.index.val), (15, 1)]) (by simp; omega) (by omega)

/-- What a mailbox's window shows (R94): the message, the state, and the flight record where there is one. -/
theorem State.mailboxWords (s : State) (m : Fin 8) :
    let cell (i : Nat) : Word := s.lspRead (mailboxAddress m i)
    let box := s.sched.mailboxes[m]
    (∀ i : Fin 50, cell i.val = box.message[i]) ∧ (cell 50).toNat = box.stateByte ∧
      (box.state.flight = none → cell 51 = 0 ∧ cell 52 = 0 ∧ cell 53 = 0 ∧ cell 54 = 0) ∧
      ∀ r, box.state.flight = some r →
        (cell 51).toNat = 0x8000 + r.index.val ∧ cell 52 ++ cell 53 = r.cycle ∧ (cell 54).toNat = r.tag.toNat := by
  intro cell box
  have hcell (i : Fin 55) : cell i.val = box.windowWord i.val := s.lspRead_mailbox m i
  have h51 : cell 51 = box.windowWord 51 := hcell 51
  have h52 : cell 52 = box.windowWord 52 := hcell 52
  have h53 : cell 53 = box.windowWord 53 := hcell 53
  have h54 : cell 54 = box.windowWord 54 := hcell 54
  refine ⟨fun i => ?_, ?_, fun hnone => ?_, fun r hsome => ?_⟩
  · exact (hcell ⟨i.val, by omega⟩).trans (box.windowWord_message i)
  · exact (congrArg BitVec.toNat (hcell 50)).trans box.windowWord_state
  · rw [h51, h52, h53, h54]
    exact ⟨Mailbox.windowWord_noFlight hnone (by decide), Mailbox.windowWord_noFlight hnone (by decide),
      Mailbox.windowWord_noFlight hnone (by decide), Mailbox.windowWord_noFlight hnone (by decide)⟩
  · rw [h51, h52, h53, h54, Mailbox.windowWord_flight hsome (by decide), Mailbox.windowWord_flight hsome (by decide),
      Mailbox.windowWord_flight hsome (by decide), Mailbox.windowWord_flight hsome (by decide)]
    exact ⟨Mailbox.flightWord_index r, highWord_append_lowWord r.cycle, byteWord_toNat r.tag⟩

/-! ### The inbound and the stamp window (R100, R157) -/

theorem State.inboundWords {s : State} {r : InboundRecord} {rest : List InboundRecord} (h : s.inbound = r :: rest) :
    s.inboundWord 0 = BitVec.ofNat 16 (rest.length + 1) ∧
      (s.inboundWord 1).toNat = r.source.toNat + (if r.broadcast = true then 0x8000 else 0) ∧
      (s.inboundWord 2).toNat = r.tag.toNat ∧ (s.inboundWord 3).toNat = r.length.toNat ∧
      s.inboundWord 4 ++ s.inboundWord 5 = r.arrival ∧
      ∀ k : Fin 48, s.inboundWord (6 + k.val) = r.payload[2 * k.val] ++ r.payload[2 * k.val + 1] := by
  unfold State.inboundWord
  rw [h]
  have hsource := r.source.isLt
  refine ⟨rfl, ?_, byteWord_toNat r.tag, byteWord_toNat r.length, highWord_append_lowWord r.arrival, fun k => ?_⟩
  · exact pack_toNat (l := [(0, r.source.toNat), (15, r.broadcast.toNat)]) (by cases r.broadcast <;> simp) (by split <;> omega)
  · have hk := k.isLt
    dsimp only
    iterate 6 rw [if_neg (by omega)]
    rw [if_pos (by omega), Nat.add_sub_cancel_left, toList_getD _ (by omega), toList_getD _ (by omega)]
    rfl

theorem State.stampWord_count {s : State} (h : s.sig.stamps.length ≤ 4) :
    (s.stampWord 0).toNat = s.sig.stamps.length + (if s.sig.overflow = true then 0x8000 else 0) :=
  pack_toNat (l := [(0, s.sig.stamps.length), (15, s.sig.overflow.toNat)]) (by cases s.sig.overflow <;> simp) (by split <;> omega)

theorem State.stampWords {s : State} {r : Stamp} {rest : List Stamp} (h : s.sig.stamps = r :: rest) :
    (s.stampWord 1).toNat = r.channel.val ∧ s.stampWord 2 ++ s.stampWord 3 = r.cycle ∧ s.stampWord 4 = r.offset := by
  unfold State.stampWord
  rw [h]
  have hchannel := r.channel.isLt
  refine ⟨?_, highWord_append_lowWord r.cycle, rfl⟩
  show (BitVec.ofNat 16 r.channel.val).toNat = r.channel.val
  rw [BitVec.toNat_ofNat, Nat.mod_eq_of_lt (by omega)]

theorem State.stampWord_empty {s : State} (h : s.sig.stamps = []) {i : Nat} (hi : 1 ≤ i) : s.stampWord i = 0 := by
  rw [State.stampWord, if_neg (by omega), h]

/-! ### The census mirror (R134) -/

theorem State.censusHeadWord_count (s : State) :
    (s.censusHeadWord 0).toNat = s.roll.anonymous.toNat + (if s.roll.censusCycle.isSome = true then 0x8000 else 0) := by
  have hcount := s.roll.anonymous.isLt
  exact pack_toNat (l := [(0, s.roll.anonymous.toNat), (15, s.roll.censusCycle.isSome.toNat)])
    (by cases s.roll.censusCycle.isSome <;> simp) (by split <;> omega)

theorem State.censusHeadWords_none {s : State} (h : s.roll.censusCycle = none) :
    s.censusHeadWord 1 = 0 ∧ s.censusHeadWord 2 = 0 := by
  unfold State.censusHeadWord
  rw [h]
  exact ⟨rfl, rfl⟩

theorem State.censusHeadWords_some {s : State} {c : Cycle} (h : s.roll.censusCycle = some c) :
    s.censusHeadWord 1 ++ s.censusHeadWord 2 = c := by
  unfold State.censusHeadWord
  rw [h]
  exact halfWord_append c

theorem Presence.code_lt (x : Presence) : x.code < 4 := by cases x <;> decide

theorem RollStatus.code_lt (x : RollStatus) : x.code < 4 := by cases x <;> decide

/-- Word 1 of a record: the missing count and the times lost. -/
theorem CensusRecord.wordAt_counts (r : CensusRecord) :
    (r.wordAt 1).extractLsb' 0 8 = r.missing ∧ (r.wordAt 1).extractLsb' 8 8 = r.timesLost := by
  have hmissing := r.missing.isLt
  have hlost := r.timesLost.isLt
  have hword : (r.wordAt 1).toNat = r.missing.toNat + r.timesLost.toNat * 256 :=
    pack_toNat (l := [(0, r.missing.toNat), (8, r.timesLost.toNat)]) (by simp) (by omega)
  constructor
  · rw [extractLsb'_eq_ofNat (v := r.missing.toNat) (by rw [hword]; omega), BitVec.ofNat_toNat, BitVec.setWidth_eq]
  · rw [extractLsb'_eq_ofNat (v := r.timesLost.toNat) (by rw [hword]; omega), BitVec.ofNat_toNat, BitVec.setWidth_eq]

/-- A record that has never been listed: its presence alone. -/
theorem CensusRecord.words_unlisted {r : CensusRecord} (h : r.listing = none) :
    (r.wordAt 0).toNat = r.presence.code ∧ ∀ i, 2 ≤ i → r.wordAt i = 0 := by
  have hpresence := r.presence.code_lt
  refine ⟨?_, fun i hi => ?_⟩
  · unfold CensusRecord.wordAt
    rw [h]
    exact pack_toNat (l := [(0, r.presence.code)]) (by simp) (by omega)
  · unfold CensusRecord.wordAt
    rw [h]
    split
    · omega
    · omega
    · rfl

/-- Word 0 of a record that has been listed. -/
theorem CensusRecord.wordAt_listed {r : CensusRecord} {l : Listing} (h : r.listing = some l) :
    (r.wordAt 0).toNat =
      r.presence.code + l.status.code * 4 + l.portWUp.toNat * 16 + l.portEUp.toNat * 32 + l.wrapped.toNat * 64 +
        l.position.val * 256 := by
  have hpresence := r.presence.code_lt
  have hstatus := l.status.code_lt
  have hposition := l.position.isLt
  have hw := l.portWUp.toNat_lt
  have he := l.portEUp.toNat_lt
  have hwrapped := l.wrapped.toNat_lt
  unfold CensusRecord.wordAt
  rw [h]
  exact pack_toNat (l := [(0, r.presence.code), (2, l.status.code), (4, l.portWUp.toNat), (5, l.portEUp.toNat),
    (6, l.wrapped.toNat), (8, l.position.val)]) (by simp) (by omega)

theorem CensusRecord.words_listed {r : CensusRecord} {l : Listing} (h : r.listing = some l) :
    (r.wordAt 0).extractLsb' 2 2 = BitVec.ofNat 2 l.status.code ∧ (r.wordAt 0).getLsbD 4 = l.portWUp ∧
      (r.wordAt 0).getLsbD 5 = l.portEUp ∧ (r.wordAt 0).getLsbD 6 = l.wrapped ∧ (r.wordAt 0).getLsbD 7 = false ∧
      (r.wordAt 0).extractLsb' 8 8 = BitVec.ofNat 8 l.position.val ∧ r.wordAt 2 ++ r.wordAt 3 = l.firstSeen ∧
      r.wordAt 4 ++ r.wordAt 5 = l.lastSeen := by
  have hword := CensusRecord.wordAt_listed h
  have hpresence := r.presence.code_lt
  have hstatus := l.status.code_lt
  have hposition := l.position.isLt
  have hw := l.portWUp.toNat_lt
  have he := l.portEUp.toNat_lt
  have hwrapped := l.wrapped.toNat_lt
  have hseen : r.wordAt 2 ++ r.wordAt 3 = l.firstSeen ∧ r.wordAt 4 ++ r.wordAt 5 = l.lastSeen := by
    unfold CensusRecord.wordAt
    rw [h]
    exact ⟨halfWord_append _, halfWord_append _⟩
  refine ⟨extractLsb'_eq_ofNat ?_, getLsbD_eq_flag ?_, getLsbD_eq_flag ?_, getLsbD_eq_flag ?_, getLsbD_eq_flag ?_,
    extractLsb'_eq_ofNat ?_, hseen⟩
  all_goals rw [hword]
  case refine_5 => rw [Bool.toNat_false]; omega
  all_goals omega

theorem CensusRecord.wordAt_presence (r : CensusRecord) : (r.wordAt 0).extractLsb' 0 2 = BitVec.ofNat 2 r.presence.code := by
  have hpresence := r.presence.code_lt
  apply extractLsb'_eq_ofNat
  cases h : r.listing with
  | none =>
    obtain ⟨hword, -⟩ := CensusRecord.words_unlisted h
    rw [hword]
    omega
  | some l =>
    rw [CensusRecord.wordAt_listed h]
    omega

/-! ### The other windows -/

/-- A bank control word shows HOLD at bit 0 (R61). -/
theorem State.lspRead_control (s : State) (b : Fin 8) :
    s.lspRead (BitVec.ofNat 16 (0x1400 + b.val)) = if s.rx[b].hold = true then 1 else 0 := by
  have hregion : region (BitVec.ofNat 16 (0x1400 + b.val)) = .bankControl b := region_control b
  rw [State.lspRead, hregion]
  dsimp only
  cases s.rx[b].hold <;> rfl

theorem State.lspRead_mask (s : State) : s.lspRead 0x3300#16 = s.maskWord := rfl

theorem State.lspRead_action (s : State) : s.lspRead 0x3301#16 = pack [(0, s.lsp.report.code)] := rfl

theorem State.lspRead_unmapped (s : State) {a : Word} (h : region a = .unmapped) : s.lspRead a = 0 := by
  rw [State.lspRead, h]

/-- Settles O47, region by region of the map. -/
theorem windowsShowTheState : Obligations.WindowsShowTheState := by
  intro s word
  refine ⟨s.lspRead_rx, s.lspRead_control, fun q w => s.lspRead_pub q w, fun m => ?_, ⟨fun i hnone => ?_, fun r rest hr => ?_⟩,
    ⟨fun hroom => ?_, fun i hi hle hnone => ?_, fun r rest hr => ?_⟩, ⟨?_, fun hnone => ?_, fun c hc => ?_⟩, fun st => ?_, ?_, ?_,
    fun a ha => s.lspRead_unmapped (region_unmapped a ha)⟩
  · intro cell box flight
    obtain ⟨hmessage, hstate, hnone, hsome⟩ := s.mailboxWords m
    have hflight : flight = box.state.flight := by
      dsimp only [flight]
      cases box.state <;> rfl
    rw [hflight]
    refine ⟨hmessage, hstate.trans ?_, hnone, hsome⟩
    show box.stateByte = _
    unfold Mailbox.stateByte
    cases box.state with
    | done o f => cases o <;> rfl
    | _ => rfl
  · refine (s.lspRead_inbound i).trans ?_
    rw [State.inboundWord, hnone]
  · obtain ⟨hcount, hsource, htag, hlength, harrival, hpayload⟩ := State.inboundWords hr
    have hword (i : Fin 54) : word (0x3200 + i.val) = s.inboundWord i.val := s.lspRead_inbound i
    have h0 : word 0x3200 = s.inboundWord 0 := hword 0
    have h1 : word 0x3201 = s.inboundWord 1 := hword 1
    have h2 : word 0x3202 = s.inboundWord 2 := hword 2
    have h3 : word 0x3203 = s.inboundWord 3 := hword 3
    have h4 : word 0x3204 = s.inboundWord 4 := hword 4
    have h5 : word 0x3205 = s.inboundWord 5 := hword 5
    rw [h0, h1, h2, h3, h4, h5]
    refine ⟨hcount, hsource, htag, hlength, harrival, fun k => ?_⟩
    have hk := hword ⟨6 + k.val, by omega⟩
    rw [← hpayload k, ← hk, ← Nat.add_assoc]
  · exact (congrArg BitVec.toNat (s.lspRead_stamp 0)).trans (State.stampWord_count hroom)
  · exact (s.lspRead_stamp ⟨i, by omega⟩).trans (State.stampWord_empty hnone hi)
  · have h1 : word 0x3281 = s.stampWord 1 := s.lspRead_stamp 1
    have h2 : word 0x3282 = s.stampWord 2 := s.lspRead_stamp 2
    have h3 : word 0x3283 = s.stampWord 3 := s.lspRead_stamp 3
    have h4 : word 0x3284 = s.stampWord 4 := s.lspRead_stamp 4
    rw [h1, h2, h3, h4]
    exact State.stampWords hr
  · exact (congrArg BitVec.toNat (s.lspRead_censusHead 0)).trans s.censusHeadWord_count
  · obtain ⟨h1, h2⟩ := State.censusHeadWords_none hnone
    exact ⟨(s.lspRead_censusHead 1).trans h1, (s.lspRead_censusHead 2).trans h2⟩
  · have h1 : word 0x0101 = s.censusHeadWord 1 := s.lspRead_censusHead 1
    have h2 : word 0x0102 = s.censusHeadWord 2 := s.lspRead_censusHead 2
    rw [h1, h2]
    exact State.censusHeadWords_some hc
  · intro cell r
    have hcell (i : Fin 6) : cell i.val = r.wordAt i.val := s.lspRead_census st i
    have h0 : cell 0 = r.wordAt 0 := hcell 0
    have h1 : cell 1 = r.wordAt 1 := hcell 1
    have h2 : cell 2 = r.wordAt 2 := hcell 2
    have h3 : cell 3 = r.wordAt 3 := hcell 3
    have h4 : cell 4 = r.wordAt 4 := hcell 4
    have h5 : cell 5 = r.wordAt 5 := hcell 5
    rw [h0, h1, h2, h3, h4, h5]
    obtain ⟨hmissing, hlost⟩ := r.wordAt_counts
    refine ⟨r.wordAt_presence, hmissing, hlost, fun hnone => ?_, fun l hl => CensusRecord.words_listed hl⟩
    obtain ⟨hword, hzero⟩ := CensusRecord.words_unlisted hnone
    exact ⟨hword.trans_lt r.presence.code_lt, hzero 2 (by decide), hzero 3 (by decide), hzero 4 (by decide), hzero 5 (by decide)⟩
  · show s.maskWord.toNat = s.att.mask.toNat
    exact BitVec.toNat_setWidth_of_le (by decide)
  · show (pack [(0, s.lsp.report.code)]).toNat = _
    cases s.lsp.report <;> rfl

end Sys2Proof.Machine
end


section
/-! PROOFS. A word written in a WRITE transaction (R61, R68, R94, R159, R161, R162), and the actions on banks and mailboxes (R62, R69,
R95, R96, R164). -/

namespace Sys2Proof.Machine

/-! ### A word is served, and the address moves on (R161) -/

theorem State.servesWrite_of_write {s : State} {x : Txn} (hx : s.lsp.txn = some x) (hk : x.kind = .write) : s.servesWrite = true := by
  rw [State.servesWrite, hx]
  exact decide_eq_true hk

theorem State.servesWrite_of_other {s : State} {x : Txn} (hx : s.lsp.txn = some x) (hk : x.kind ≠ .write) : s.servesWrite = false := by
  rw [State.servesWrite, hx]
  exact decide_eq_false hk

/-- In a WRITE transaction the word does what it does, which leaves the local port alone, and the address moves on past it. -/
theorem State.lspWrite_inWrite {s : State} {x : Txn} (hx : s.lsp.txn = some x) (hk : x.kind = .write) (a : Word)
    {act : State → State} (hlsp : (act s).lsp = s.lsp) :
    s.lspWrite a act = { act s with lsp := { s.lsp with txn := some { x with address := nextAddress a } } } := by
  rw [State.lspWrite_served s a act (State.servesWrite_of_write hx hk), State.moveOn, hlsp, hx]
  rfl

theorem PubBank.setDraft_upd (b : PubBank) (w : Fin 128) (v : Word) :
    b.setDraft (upd b.draft w v) = if b.pIsDraft = true then { b with p := upd b.p w v } else { b with q := upd b.q w v } := by
  unfold PubBank.setDraft PubBank.draft
  cases b.pIsDraft <;> rfl

/-- A window reads what is written to DRAFT; no other word of a window, and no LIVE buffer, has moved (R68). -/
theorem State.writeDraft_shows (s : State) (p q : Fin 4) (w i : Fin 128) (v : Word) :
    (s.writeDraft p w v).lspRead (pubAddress q i) = (if q = p ∧ i = w then v else s.lspRead (pubAddress q i)) ∧
      (s.writeDraft p w v).pub[q].live = s.pub[q].live := by
  have hpub : (s.writeDraft p w v).pub[q] = if q = p then s.pub[p].setDraft (upd s.pub[p].draft w v) else s.pub[q] :=
    upd_get _ _ _ _
  rw [State.lspRead_pub, State.lspRead_pub, hpub]
  by_cases hq : q = p
  · subst hq
    rw [if_pos rfl, PubBank.setDraft_draft, PubBank.setDraft_live, upd_get]
    simp only [true_and, and_true]
  · rw [if_neg hq, if_neg fun h => hq h.1]
    exact ⟨rfl, rfl⟩

/-- Settles O48. -/
theorem writtenWords : Obligations.WrittenWords := by
  refine ⟨?_, ?_, ?_⟩
  · intro dt x s hx hk moved
    have served (a : Word) {act : State → State} {t : State} (ht : act (s.elapse dt) = t) (hlsp : t.lsp = s.lsp) :
        (.next ((s.elapse dt).lspWrite a act) : Result) = .next { t with lsp := moved a } := by
      subst ht
      exact congrArg Host.Outcome.next (State.lspWrite_inWrite (s := s.elapse dt) hx hk a hlsp)
    refine ⟨fun p w v => ?_, fun b v => served _ rfl rfl, fun m w v => ?_, fun v => served _ rfl rfl, fun a => served _ rfl rfl⟩
    · refine (served (pubAddress p w) (act := fun t => t.writeDraft p w v) rfl rfl).trans ?_
      rw [State.writeDraft, PubBank.setDraft_upd]
      rfl
    · refine (served (mailboxAddress m w.val) (act := fun t => t.writeMessage m w v) rfl ?_).trans (congrArg Host.Outcome.next ?_)
      · unfold State.writeMessage
        dsimp only
        split <;> rfl
      · unfold State.writeMessage
        dsimp only
        rw [State.elapse_sched]
        split <;> rfl
  · intro s p q w i v
    exact s.writeDraft_shows p q w i v
  · intro dt x p w b m i a v o code s hx hk
    have hunserved : (s.elapse dt).servesWrite = false := State.servesWrite_of_other (s := s.elapse dt) hx hk
    have word (a : Word) (act : State → State) : (.next ((s.elapse dt).lspWrite a act) : Result) = .next (s.elapse dt) :=
      congrArg Host.Outcome.next (State.lspWrite_ignored _ a act hunserved)
    have action (act : State → State) : (.next ((s.elapse dt).localAction act) : Result) = .next (s.elapse dt) :=
      congrArg Host.Outcome.next (State.localAction_ignored _ act hunserved)
    simp only [List.forall_mem_cons, List.not_mem_nil, false_imp_iff, implies_true, and_true]
    exact ⟨word _ _, word _ _, word _ _, word _ _, word _ _, action _, action _, action _, action _, action _, action _, action _,
      action _, action _, action _⟩

/-! ### A local action names its report (R164) -/

/-- The tap as the transaction's first action word meets it: the address stays at that word (R161). -/
def State.acting (s : State) (dt : Nat) (x : Txn) : State :=
  { s with now := s.now + dt, lsp := { s.lsp with txn := some { x with acted := true, address := actionAddress } } }

theorem State.localAction_first {s : State} {x : Txn} (hx : s.lsp.txn = some x) (hk : x.kind = .write) (ha : x.acted = false)
    (dt : Nat) (act : State → State) : (s.elapse dt).localAction act = act (s.acting dt x) := by
  have hacted : (s.elapse dt).alreadyActed = false := by
    rw [State.alreadyActed, State.elapse_lsp, hx]
    exact ha
  rw [State.localAction_acts _ _ (State.servesWrite_of_write (s := s.elapse dt) hx hk) hacted, State.markActed, State.elapse_lsp, hx]
  rfl

theorem State.finish_noError (t : State) {r : Report} (h : r.isError = false) :
    (t.reported r).finish = { t with lsp := { t.lsp with report := r } } :=
  if_neg (ne_true_of_eq_false h)

theorem State.finish_error (t : State) {r : Report} (h : r.isError = true) :
    (t.reported r).finish = { t with lsp := { t.lsp with report := r }, att := { t.att with localError := true } } :=
  if_pos h

theorem actionOperand_of_eq {n : Nat} [NeZero n] {v : BitVec 12} {b : Fin n} (h : v.toNat = b.val) : actionOperand n v = some b := by
  rw [actionOperand, if_pos (h ▸ b.isLt), h, Fin.ofNat_val_eq_self]

theorem actionOperand_of_le {n : Nat} [NeZero n] {v : BitVec 12} (h : n ≤ v.toNat) : actionOperand n v = none :=
  if_neg (Nat.not_lt.mpr h)

/-- The destination as a number: the raw byte against this tap's own (R95). -/
theorem stationByte_toNat (st : Station) : (stationByte st).toNat = st.toNat :=
  BitVec.toNat_setWidth_of_le (by decide)

theorem State.sendable_iff (s : State) (m : Mailbox) :
    s.sendable m = true ↔
      m.dest.toNat ≤ 63 ∧ m.dest.toNat ≠ s.rst.station.toNat ∧ m.cls = 0x02#8 ∧ m.length.toNat ≤ 96 := by
  have hown : m.dest ≠ stationByte s.rst.station ↔ m.dest.toNat ≠ s.rst.station.toNat := by
    rw [← stationByte_toNat, BitVec.toNat_ne]
  simp only [State.sendable, Bool.and_eq_true, decide_eq_true_eq, hown, and_assoc]

theorem Mailbox.isDone_iff (m : Mailbox) : m.isDone = true ↔ ∃ o f, m.state = .done o f := by
  unfold Mailbox.isDone
  cases m.state <;> simp

/-! ### The actions -/

/-- A take that finds ready-new set exchanges READY and FRONT (R62). -/
theorem RxBank.take_new {b : RxBank} (h : b.readyNew = true) :
    b.take =
      { b with front := b.ready, ready := b.front, frontStamp := b.readyStamp, readyStamp := b.frontStamp, readyNew := false } :=
  if_pos h

/-- TAKE (R62). -/
theorem State.takeAction_cases (s : State) {v : BitVec 12} :
    (∀ b : Fin 8, v.toNat = b.val →
      s.takeAction v =
        if s.rx[b].readyNew = true then State.reported { s with rx := upd s.rx b s.rx[b].take } .accepted
        else s.reported .nothingNew) ∧
      (8 ≤ v.toNat → s.takeAction v = s.reported .badOperand) := by
  unfold State.takeAction
  refine ⟨fun b h => ?_, fun h => ?_⟩
  · rw [actionOperand_of_eq h]
  · rw [actionOperand_of_le h]

/-- POST (R69). -/
theorem State.postAction_cases (s : State) {v : BitVec 12} :
    (∀ p : Fin 4, v.toNat = p.val →
      s.postAction v = State.reported { s with pub := upd s.pub p { s.pub[p] with posted := true } } .accepted) ∧
      (4 ≤ v.toNat → s.postAction v = s.reported .badOperand) := by
  unfold State.postAction
  refine ⟨fun p h => ?_, fun h => ?_⟩
  · rw [actionOperand_of_eq h]
  · rw [actionOperand_of_le h]

/-- SEND, CANCEL and CLEAR on the mailbox that the operand names (R95, R96). -/
theorem State.mailboxActions (s : State) {v : BitVec 12} {m : Fin 8} (h : v.toNat = m.val) :
    s.sendAction v =
        (if (s.mailbox m).state = .free ∧ s.sendable (s.mailbox m) = true then (s.setMailbox m .waiting).reported .accepted
        else s.reported .refused) ∧
      s.cancelAction v =
        (if (s.mailbox m).state = .waiting then (s.setMailbox m .free).reported .accepted else s.reported .refused) ∧
      s.clearAction v =
        (if (s.mailbox m).isDone = true then (s.setMailbox m .free).reported .accepted else s.reported .refused) := by
  unfold State.sendAction State.cancelAction State.clearAction
  rw [actionOperand_of_eq h]
  exact ⟨rfl, rfl, rfl⟩

/-- An action that reports no error, and leaves the local port alone but for the report. -/
theorem State.localAction_reports {s : State} {x : Txn} (hx : s.lsp.txn = some x) (hk : x.kind = .write) (ha : x.acted = false)
    (dt : Nat) (act : State → Acted) {t : State} {r : Report} (h : act (s.acting dt x) = t.reported r) (hr : r.isError = false) :
    (.next ((s.elapse dt).localAction fun u => (act u).finish) : Result) = .next { t with lsp := { t.lsp with report := r } } := by
  rw [State.localAction_first hx hk ha, h, State.finish_noError t hr]

/-- An action that does nothing but report an error (R164). -/
theorem State.localAction_fails {s : State} {x : Txn} (hx : s.lsp.txn = some x) (hk : x.kind = .write) (ha : x.acted = false)
    (dt : Nat) (act : State → Acted) {t : State} {r : Report} (h : act (s.acting dt x) = t.reported r) (hr : r.isError = true) :
    (.next ((s.elapse dt).localAction fun u => (act u).finish) : Result) =
      .next { t with lsp := { t.lsp with report := r }, att := { t.att with localError := true } } := by
  rw [State.localAction_first hx hk ha, h, State.finish_error t hr]

/-- Settles O50. -/
theorem bankAndMailboxActions : Obligations.BankAndMailboxActions := by
  refine ⟨?_, ?_, ?_⟩
  · intro dt x v s hx hk ha acted
    obtain ⟨htake, htakeBad⟩ := (s.acting dt x).takeAction_cases (v := v)
    obtain ⟨hpost, hpostBad⟩ := (s.acting dt x).postAction_cases (v := v)
    refine ⟨fun b hb hnew => ?_, fun b hb hold => ?_, fun hv => ?_, fun p hp => ?_, fun hv => ?_⟩
    · have hact := (htake b hb).trans (if_pos hnew)
      rw [RxBank.take_new (b := (s.acting dt x).rx[b]) hnew] at hact
      exact State.localAction_reports hx hk ha dt (State.takeAction · v) hact rfl
    · exact State.localAction_reports hx hk ha dt (State.takeAction · v) ((htake b hb).trans (if_neg (ne_true_of_eq_false hold))) rfl
    · exact State.localAction_fails hx hk ha dt (State.takeAction · v) (htakeBad hv) rfl
    · exact State.localAction_reports hx hk ha dt (State.postAction · v) (hpost p hp) rfl
    · exact State.localAction_fails hx hk ha dt (State.postAction · v) (hpostBad hv) rfl
  · intro dt x v m s hx hk ha hv acted box valid
    obtain ⟨hsend, -, -⟩ := (s.acting dt x).mailboxActions hv
    have hvalid : valid ↔ ((s.acting dt x).mailbox m).state = .free ∧ (s.acting dt x).sendable ((s.acting dt x).mailbox m) = true :=
      and_congr_right' (State.sendable_iff _ _).symm
    refine ⟨fun h => ?_, fun h => ?_⟩
    · exact State.localAction_reports hx hk ha dt (State.sendAction · v) (hsend.trans (if_pos (hvalid.mp h))) rfl
    · exact State.localAction_fails hx hk ha dt (State.sendAction · v) (hsend.trans (if_neg (mt hvalid.mpr h))) rfl
  · intro dt x v m s hx hk ha hv acted box freed refused
    obtain ⟨-, hcancel, hclear⟩ := (s.acting dt x).mailboxActions hv
    refine ⟨fun h => ?_, fun h => ?_, fun h => ?_, fun h => ?_⟩
    · exact State.localAction_reports hx hk ha dt (State.cancelAction · v) (hcancel.trans (if_pos h)) rfl
    · exact State.localAction_fails hx hk ha dt (State.cancelAction · v) (hcancel.trans (if_neg h)) rfl
    · exact State.localAction_reports hx hk ha dt (State.clearAction · v) (hclear.trans (if_pos ((Mailbox.isDone_iff _).mpr h))) rfl
    · refine State.localAction_fails hx hk ha dt (State.clearAction · v) (hclear.trans (if_neg fun hdone => ?_)) rfl
      obtain ⟨o, f, hstate⟩ := (Mailbox.isDone_iff _).mp hdone
      exact h o f hstate

end Sys2Proof.Machine
end

section
/-! PROOFS. The publish unit: when it writes into a BLOCK (R75), and what the written frame holds (R76). -/

namespace Sys2Proof

/-! ### The words of a written frame (R76) -/

/-- The words of a segment that no write names leave as they came. -/
theorem BlockFrame.written_word_kept {ws : List Machine.SegWrite} {i : Fin 32} (h : ∀ w ∈ ws, w.segment ≠ i.val / 8)
    (f : BlockFrame) (own : Station) : (f.written own ws).words[i] = f.words[i] := by
  have hfind : (ws.find? fun x => x.segment = i.val / 8) = none := by simpa using h
  simp [BlockFrame.written, hfind]

/-- The words of a segment that some write names are those of such a write. -/
theorem BlockFrame.written_word_replaced {ws : List Machine.SegWrite} {i : Fin 32} (h : ∃ w ∈ ws, w.segment = i.val / 8)
    (f : BlockFrame) (own : Station) :
    ∃ w ∈ ws, w.segment = i.val / 8 ∧ (f.written own ws).words[i] = w.words[Fin.ofNat 8 i.val] := by
  have hfound : (ws.find? fun x => x.segment = i.val / 8).isSome = true := List.find?_isSome.mpr (by simpa using h)
  obtain ⟨w, hfind⟩ := Option.isSome_iff_exists.mp hfound
  refine ⟨w, List.mem_of_find?_eq_some hfind, by simpa using List.find?_some hfind, ?_⟩
  simp [BlockFrame.written, hfind, Nat.mod_lt]

end Sys2Proof

namespace Sys2Proof.Machine

/-! ### The decision as the number arrives (R75) -/

/-- The beginning of a frame at a listening port leaves there what is decided of it now. -/
theorem exec_frameBegins_decides {p : Port} {lead : Lead} {s : State} (dt : Nat) (h : s.listens p) (he : lead ≠ .echo)
    (hc : lead ≠ .openCount) (ho : lead ≠ .header 3#2 ∨ s.route p ≠ some p) :
    ∃ t : State, exec (.frameBeginsToArrive dt p lead) s = .next t ∧ (t.unit p).arriving = some (s.decides p lead) := by
  have hl : (s.elapse dt).listens p := by cases p <;> exact h
  have hdecides : (s.elapse dt).decides p lead = s.decides p lead := by cases p <;> rfl
  have harrival : (s.elapse dt).arrivalOf p lead = s.decides p lead := (State.arrivalOf_listening hl he ho).trans hdecides
  obtain ⟨hb, -, ha, -⟩ := hl
  have hbegins : (s.elapse dt).frameBegins p lead = (s.elapse dt).beginArrival p lead := by
    rw [State.frameBegins_of_tapState_ne hb, ha]
    exact congrArg ((s.elapse dt).beginArrival p) (if_neg hc)
  refine ⟨_, rfl, ?_⟩
  rw [hbegins, State.beginArrival_arriving, harrival]

/-- Nothing is written into a BLOCK out of place, or outside ONLINE. -/
theorem State.decides_block_elsewhere {s : State} {p : Port} {n : Byte}
    (h : ¬(s.trk.record = .inTrain p ∧ s.trk.expected = some (.block n.toNat) ∧ s.ctl.tapState = .online)) :
    (s.decides p (.block n)).capture = false ∧ (s.decides p (.block n)).writes = [] := by
  have hplace : (decide (s.trk.record = .inTrain p) && decide (s.trk.expected = some (.block n.toNat)) &&
      decide (s.ctl.tapState = .online)) = false := by
    simpa only [Bool.and_eq_false_iff, decide_eq_false_iff_not, not_and_or, or_assoc] using h
  simp [State.decides, hplace]

/-! ### The writes -/

/-- An ON_POST entry writes in the train whose header swapped its bank; a CONTINUOUS one in every train (R79). -/
theorem State.mayPublish_iff (s : State) (e : PubEntry) :
    s.mayPublish e = true ↔ e.mode = .continuous ∨ s.pub[e.bank].postedNow = true := by
  unfold State.mayPublish
  cases e.mode <;> simp

/-- Eight words are the LIVE buffer's from an offset on, word by word (R72). -/
theorem liveWords_eq_iff (b : PubBank) (off : Nat) (v : Vector Word 8) :
    v = liveWords b off ↔ ∀ k : Fin 8, v[k] = b.live.toList.getD (off + k.val) 0 := by
  constructor
  · rintro rfl k
    simp [liveWords]
  · intro h
    refine Vector.ext fun i hi => ?_
    simpa [liveWords] using h ⟨i, hi⟩

/-- An entry writes each segment of its range, from the corresponding words of its bank's LIVE buffer (R73, R76). -/
theorem State.mem_entryWrites (s : State) (e : PubEntry) (w : SegWrite) :
    w ∈ s.entryWrites e ↔
      ∃ j, j < e.count.val ∧ w.segment = e.first.val + j ∧
        ∀ k : Fin 8, w.words[k] = s.pub[e.bank].live.toList.getD (8 * e.slot.val + 8 * j + k.val) 0 := by
  obtain ⟨segment, words⟩ := w
  simp only [State.entryWrites, List.mem_map, List.mem_range, SegWrite.mk.injEq]
  refine exists_congr fun j => and_congr_right' (and_congr eq_comm ?_)
  exact eq_comm.trans (liveWords_eq_iff s.pub[e.bank] (8 * e.slot.val + 8 * j) words)

/-- The writes into a block are those of the active entries on it whose mode lets them write (R75). -/
theorem State.mem_publishWrites (s : State) (n : Byte) (w : SegWrite) :
    w ∈ s.publishWrites n ↔
      ∃ i : Fin 16, s.mgmt.active.pubs[i].valid = true ∧ s.mgmt.active.pubs[i].block.val = n.toNat ∧
        s.mayPublish s.mgmt.active.pubs[i] = true ∧ w ∈ s.entryWrites s.mgmt.active.pubs[i] := by
  simp only [State.publishWrites, List.mem_flatMap, List.mem_filter, Vector.mem_toList_iff, Bool.and_eq_true, decide_eq_true_eq]
  constructor
  · rintro ⟨e, ⟨he, ⟨hvalid, hblock⟩, hmode⟩, hw⟩
    obtain ⟨i, hi, rfl⟩ := Vector.mem_iff_getElem.mp he
    exact ⟨⟨i, hi⟩, hvalid, hblock, hmode, hw⟩
  · rintro ⟨i, hvalid, hblock, hmode, hw⟩
    exact ⟨_, ⟨Vector.getElem_mem i.isLt, ⟨hvalid, hblock⟩, hmode⟩, hw⟩

/-! ### Where nothing is written, and where something is (R76) -/

/-- A frame with no writing entry passes unchanged. -/
theorem State.published_nil (s : State) (f : BlockFrame) : s.published f [] = f := rfl

theorem State.published_of_ne_nil {ws : List SegWrite} (h : ws ≠ []) (s : State) (f : BlockFrame) :
    s.published f ws = f.written s.rst.station ws := if_neg (mt List.isEmpty_iff.mp h)

/-- Settles O17: what is decided as the number arrives, the members of the writes, and the frame field by field. -/
theorem publishUnitWrites : Obligations.PublishUnitWrites := by
  refine ⟨fun dt p n s h => ?_, fun s n w => ?_, fun s f ws => ⟨?_, fun hws => ?_⟩⟩
  · obtain ⟨t, ht, harriving⟩ := exec_frameBegins_decides dt h (lead := .block n) (by simp) (by simp) (.inl (by simp))
    exact ⟨t, _, ht, harriving, fun ⟨hrec, hex, honline⟩ => State.decides_block hrec hex honline,
      State.decides_block_elsewhere⟩
  · rw [s.mem_publishWrites]
    simp only [State.mayPublish_iff, State.mem_entryWrites]
    rfl
  · rintro rfl
    exact s.published_nil f
  · have hmap (i : Nat) (hi : i < 64) :
        (s.published f ws).thisMap.getLsbD i = (f.thisMap.getLsbD i || decide (i = s.rst.station.toNat)) := by
      rw [Bool.eq_iff_iff, s.published_thisMap f ws hi]
      simp [hws]
    refine ⟨s.published_number f ws, s.published_lastMap f ws, hmap, fun i => ?_⟩
    rw [State.published_of_ne_nil hws]
    exact ⟨fun h => f.written_word_kept h _, fun h => f.written_word_replaced h _⟩

end Sys2Proof.Machine
end


section
/-! PROOFS. The queues, the stamp FIFO and the error windows within their sizes (R99, R109, R137, R156): what the law reads, and the
port units, the closes and the headers, which move the FIFO and the windows alone. -/

namespace Sys2Proof.Machine

/-! ### What keeps the law -/

/-- The law with room for `n` responses: a request is executed in a tap that holds 3 at most, and its response is the next. -/
def State.QueuesWithin (n : Nat) (s : State) : Prop :=
  s.mgmt.responses.length ≤ n ∧ s.inbound.length ≤ 8 ∧ s.sig.stamps.length ≤ 4 ∧ s.portW.window.length ≤ 64 ∧
    s.portE.window.length ≤ 64

theorem State.queueLaw_iff (s : State) : s.QueueLaw ↔ s.QueuesWithin 4 := Iff.rfl

/-- What the law reads of the tap: the queues, the stamp FIFO and the two windows. -/
def State.queues (s : State) : List Response × List InboundRecord × List Stamp × List Bool × List Bool :=
  (s.mgmt.responses, s.inbound, s.sig.stamps, s.portW.window, s.portE.window)

theorem State.QueuesWithin.of_queues {n : Nat} {s t : State} (h : s.QueuesWithin n) (e : t.queues = s.queues) :
    t.QueuesWithin n := by
  simp only [State.queues, Prod.mk.injEq] at e
  obtain ⟨hresponses, hinbound, hstamps, hwest, heast⟩ := e
  unfold State.QueuesWithin
  rw [hresponses, hinbound, hstamps, hwest, heast]
  exact h

/-- A port unit whose window holds 64 at most takes the place of another. -/
theorem State.QueuesWithin.setUnit {n : Nat} {s : State} (h : s.QueuesWithin n) (p : Port)
    {u : PortUnit} (hu : u.window.length ≤ 64) :
    (s.setUnit p u).QueuesWithin n := by
  obtain ⟨hresponses, hinbound, hstamps, hwest, heast⟩ := h
  cases p with
  | w => exact ⟨hresponses, hinbound, hstamps, hu, heast⟩
  | e => exact ⟨hresponses, hinbound, hstamps, hwest, hu⟩

theorem State.QueuesWithin.window {n : Nat} {s : State} (h : s.QueuesWithin n) (p : Port) : (s.unit p).window.length ≤ 64 := by
  obtain ⟨-, -, -, hwest, heast⟩ := h
  cases p with
  | w => exact hwest
  | e => exact heast

theorem State.QueuesWithin.modUnit {n : Nat} {s : State} (h : s.QueuesWithin n) (p : Port) {f : PortUnit → PortUnit}
    (hf : ∀ u : PortUnit, u.window.length ≤ 64 → (f u).window.length ≤ 64) : (s.modUnit p f).QueuesWithin n :=
  h.setUnit p (hf _ (h.window p))

/-- A change of a port unit that leaves its window. -/
theorem State.QueuesWithin.keepUnit {n : Nat} {s : State} (h : s.QueuesWithin n) (p : Port) (f : PortUnit → PortUnit)
    (hf : ∀ u : PortUnit, (f u).window = u.window := by exact fun _ => rfl) : (s.modUnit p f).QueuesWithin n :=
  h.modUnit p fun u hu => (congrArg List.length (hf u)).trans_le hu

/-- What every pass of a fold keeps, the fold keeps. -/
theorem State.QueuesWithin.foldl {n : Nat} {γ : Type} {g : State → γ → State}
    (hg : ∀ (t : State) (x : γ), t.QueuesWithin n → (g t x).QueuesWithin n) (l : List γ) {s : State} (h : s.QueuesWithin n) :
    (l.foldl g s).QueuesWithin n := by
  induction l generalizing s with
  | nil => exact h
  | cons x l ih => exact ih (hg s x h)

/-- A choice of which both sides keep the law, as where BYPASS stops a command. -/
theorem State.QueuesWithin.ite {n : Nat} {s t : State} (c : Prop) [Decidable c] (hs : s.QueuesWithin n) (ht : t.QueuesWithin n) :
    (if c then s else t).QueuesWithin n := by
  split
  · exact hs
  · exact ht

section
variable {n : Nat} {s : State}

theorem State.QueuesWithin.elapse (h : s.QueuesWithin n) (dt : Nat) : (s.elapse dt).QueuesWithin n := h

theorem State.QueuesWithin.reach (h : s.QueuesWithin n) (t : Nat) : (s.reach t).QueuesWithin n := h

theorem State.QueuesWithin.count (h : s.QueuesWithin n) (f : TapCounters → TapCounters) : (s.count f).QueuesWithin n := h

theorem State.QueuesWithin.emit (h : s.QueuesWithin n) (p : Port) (x : SentContent) : (s.emit p x).QueuesWithin n := h

theorem State.QueuesWithin.modTrk (h : s.QueuesWithin n) (f : Tracker → Tracker) : (s.modTrk f).QueuesWithin n := h

theorem State.QueuesWithin.setSticky (h : s.QueuesWithin n) (c : Sticky) : (s.setSticky c).QueuesWithin n := h

theorem State.QueuesWithin.endRecord (h : s.QueuesWithin n) : s.endRecord.QueuesWithin n := h

theorem State.QueuesWithin.withRx (h : s.QueuesWithin n) (v : Vector RxBank 8) : ({ s with rx := v } : State).QueuesWithin n := h

theorem State.QueuesWithin.withSubs (h : s.QueuesWithin n) (v : Vector SubRecord 32) :
    ({ s with subs := v } : State).QueuesWithin n := h

theorem State.QueuesWithin.withSched (h : s.QueuesWithin n) (x : Scheduler) : ({ s with sched := x } : State).QueuesWithin n := h

/-- The management unit, but for its response queue. -/
theorem State.QueuesWithin.withMgmt (h : s.QueuesWithin n) {x : Management} (hx : x.responses = s.mgmt.responses) :
    ({ s with mgmt := x } : State).QueuesWithin n :=
  h.of_queues (by simp only [State.queues, hx])

theorem State.QueuesWithin.setTapState (h : s.QueuesWithin n) (x : TapState) : (s.setTapState x).QueuesWithin n := by
  unfold State.setTapState
  split
  · exact h
  · exact h

/-! ### Edges and events: the STAMP user makes a record where the FIFO has room (R156) -/

theorem State.QueuesWithin.fire (h : s.QueuesWithin n) (hit : Fin 21 → Bool) : (s.fire hit).QueuesWithin n := by
  obtain ⟨hresponses, hinbound, hstamps, hwindows⟩ := h
  exact ⟨hresponses, hinbound, s.edgeSignals_length hit hstamps, hwindows⟩

theorem State.QueuesWithin.raise (h : s.QueuesWithin n) (x : Source) : (s.raise x).QueuesWithin n := h.fire _

theorem State.QueuesWithin.ringChange (h : s.QueuesWithin n) : s.ringChange.QueuesWithin n := h.raise .ringChange

/-! ### A close: it moves the stamp FIFO alone, by the events it raises (R33, R48 to R50, R87, R133) -/

theorem State.QueuesWithin.completeBank (h : s.QueuesWithin n) (b : Fin 8) : (s.completeBank b).QueuesWithin n := by
  have raised := State.QueuesWithin.raise (s := { s with rx := upd s.rx b (s.rx[b].complete s.trk.lastCycle) }) h (.bankReady b)
  exact .ite _ raised raised

theorem State.QueuesWithin.judgeBank (h : s.QueuesWithin n) (b : Fin 8) : (s.judgeBank b).QueuesWithin n :=
  .ite _ (.ite _ (h.completeBank b) h) h

theorem State.QueuesWithin.ageEntry (h : s.QueuesWithin n) (e : Fin 32) : (s.ageEntry e).QueuesWithin n := by
  obtain ⟨hfresh, hstale, hkept⟩ := s.ageEntry_cases e
  have aged (c : TapCounters) (a : Attention) :
      ({ s with subs := upd s.subs e (s.agedRecord e), ctr := c, att := a } : State).QueuesWithin n := h
  cases hf : s.turnsFresh e with
  | true =>
    obtain ⟨-, heq⟩ := hfresh hf
    rw [heq]
    exact (aged s.ctr s.att).raise _
  | false =>
    cases hs : s.turnsStale e with
    | true =>
      obtain ⟨-, heq⟩ := hstale hs
      rw [heq]
      exact (aged _ _).raise _
    | false =>
      rw [hkept hf hs]
      exact aged s.ctr s.att

theorem State.QueuesWithin.updateCensus (h : s.QueuesWithin n) (l : List RollEntry) : (s.updateCensus l).QueuesWithin n := by
  have updated : (s.withCensus l).QueuesWithin n := h.of_queues (by simp only [State.queues, State.withCensus])
  exact .ite _ (updated.raise _) updated

theorem State.QueuesWithin.settle (h : s.QueuesWithin n) (m : Fin 8) (o : MsgOutcome) : (s.settle m o).QueuesWithin n := by
  have set (x : MailboxState) : (s.setMailbox m x).QueuesWithin n := h
  exact (set _).raise _

theorem State.QueuesWithin.closeMailbox (h : s.QueuesWithin n) (missed : Bool) (m : Fin 8) :
    (State.closeMailbox missed s m).QueuesWithin n := by
  unfold State.closeMailbox
  split
  · split
    · exact h.settle m _
    · exact h
  · exact h

theorem State.QueuesWithin.unconfirmedAtClose (h : s.QueuesWithin n) (missed : Bool) :
    (s.unconfirmedAtClose missed).QueuesWithin n :=
  .foldl (g := State.closeMailbox missed) (fun _ m j => j.closeMailbox missed m) _ h

theorem State.QueuesWithin.censusFor (h : s.QueuesWithin n) (k : CloseKind) (l : Option (List RollEntry)) :
    (s.censusFor k l).QueuesWithin n := by
  have judged : (s.judgedFor k).QueuesWithin n :=
    .ite _ (.foldl (g := State.judgeBank) (fun _ b j => j.judgeBank b) _ (h.count _)) (h.count _)
  have aged : (s.judgedFor k).ageAll.QueuesWithin n := .foldl (g := State.ageEntry) (fun _ e j => j.ageEntry e) _ judged
  have cleared : (s.judgedFor k).ageAll.clearCycleFlags.QueuesWithin n :=
    aged.of_queues (by simp only [State.queues, State.clearCycleFlags])
  cases l with
  | none => exact cleared
  | some x => exact cleared.updateCensus x

theorem State.QueuesWithin.close (h : s.QueuesWithin n) (k : CloseKind) (l : Option (List RollEntry)) :
    (s.close k l).QueuesWithin n := by
  have settled := (h.censusFor k l).unconfirmedAtClose (decide (k = .missed))
  rw [State.close_stages]
  generalize (s.censusFor k l).unconfirmedAtClose (decide (k = .missed)) = t at settled
  have ended : t.countRestartClose.endRecord.QueuesWithin n := settled
  cases k with
  | missed => exact settled
  | _ => exact ended.raise _

/-! ### Mailboxes -/

theorem State.QueuesWithin.dueMailbox (h : s.QueuesWithin n) (f : HeaderFrame) (m : Fin 8) :
    (State.dueMailbox f s m).QueuesWithin n := by
  unfold State.dueMailbox
  split
  · split
    · exact h.settle m _
    · exact h
  · exact h

theorem State.QueuesWithin.abandonMailbox (h : s.QueuesWithin n) (m : Fin 8) : (s.abandonMailbox m).QueuesWithin n := by
  unfold State.abandonMailbox
  split
  · exact h.settle m _
  · exact h.settle m _
  · exact h

theorem State.QueuesWithin.enterFaulted (h : s.QueuesWithin n) : s.enterFaulted.QueuesWithin n :=
  .foldl (fun _ m k => k.abandonMailbox m) _ (h.setTapState _)

/-! ### What leaves a port -/

theorem State.QueuesWithin.depart (h : s.QueuesWithin n) (p : Port) (x : HeldFrame) : (s.depart p x).QueuesWithin n := .ite _ h h

theorem State.QueuesWithin.sendOut (h : s.QueuesWithin n) (p : Port) (x : HeldFrame) : (s.sendOut p x).QueuesWithin n :=
  .ite _ (h.keepUnit p _) (h.depart p x)

theorem State.QueuesWithin.flushElastic (h : s.QueuesWithin n) (p : Port) : (s.flushElastic p).QueuesWithin n :=
  (State.QueuesWithin.foldl (fun _ x k => k.depart p x) _ h).keepUnit p _

theorem State.QueuesWithin.endPartial (h : s.QueuesWithin n) (p : Port) : (s.endPartial p).QueuesWithin n := by
  unfold State.endPartial
  split
  · exact h
  · have ended (g : PortCounters → PortCounters) : (s.modUnit p fun u => { u.count g with arriving := none }).QueuesWithin n :=
      h.keepUnit p _
    dsimp only
    split
    · exact .ite _ ((ended _).sendOut _ _) ((ended _).sendOut _ _)
    · exact ended _

theorem State.QueuesWithin.cutFrom (h : s.QueuesWithin n) (p q : Port) : (State.cutFrom p s q).QueuesWithin n := by
  unfold State.cutFrom
  split
  · exact h
  · split
    · refine State.QueuesWithin.keepUnit ?_ q _
      split
      · split
        · exact h
        · exact h
      · split
        · exact h
        · exact h
    · exact h

theorem State.QueuesWithin.loseHeld (h : s.QueuesWithin n) (x : HeldFrame) : (s.loseHeld x).QueuesWithin n := .ite _ (h.count _) h

theorem State.QueuesWithin.cutOutputs (h : s.QueuesWithin n) (p : Port) : (s.cutOutputs p).QueuesWithin n := by
  have cut : (bothPorts.foldl (State.cutFrom p) s).QueuesWithin n := .foldl (fun _ q k => k.cutFrom p q) _ h
  have lost := State.QueuesWithin.foldl (fun _ x k => k.loseHeld x) ((bothPorts.foldl (State.cutFrom p) s).unit p).elastic cut
  unfold State.cutOutputs
  refine State.QueuesWithin.keepUnit ?_ p _
  split
  · exact lost.emit p _
  · exact lost

/-! ### The receive monitor and the lane switch: a frame's outcome joins a window, of which the newest 64 stay (R137) -/

theorem windowPush_length (w : List Bool) (error : Bool) : (windowPush w error).length ≤ 64 := by
  simp only [windowPush, windowSize, List.length_drop, List.length_append, List.length_singleton]
  omega

theorem State.QueuesWithin.leaveService (h : s.QueuesWithin n) (p : Port) : (s.leaveService p).QueuesWithin n := by
  unfold State.leaveService
  split
  · dsimp only
    split
    · exact ((h.count _).keepUnit p _).ringChange
    · exact (h.keepUnit p _).ringChange
  · exact h

/-- The train record of a failed port ends, with an ABORTED close where a train was in progress (R32). -/
theorem State.QueuesWithin.endTrainAt (h : s.QueuesWithin n) (p : Port) : (s.endTrainAt p).QueuesWithin n := by
  unfold State.endTrainAt
  split
  · exact .ite _ (h.close _ _) h
  · exact .ite _ h h
  · exact h

theorem State.QueuesWithin.abortTest (h : s.QueuesWithin n) (p : Port) : (s.abortTest p).QueuesWithin n := .ite _ h h

theorem State.QueuesWithin.leaveUp (h : s.QueuesWithin n) (p : Port) (c : DownCause) : (s.leaveUp p c).QueuesWithin n := by
  have down := ((h.endPartial p).modUnit p (f := fun u =>
    (u.enterDown c (s.endPartial p).now).count fun c => { c with downs := satInc c.downs }) fun _ k => k).ringChange
  exact (((down.leaveService p).cutOutputs p).abortTest p).endTrainAt p

theorem State.QueuesWithin.goDown (h : s.QueuesWithin n) (p : Port) (c : DownCause) : (s.goDown p c).QueuesWithin n := by
  unfold State.goDown
  split
  · exact h.leaveUp p c
  · exact h.keepUnit p _
  · exact h

theorem State.QueuesWithin.windowAdd (h : s.QueuesWithin n) (p : Port) (error : Bool) : (s.windowAdd p error).QueuesWithin n := by
  have added : (s.modUnit p fun u => { u with window := windowPush (s.unit p).window error }).QueuesWithin n :=
    h.modUnit p fun _ _ => windowPush_length _ error
  exact .ite _ (.ite _ (added.leaveUp p _) added) h

theorem State.QueuesWithin.refit (h : s.QueuesWithin n) (p : Port) : (s.refit p).QueuesWithin n := by
  have set (u : PortUnit) (hu : u.window = (s.unit p).window) : (s.setUnit p u).QueuesWithin n :=
    h.setUnit p ((congrArg List.length hu).trans_le (h.window p))
  unfold State.refit
  dsimp only
  split
  · split
    · exact State.QueuesWithin.ringChange (set _ rfl)
    · exact h
  · exact set _ rfl

/-- A monitor that becomes UP begins with an empty window (R137). -/
theorem State.QueuesWithin.enterUp (h : s.QueuesWithin n) (p : Port) : (s.enterUp p).QueuesWithin n :=
  (h.modUnit p fun _ _ => Nat.zero_le _).ringChange.refit p

theorem State.QueuesWithin.tryQualify (h : s.QueuesWithin n) (p : Port) : (s.tryQualify p).QueuesWithin n := by
  refine h.modUnit p fun u k => ?_
  unfold PortUnit.tryQualify
  split
  · exact k
  · exact k

theorem State.QueuesWithin.newPolicy (h : s.QueuesWithin n) (old : ReturnPolicy) (p : Port) :
    (State.newPolicy old s p).QueuesWithin n := by
  unfold State.newPolicy
  split
  · exact h.keepUnit p _
  · exact .ite _ (h.refit p) h

theorem State.QueuesWithin.newQualification (h : s.QueuesWithin n) (p : Port) : (s.newQualification p).QueuesWithin n := by
  unfold State.newQualification
  split
  · exact .ite _ (h.enterUp p) h
  · exact h

theorem State.QueuesWithin.activatePorts (h : s.QueuesWithin n) (old : ReturnPolicy) : (s.activatePorts old).QueuesWithin n :=
  .foldl (fun _ p k => k.newQualification p) bothPorts (.foldl (fun _ p k => k.newPolicy old p) bothPorts h)

theorem State.QueuesWithin.lockLost (h : s.QueuesWithin n) (p : Port) : (s.lockLost p).QueuesWithin n :=
  (((h.keepUnit p _).endPartial p).goDown p .loss).refit p

theorem State.QueuesWithin.lockGained (h : s.QueuesWithin n) (p : Port) : (s.lockGained p).QueuesWithin n :=
  (h.keepUnit p _).tryQualify p

theorem State.QueuesWithin.farEnd (h : s.QueuesWithin n) (p : Port) (sig : FarSignal) : (s.farEnd p sig).QueuesWithin n := by
  have seen : (s.modUnit p fun u => { u with farEnd := some sig }).QueuesWithin n := h.keepUnit p _
  exact .ite _ (State.QueuesWithin.refit (.ite _ (seen.goDown p .remote) (seen.tryQualify p)) p) h

theorem State.QueuesWithin.downHoldExpiry (h : s.QueuesWithin n) (p : Port) : (s.downHoldExpiry p).QueuesWithin n := by
  unfold State.downHoldExpiry
  split
  · exact ((h.reach _).keepUnit p _).tryQualify p
  · exact h

theorem State.QueuesWithin.qualificationComplete (h : s.QueuesWithin n) (p : Port) :
    (s.qualificationComplete p).QueuesWithin n := by
  unfold State.qualificationComplete
  split
  · exact (h.reach _).enterUp p
  · exact h

theorem State.QueuesWithin.returnService (h : s.QueuesWithin n) (p : Port) : (s.returnService p).QueuesWithin n :=
  (h.keepUnit p _).ringChange

/-! ### ECHO frames -/

theorem State.QueuesWithin.echoStart (h : s.QueuesWithin n) (p : Port) : (s.echoStart p).QueuesWithin n := by
  unfold State.echoStart
  split
  · exact h.keepUnit p _
  · exact .ite _ (h.keepUnit p _) h

theorem State.QueuesWithin.echoSent (h : s.QueuesWithin n) (p : Port) (f : EchoFrame) : (s.echoSent p f).QueuesWithin n :=
  ((h.emit p _).keepUnit p _).flushElastic p

theorem State.QueuesWithin.replySent (h : s.QueuesWithin n) (p : Port) : (s.replySent p).QueuesWithin n := by
  unfold State.replySent
  split
  · exact (h.echoSent p _).keepUnit p _
  · exact h

theorem State.QueuesWithin.requestSent (h : s.QueuesWithin n) (p : Port) : (s.requestSent p).QueuesWithin n := by
  unfold State.requestSent
  split
  · exact h.echoSent p _
  · exact h

theorem State.QueuesWithin.echoWaitExpiry (h : s.QueuesWithin n) : s.echoWaitExpiry.QueuesWithin n := by
  unfold State.echoWaitExpiry
  dsimp only
  split
  · exact h
  · exact h

theorem State.QueuesWithin.judgeReply (h : s.QueuesWithin n) (p : Port) (f : EchoFrame) (c : Check) :
    (s.judgeReply p f c).QueuesWithin n := by
  unfold State.judgeReply
  dsimp only
  split
  · exact .ite _ (.ite _ h (.ite _ (.ite _ h h) h)) h
  · exact h

theorem State.QueuesWithin.receiveEcho (h : s.QueuesWithin n) (p : Port) (f : EchoFrame) (c : Check) :
    (s.receiveEcho p f c).QueuesWithin n :=
  .ite _ (.ite _ (.ite _ (h.keepUnit p _) h) (.ite _ (h.judgeReply p f c) h)) h

/-! ### The tracker -/

theorem State.QueuesWithin.armGap (h : s.QueuesWithin n) (p : Port) : (s.armGap p).QueuesWithin n := .ite _ h h

theorem State.QueuesWithin.badFrame (h : s.QueuesWithin n) : s.badFrame.QueuesWithin n := by
  have defect : s.orderDefect.QueuesWithin n := h.modTrk _
  unfold State.badFrame
  dsimp only
  split
  · exact defect.modTrk _
  · exact defect.modTrk _
  · exact defect.close _ _
  · exact defect
  · exact defect

theorem State.QueuesWithin.gapTimerExpiry (h : s.QueuesWithin n) : s.gapTimerExpiry.QueuesWithin n := by
  unfold State.gapTimerExpiry
  split
  · dsimp only
    split
    · exact (h.reach _).close _ _
    · exact (h.reach _).endRecord
    · exact (h.reach _).modTrk _
  · exact h

/-- A MISSED close, and SILENT with its event where it brings the count to the limit (R31, R34). -/
theorem State.QueuesWithin.missedClose (h : s.QueuesWithin n) : s.missedClose.QueuesWithin n := by
  have counted := (h.close .missed none).modTrk fun t => { t with missed := satInc t.missed }
  unfold State.missedClose
  dsimp only
  split
  · exact ((counted.modTrk _).setSticky _).raise _
  · exact counted

theorem State.QueuesWithin.trainTimerExpiry (h : s.QueuesWithin n) : s.trainTimerExpiry.QueuesWithin n := by
  unfold State.trainTimerExpiry
  split
  · have missed (t : Nat) := (h.reach t).missedClose
    dsimp only
    split
    · exact (h.reach _).modTrk _
    · exact (missed _).modTrk _
    · exact (missed _).modTrk _
  · exact h

/-! ### Headers -/

theorem State.QueuesWithin.activateTapState (h : s.QueuesWithin n) : s.activateTapState.QueuesWithin n := .ite _ (h.setTapState _) h

/-- An activation raises TABLES and RING_CHANGE, and a port that it makes UP begins with an empty window. -/
theorem State.QueuesWithin.activate (h : s.QueuesWithin n) (x : Session) : (s.activate x).QueuesWithin n := by
  have changed (t : State) (k : t.QueuesWithin n) : (t.changeover s.mgmt.active).QueuesWithin n :=
    k.of_queues (by simp only [State.queues, State.changeover])
  unfold State.activate
  dsimp only
  refine ((((changed _ (State.QueuesWithin.withSubs ?_ _)).setSticky _).raise _).withRx _).activatePorts _
  refine State.QueuesWithin.activateTapState (h.withMgmt ?_)
  rfl

theorem State.QueuesWithin.activateDue (h : s.QueuesWithin n) (epoch : Byte) : (s.activateDue epoch).QueuesWithin n := by
  unfold State.activateDue
  split
  · exact h.activate _
  · exact h

theorem State.QueuesWithin.publishHeader (h : s.QueuesWithin n) : s.publishHeader.QueuesWithin n := by
  have taken (t : State) (ht : t.QueuesWithin n) :
      ((List.finRange 4).foldl (fun t p => if s.swaps p then t.raise (.postTaken p) else t) t).QueuesWithin n :=
    .foldl (fun _ _ k => .ite _ (k.raise _) k) _ ht
  unfold State.publishHeader
  split
  iterate 3 exact taken _ h
  iterate 2 exact h

theorem State.QueuesWithin.schedulerHeader (h : s.QueuesWithin n) (f : HeaderFrame) : (s.schedulerHeader f).QueuesWithin n :=
  .foldl (g := State.dueMailbox f) (fun _ m k => k.dueMailbox f m) _ (h.withSched _)

theorem State.QueuesWithin.prepareTrain (h : s.QueuesWithin n) (f : HeaderFrame) : (s.prepareTrain f).QueuesWithin n :=
  (((h.activateDue f.epoch).publishHeader.withRx _).schedulerHeader f).raise _

theorem State.QueuesWithin.firstPass (h : s.QueuesWithin n) (p : Port) (f : HeaderFrame) : (s.firstPass p f).QueuesWithin n := by
  have recorded : (s.recordHeader p f).QueuesWithin n := by
    unfold State.recordHeader
    dsimp only
    split
    · exact h
    · exact h
  rw [State.firstPass_eq]
  exact ((recorded.prepareTrain f).modTrk _).armGap p

theorem State.QueuesWithin.takeHeader (h : s.QueuesWithin n) (p : Port) (f : HeaderFrame) : (s.takeHeader p f).QueuesWithin n :=
  .ite _ (h.firstPass p f) ((h.modTrk _).armGap p)

theorem State.QueuesWithin.trackHeader (h : s.QueuesWithin n) (p : Port) (f : HeaderFrame) (c : Check) :
    (s.trackHeader p f c).QueuesWithin n := by
  have closed := h.close .aborted none
  unfold State.trackHeader
  split
  · exact .ite _ (.ite _ (closed.takeHeader p f) (.ite _ (closed.firstPass p f) h)) (.ite _ (h.badFrame.armGap p) h)
  · exact .ite _ (h.takeHeader p f) h
  · exact .ite _ (h.takeHeader p f) (h.armGap p)

end

end Sys2Proof.Machine
end


section
/-! PROOFS. The queues within their sizes (R99, R109): a request joins its response, and a message its record, where the queue has
room; so every command keeps the law. -/

namespace Sys2Proof.Machine

section
variable {n : Nat} {s : State}

/-! ### Requests: none moves a queue while it is executed -/

theorem State.QueuesWithin.clearGroup (h : s.QueuesWithin n) (g : Group) : (s.clearGroup g).QueuesWithin n := by
  cases g with
  | port p => exact h.keepUnit p _
  | _ => exact h.count _

theorem State.QueuesWithin.pulse (h : s.QueuesWithin n) (c : Fin 12) : (s.pulse c).QueuesWithin n := by
  have driven (v : Vector (Option Nat) 12) : ({ s with sig := { s.sig with pulses := v } } : State).QueuesWithin n := h
  unfold State.pulse
  dsimp only
  split
  · exact driven _
  · exact (driven _).fire _

theorem State.QueuesWithin.setCommandCause (h : s.QueuesWithin n) (x : Bool) : (s.setCommandCause x).QueuesWithin n := h

theorem State.QueuesWithin.setSession (h : s.QueuesWithin n) (x : Option Session) :
    (s.setSession x).QueuesWithin n := h.withMgmt rfl

/-- Of the requests PULSE alone may move the stamp FIFO, by the edge it makes (R153). -/
theorem State.QueuesWithin.runRequest (h : s.QueuesWithin n) (r : Request) (src : Station) :
    (runRequest r src s).state.QueuesWithin n := by
  cases r with
  | clearCounters g =>
    simp only [Machine.runRequest, runClearCounters]
    split
    · exact h.clearGroup _
    · exact h
  | halt =>
    simp only [Machine.runRequest, runHalt]
    split
    · exact (h.setCommandCause _).setTapState _
    · exact h.setCommandCause _
    all_goals exact h
  | resume =>
    simp only [Machine.runRequest, runResume]
    split
    · exact h.setCommandCause _
    · split
      · exact h.setCommandCause _
      · exact (h.setCommandCause _).setTapState _
    all_goals exact h
  | returnWrap port =>
    simp only [Machine.runRequest, runReturnWrap]
    split
    · exact h
    · split
      · exact h.keepUnit _ _
      · exact h
  | pulse channel =>
    simp only [Machine.runRequest, runPulse]
    split
    · exact h
    · split
      · exact h.pulse _
      · exact h
  | _ =>
    simp only [Machine.runRequest, runIdentify, runReadStatus, runReadCounters, runReadCensus, runReadSubscriptionState,
      runReadEntry, runOpenEdit, runStageEntry, runClearStaged, runCommit, runAbandonEdit, runQueryEdit, runRestart,
      runSegmentTestStart, runSegmentTestResult]
    repeat' split
    all_goals exact h

theorem State.QueuesWithin.touchSession (h : s.QueuesWithin n) (src : Station) : (s.touchSession src).QueuesWithin n := by
  rw [State.touchSession_eq]
  exact h.withMgmt rfl

/-- A response joins the queue (R109). -/
theorem State.QueuesWithin.respond (h : s.QueuesWithin n) (r : Response) : (s.respond r).QueuesWithin (n + 1) := by
  obtain ⟨hresponses, hrest⟩ := h
  refine ⟨?_, hrest⟩
  simpa only [State.respond, State.modMgmt_mgmt, List.length_append, List.length_singleton, Nat.add_le_add_iff_right]
    using hresponses

theorem State.QueuesWithin.remember (h : s.QueuesWithin n) (src : Station) (r : CachedResponse) :
    (s.remember src r).QueuesWithin n :=
  h.withMgmt rfl

/-- A request taken adds one response, whichever way it is answered (R106 to R108). -/
theorem State.QueuesWithin.takeRequest (h : s.QueuesWithin n) (src : Station) (tag code : Byte) {run : State → Reply}
    (hr : ∀ t : State, t.QueuesWithin n → (run t).state.QueuesWithin n) :
    (s.takeRequest src tag code run).QueuesWithin (n + 1) := by
  have touched := h.touchSession src
  have executed : ((s.touchSession src).executeRequest src tag code run).QueuesWithin (n + 1) :=
    ((hr _ touched).respond _).remember src _
  unfold State.takeRequest
  dsimp only
  split
  · split
    · split
      · exact touched.respond _
      · exact executed
    · exact executed
  · exact touched.respond _

theorem State.QueuesWithin.takePayload (h : s.QueuesWithin n) (src : Station) (tag : Byte) (payload : List Byte) :
    (s.takePayload src tag payload).QueuesWithin (n + 1) := by
  unfold State.takePayload
  split
  · exact h.takeRequest src tag _ fun _ k => k.runRequest _ src
  · exact h.takeRequest src tag _ fun _ k => k

/-- Where the queue has room, the tap holds 3 responses at most. -/
theorem State.QueuesWithin.room (h : s.QueuesWithin 4) (hroom : s.mgmt.responses.length < responseRoom) : s.QueuesWithin 3 := by
  obtain ⟨-, hrest⟩ := h
  exact ⟨Nat.le_of_lt_succ hroom, hrest⟩

/-- A request finds room for its response, or is turned away (R89). -/
theorem State.QueuesWithin.deliver (h : s.QueuesWithin 4) (src : Station) (tag code : Byte) {run : State → Reply}
    (hr : ∀ t : State, t.QueuesWithin 3 → (run t).state.QueuesWithin 3) : (s.deliver src tag code run).QueuesWithin 4 := by
  unfold State.deliver
  split
  · split
    · rename_i hroom
      exact (h.room hroom).takeRequest src tag code hr
    · exact h.count _
  · exact h

/-! ### The container unit's steps (R84) -/

/-- A message joins the inbound queue where it has room (R99). -/
theorem State.QueuesWithin.joinInbound (h : s.QueuesWithin n) (hroom : s.inbound.length < inboundRoom) (f : ContainerFrame)
    (broadcast : Bool) : (s.joinInbound f broadcast).QueuesWithin n := by
  obtain ⟨hresponses, -, hrest⟩ := h
  have joined (r : InboundRecord) : ({ s with inbound := s.inbound ++ [r] } : State).QueuesWithin n :=
    ⟨hresponses, by rw [List.length_append]; exact hroom, hrest⟩
  exact ((joined _).count _).raise _

theorem State.QueuesWithin.outcomeStep (h : s.QueuesWithin n) (i : Fin 8) (f : ContainerFrame) :
    (s.outcomeStep i f).state.QueuesWithin n := by
  unfold State.outcomeStep
  split
  · exact h
  · split
    · exact h
    · exact h.settle _ _

theorem State.QueuesWithin.stripStep (h : s.QueuesWithin n) (f : ContainerFrame) : (s.stripStep f).state.QueuesWithin n := by
  unfold State.stripStep
  split
  · exact h.count _
  · exact h

theorem State.QueuesWithin.deliveryStep (h : s.QueuesWithin 4) (f : ContainerFrame) : (s.deliveryStep f).state.QueuesWithin 4 := by
  unfold State.deliveryStep
  split
  · split
    · split
      · rename_i hroom
        exact (h.room hroom).takePayload _ _ _
      · exact h.count _
    · split
      · split
        · rename_i hroom
          exact h.joinInbound hroom f _
        · exact h.count _
      · exact h.count _
  · exact h

theorem State.QueuesWithin.broadcastStep (h : s.QueuesWithin n) (f : ContainerFrame) : (s.broadcastStep f).QueuesWithin n := by
  unfold State.broadcastStep
  split
  · split
    · split
      · rename_i hroom
        exact h.joinInbound hroom f _
      · exact h.count _
    · exact h.count _
  · exact h

/-- The response that fills a container was the oldest of the queue (R91). -/
theorem eligibleResponse_eq {q rest : List Response} {r : Response} {took : Bool} (h : eligibleResponse q took = some (r, rest)) :
    q = r :: rest := by
  unfold eligibleResponse at h
  split at h
  · cases h
  · split at h
    · cases h
    · cases h
      rfl
  · cases h
    rfl

/-- A fill may take a response from the queue, and adds none (R93). -/
theorem State.QueuesWithin.fillStep (h : s.QueuesWithin n) (t : TapState) (took : Bool) (i : Fin 8) (f : ContainerFrame) :
    (s.fillStep t took i f).1.QueuesWithin n := by
  unfold State.fillStep
  split
  · rename_i r rest hoff
    obtain ⟨hresponses, hrest⟩ := h
    rw [eligibleResponse_eq hoff, List.length_cons] at hresponses
    exact ⟨Nat.le_of_succ_le hresponses, hrest⟩
  · split
    · split
      · exact (h.withSched _).count _
      · exact h
    · exact h

theorem State.QueuesWithin.containerSteps (h : s.QueuesWithin 4) (t : TapState) (i : Fin 8) (f : ContainerFrame) :
    (s.containerSteps t i f).state.QueuesWithin 4 := by
  have stepped (f2 f3 f4 : ContainerFrame) :
      ((((s.outcomeStep i f).state.stripStep f2).state.deliveryStep f3).state.broadcastStep f4).QueuesWithin 4 :=
    (((h.outcomeStep i f).stripStep f2).deliveryStep f3).broadcastStep f4
  unfold State.containerSteps
  dsimp only
  split
  · exact stepped _ _ _
  · exact (stepped _ _ _).fillStep t _ i _

theorem State.QueuesWithin.goodContainer (h : s.QueuesWithin 4) (f : ContainerFrame) :
    (s.goodContainer f).state.QueuesWithin 4 := by
  have acted : (s.actOnContainer f).state.QueuesWithin 4 := by
    unfold State.actOnContainer
    split
    · exact h.count _
    · split
      · exact h.containerSteps _ _ f
      · exact h
  have defect : s.orderDefect.QueuesWithin 4 := h.modTrk _
  unfold State.goodContainer
  dsimp only
  split
  · exact h
  · exact h
  · split
    · exact acted.modTrk _
    · split
      · exact defect.modTrk _
      · exact defect

/-! ### A frame from its beginning to its end -/

theorem State.QueuesWithin.beginArrival (h : s.QueuesWithin n) (p : Port) (lead : Lead) :
    (s.beginArrival p lead).QueuesWithin n := by
  have begun :
      (s.modUnit p fun u => { u with arriving := some (s.arrivalOf p lead), discard := s.discardAfter p lead }).QueuesWithin n :=
    h.keepUnit p _
  exact .ite _ (.ite _ (begun.modTrk _) begun) begun

theorem State.QueuesWithin.frameBegins (h : s.QueuesWithin n) (p : Port) (lead : Lead) : (s.frameBegins p lead).QueuesWithin n := by
  unfold State.frameBegins
  split
  · exact h
  · split
    · exact h.beginArrival p _
    · exact .ite _ (h.keepUnit p _) h

theorem State.QueuesWithin.arrived (h : s.QueuesWithin n) (p : Port) (lead : Lead) : (s.arrived p lead).1.QueuesWithin n := by
  unfold State.arrived
  split
  · split
    · exact h
    · exact h.beginArrival p lead
  · exact h.beginArrival p lead

theorem State.QueuesWithin.countFrame (h : s.QueuesWithin n) (p : Port) (a : Arriving) (c : Check) :
    (s.countFrame p a c).QueuesWithin n := by
  have counted : (s.countPort p fun x => x.received c (decide (a.lead = .unknown))).QueuesWithin n := h.keepUnit p _
  exact .ite _ (counted.count _) counted

theorem State.QueuesWithin.countLost (h : s.QueuesWithin n) (a : Arriving) (c : Check) : (s.countLost a c).QueuesWithin n :=
  .ite _ (h.count _) h

theorem State.QueuesWithin.forward (h : s.QueuesWithin n) (a : Arriving) (x : SentContent) (w r : Bool) :
    (s.forward a x w r).QueuesWithin n := by
  unfold State.forward
  split
  · exact h.sendOut _ _
  · exact h

/-- The end of a frame keeps the law where the frame's own effect does; its outcome joins the error window (R137). -/
theorem State.QueuesWithin.receive (h : s.QueuesWithin n) (p : Port) (f : Frame) (fcs : Option Fcs)
    {act : Arriving → Check → State → Passed} (ha : ∀ a c (t : State), t.QueuesWithin n → (act a c t).state.QueuesWithin n) :
    (s.receive p f fcs act).QueuesWithin n := by
  unfold State.receive
  split
  · exact h.emit _ _
  · exact (((ha _ _ _ (((h.arrived p f.lead).keepUnit p _).countFrame p _ _)).countLost _ _).forward _ _ _ _).windowAdd p _

theorem State.QueuesWithin.passHeader (h : s.QueuesWithin n) (p : Port) (f : HeaderFrame) (a : Arriving) (c : Check) :
    (passHeader p f a c s).state.QueuesWithin n :=
  .ite _ (h.trackHeader p f c) h

theorem State.QueuesWithin.captureBlock (h : s.QueuesWithin n) (f : BlockFrame) : (s.captureBlock f).QueuesWithin n :=
  h.of_queues (by
    simp only [State.queues, State.captureBlock_mgmt, State.captureBlock_inbound, State.captureBlock_sig, State.captureBlock_portW,
      State.captureBlock_portE])

theorem State.QueuesWithin.goodBlock (h : s.QueuesWithin n) (f : BlockFrame) (capture : Bool) :
    (s.goodBlock f capture).QueuesWithin n := by
  have captured : (if capture then s.captureBlock f else s).QueuesWithin n := .ite _ (h.captureBlock f) h
  have defect : s.orderDefect.QueuesWithin n := h.modTrk _
  unfold State.goodBlock
  dsimp only
  split
  · split
    · exact captured.modTrk _
    · exact .ite _ (defect.modTrk _) defect
  · exact defect
  · exact defect
  · exact h
  · exact h

theorem State.QueuesWithin.passBlock (h : s.QueuesWithin n) (p : Port) (f : BlockFrame) (a : Arriving) (c : Check) :
    (passBlock p f a c s).state.QueuesWithin n :=
  .ite _ (.ite _ (.armGap (.ite _ (h.goodBlock _ _) h.badFrame) p) (h.armGap p)) h

theorem State.QueuesWithin.passContainer (h : s.QueuesWithin 4) (p : Port) (f : ContainerFrame) (a : Arriving) (c : Check) :
    (passContainer p f a c s).state.QueuesWithin 4 := by
  unfold Machine.passContainer State.trackContainer
  dsimp only
  split
  · split
    · split
      · exact (h.goodContainer f).armGap p
      · exact h.badFrame.armGap p
    · exact h.armGap p
  · exact h

theorem State.QueuesWithin.rollEffect (h : s.QueuesWithin n) (d : RollDecision) (f : RollFrame) :
    (s.rollEffect d f).QueuesWithin n := by
  have upstream (x : RollUnit) : ({ s with roll := x } : State).QueuesWithin n := h
  cases d with
  | nothing => exact h
  | ownAppend => exact upstream _
  | anonymousAppend => exact upstream _
  | overflow => exact h.count _
  | duplicate => exact h.enterFaulted

theorem State.QueuesWithin.takeRoll (h : s.QueuesWithin n) (x : Option RollSample) (f : RollFrame) (c : Check) :
    (s.takeRoll x f c).1.QueuesWithin n := by
  unfold State.takeRoll
  split
  · exact h
  · split
    · exact h
    · exact .ite _ (h.rollEffect _ f) h

theorem State.QueuesWithin.endAtRoll (h : s.QueuesWithin n) (p : Port) (f : RollFrame) (c : Check) :
    (s.endAtRoll p f c).QueuesWithin n := by
  unfold State.endAtRoll
  split
  · exact .ite _ (.ite _ (h.close _ _) (h.close _ _)) h
  · exact .ite _ h.endRecord h
  · exact h

theorem State.QueuesWithin.passRoll (h : s.QueuesWithin n) (p : Port) (f : RollFrame) (a : Arriving) (c : Check) :
    (passRoll p f a c s).state.QueuesWithin n := by
  unfold Machine.passRoll
  split
  · exact (h.takeRoll a.roll f c).endAtRoll p f c
  · exact h

theorem State.QueuesWithin.passUnknown (h : s.QueuesWithin n) (p : Port) (f : UnknownFrame) (a : Arriving) (c : Check) :
    (passUnknown p f a c s).state.QueuesWithin n :=
  .ite _ (.ite _ ((h.modTrk _).armGap p) (h.armGap p)) h

/-! ### Pins, restarts and the bypass hold -/

/-- A restart empties every queue and window (R103, R104, R135, R160). -/
theorem State.queuesWithin_beginRestart (s : State) (kind : RestartKind) : (s.beginRestart kind).QueuesWithin 4 := by
  simp [State.QueuesWithin, State.beginRestart, State.reset, Management.reset, Signals.reset, PortUnit.restarted, PortUnit.reset]

theorem State.QueuesWithin.setPinCause (h : s.QueuesWithin n) (x : Bool) : (s.setPinCause x).QueuesWithin n := h

theorem State.QueuesWithin.stopRise (h : s.QueuesWithin n) : s.stopRise.QueuesWithin n :=
  .ite _ ((h.setPinCause true).setTapState _) (h.setPinCause true)

theorem State.QueuesWithin.stopFall (h : s.QueuesWithin n) : s.stopFall.QueuesWithin n :=
  .ite _ ((h.setPinCause false).setTapState _) (h.setPinCause false)

/-- The matrix, but for the stamp FIFO. -/
theorem State.QueuesWithin.withSig (h : s.QueuesWithin n) {x : Signals} (hx : x.stamps = s.sig.stamps) :
    ({ s with sig := x } : State).QueuesWithin n :=
  h.of_queues (by simp only [State.queues, hx])

theorem State.QueuesWithin.pinChange (h : s.QueuesWithin n) (k : Fin 8) (level : Bool) : (s.pinChange k level).QueuesWithin n := by
  have sampled (v : Vector Bool 8) : ({ s with sig := { s.sig with trigIn := v } } : State).QueuesWithin n := h.withSig rfl
  exact .ite _ (.ite _ ((sampled _).raise _) (sampled _)) h

theorem State.QueuesWithin.trigOutFall (h : s.QueuesWithin n) (k : Fin 8) : (s.trigOutFall k).QueuesWithin n := by
  unfold State.trigOutFall
  split
  · exact h
  · dsimp only
    split
    · exact (h.reach _).withSig rfl
    · exact h

theorem State.QueuesWithin.pulseEnd (h : s.QueuesWithin n) (c : Fin 12) : (s.pulseEnd c).QueuesWithin n := by
  unfold State.pulseEnd
  split
  · exact (h.reach _).withSig rfl
  · exact h

theorem State.QueuesWithin.sessionIdleExpiry (h : s.QueuesWithin n) : s.sessionIdleExpiry.QueuesWithin n := by
  unfold State.sessionIdleExpiry
  split
  · split
    · exact (h.reach _).setSession _
    · exact h
  · exact h

theorem State.QueuesWithin.withRst (h : s.QueuesWithin n) (x : RestartCtl) : ({ s with rst := x } : State).QueuesWithin n := h

theorem State.QueuesWithin.startHold (h : s.QueuesWithin n) (kind : RestartKind) : (s.startHold kind).QueuesWithin n :=
  .ite _ (h.withRst _) h

theorem State.QueuesWithin.powerSettled (h : s.QueuesWithin n) :
    s.powerSettled.QueuesWithin n := .ite _ ((h.withRst _).startHold _) h

theorem State.QueuesWithin.rstNHigh (h : s.QueuesWithin n) : s.rstNHigh.QueuesWithin n := .ite _ ((h.withRst _).startHold _) h

/-- Both ports leave BYPASS with an empty window (R135). -/
theorem State.QueuesWithin.leaveBypass (h : s.QueuesWithin n) : s.leaveBypass.QueuesWithin n :=
  ((h.modUnit .w fun _ _ => Nat.zero_le _).modUnit .e fun _ _ => Nat.zero_le _).setTapState _

theorem State.QueuesWithin.bypassHoldExpiry (h : s.QueuesWithin n) (straps : Station) :
    (s.bypassHoldExpiry straps).QueuesWithin n := by
  unfold State.bypassHoldExpiry
  split
  · have sampled (t : Nat) (x : RestartCtl) := (h.reach t).withRst x
    dsimp only
    split
    · exact (sampled _ _).leaveBypass
    · exact sampled _ _
  · exact h
  · exact h

/-! ### The local port -/

theorem State.QueuesWithin.withLsp (h : s.QueuesWithin n) (x : LocalPort) : ({ s with lsp := x } : State).QueuesWithin n := h

theorem State.QueuesWithin.localError (h : s.QueuesWithin n) : s.localError.QueuesWithin n := h

theorem State.QueuesWithin.endTransaction (h : s.QueuesWithin n) : s.endTransaction.QueuesWithin n := by
  unfold State.endTransaction
  split
  · exact h
  · have closed := h.withLsp { s.lsp with txn := none }
    dsimp only
    split
    · exact closed.withRx _
    · exact closed
    · exact closed

theorem State.QueuesWithin.transactionStart (h : s.QueuesWithin n) (command : Byte) (a : Word) (words : Nat) :
    (s.transactionStart command a words).QueuesWithin n := by
  have ended := h.endTransaction
  exact .ite _ (ended.withLsp _) (.ite _ (ended.withLsp _) (.ite _ (ended.withLsp _) (ended.localError.withLsp _)))

/-- A written word keeps the law where its act does. -/
theorem State.QueuesWithin.lspWrite (h : s.QueuesWithin n) (a : Word) {act : State → State} (ha : (act s).QueuesWithin n) :
    (s.lspWrite a act).QueuesWithin n :=
  .ite _ (ha.withLsp _) h

theorem State.QueuesWithin.withPub (h : s.QueuesWithin n) (v : Vector PubBank 4) : ({ s with pub := v } : State).QueuesWithin n := h

/-- A local action keeps the law where its act does. -/
theorem State.QueuesWithin.localAction (h : s.QueuesWithin n) {act : State → State}
    (ha : ∀ t : State, t.QueuesWithin n → (act t).QueuesWithin n) : (s.localAction act).QueuesWithin n :=
  .ite _ (.ite _ h.localError (ha _ (h.withLsp _))) h

theorem State.QueuesWithin.finish {x : Acted} (h : x.state.QueuesWithin n) : x.finish.QueuesWithin n :=
  .ite _ (h.withLsp _).localError (h.withLsp _)

theorem State.QueuesWithin.takeAction (h : s.QueuesWithin n) (o : BitVec 12) : (s.takeAction o).state.QueuesWithin n := by
  unfold State.takeAction
  split
  · exact h
  · split
    · exact h.withRx _
    · exact h

theorem State.QueuesWithin.postAction (h : s.QueuesWithin n) (o : BitVec 12) : (s.postAction o).state.QueuesWithin n := by
  unfold State.postAction
  split
  · exact h
  · exact h.withPub _

theorem State.QueuesWithin.sendAction (h : s.QueuesWithin n) (o : BitVec 12) : (s.sendAction o).state.QueuesWithin n := by
  unfold State.sendAction
  split
  · exact h
  · split
    · exact h.withSched _
    · exact h

theorem State.QueuesWithin.cancelAction (h : s.QueuesWithin n) (o : BitVec 12) : (s.cancelAction o).state.QueuesWithin n := by
  unfold State.cancelAction
  split
  · exact h
  · split
    · exact h.withSched _
    · exact h

theorem State.QueuesWithin.clearAction (h : s.QueuesWithin n) (o : BitVec 12) : (s.clearAction o).state.QueuesWithin n := by
  unfold State.clearAction
  split
  · exact h
  · split
    · exact h.withSched _
    · exact h

/-- RELEASE removes the oldest inbound record (R100). -/
theorem State.QueuesWithin.releaseAction (h : s.QueuesWithin n) : s.releaseAction.state.QueuesWithin n := by
  unfold State.releaseAction
  split
  · exact h
  · rename_i r rest hinbound
    obtain ⟨hresponses, hlength, hrest⟩ := h
    rw [hinbound, List.length_cons] at hlength
    exact ⟨hresponses, Nat.le_of_succ_le hlength, hrest⟩

/-- POP STAMP removes the oldest stamp (R157). -/
theorem State.QueuesWithin.popAction (h : s.QueuesWithin n) : s.popAction.state.QueuesWithin n := by
  unfold State.popAction
  split
  · exact h
  · rename_i r rest hstamps
    obtain ⟨hresponses, hinbound, hlength, hwindows⟩ := h
    rw [hstamps, List.length_cons] at hlength
    exact ⟨hresponses, hinbound, Nat.le_of_succ_le hlength, hwindows⟩

end

/-! ### Every command -/

theorem State.QueuesWithin.of_next {u t : State} (e : (.next u : Result) = .next t) (h : u.QueuesWithin 4) : t.QueuesWithin 4 := by
  cases e
  exact h

/-- The row of a request is its delivery, once the time given has passed (R89). -/
theorem exec_requestRow_eq (r : Request) (dt : Nat) (src : Station) (tag : Byte) (s : State) :
    exec (requestRow r dt src tag) s = .next ((s.elapse dt).deliver src tag r.code (runRequest r src)) := by
  cases r <;> rfl

theorem exec_requestRow_keepsQueues (r : Request) (dt : Nat) (src : Station) (tag : Byte) {s t : State} (h : s.QueuesWithin 4)
    (e : exec (requestRow r dt src tag) s = .next t) : t.QueuesWithin 4 := by
  rw [exec_requestRow_eq] at e
  exact .of_next e ((h.elapse dt).deliver src tag r.code fun _ k => k.runRequest r src)

theorem exec_keepsQueues (c : Instr) {s t : State} (h : s.QueuesWithin 4) (e : exec c s = .next t) : t.QueuesWithin 4 := by
  have he (dt : Nat) := h.elapse dt
  cases c with
  | header dt p f fcs => exact .of_next e ((he dt).receive p _ fcs fun a c _ k => k.passHeader p f a c)
  | block dt p f fcs => exact .of_next e ((he dt).receive p _ fcs fun a c _ k => k.passBlock p f a c)
  | container dt p f fcs => exact .of_next e ((he dt).receive p _ fcs fun a c _ k => k.passContainer p f a c)
  | roll dt p f fcs => exact .of_next e ((he dt).receive p _ fcs fun a c _ k => k.passRoll p f a c)
  | echo dt p f fcs => exact .of_next e ((he dt).receive p _ fcs fun _ c _ k => k.receiveEcho p f c)
  | unknownKind dt p f fcs => exact .of_next e ((he dt).receive p _ fcs fun a c _ k => k.passUnknown p f a c)
  | gapTimerExpiry dt => exact .of_next e (he dt).gapTimerExpiry
  | trainTimerExpiry dt => exact .of_next e (he dt).trainTimerExpiry
  | lockLost dt p => exact .of_next e (.ite _ (he dt) ((he dt).lockLost p))
  | lockGained dt p => exact .of_next e (.ite _ (he dt) ((he dt).lockGained p))
  | farEndRecognised dt p sig => exact .of_next e (.ite _ (he dt) ((he dt).farEnd p sig))
  | downHoldExpiry dt p => exact .of_next e (.ite _ (he dt) ((he dt).downHoldExpiry p))
  | qualificationComplete dt p => exact .of_next e (.ite _ (he dt) ((he dt).qualificationComplete p))
  | returnToService dt p => exact .of_next e (.ite _ ((he dt).returnService p) (he dt))
  | echoTransmitStart dt p => exact .of_next e (.ite _ ((he dt).echoStart p) (he dt))
  | echoReplySent dt p => exact .of_next e ((he dt).replySent p)
  | echoRequestSent dt p => exact .of_next e ((he dt).requestSent p)
  | echoWaitExpiry dt => exact .of_next e (he dt).echoWaitExpiry
  | sessionIdleExpiry dt => exact .of_next e (he dt).sessionIdleExpiry
  | stopRise dt => exact .of_next e (he dt).stopRise
  | stopFall dt => exact .of_next e (he dt).stopFall
  | triggerPinChange dt k level => exact .of_next e ((he dt).pinChange k level)
  | trigOutFall dt k => exact .of_next e ((he dt).trigOutFall k)
  | pulseEnd dt c => exact .of_next e ((he dt).pulseEnd c)
  | powerOn dt => exact .of_next e (State.queuesWithin_beginRestart _ _)
  | powerSettled dt => exact .of_next e (he dt).powerSettled
  | rstNLow dt => exact .of_next e (.ite _ (he dt) (State.queuesWithin_beginRestart _ _))
  | rstNHigh dt => exact .of_next e (he dt).rstNHigh
  | remoteRestartBegin dt => exact .of_next e (.ite _ (State.queuesWithin_beginRestart _ _) (he dt))
  | bypassHoldExpiry dt straps => exact .of_next e ((he dt).bypassHoldExpiry straps)
  | lspTransactionStart dt command address words =>
    cases command with
    | none => exact .of_next e ((he dt).withLsp _)
    | some x => exact .of_next e ((he dt).transactionStart x address words)
  | lspSelectRelease dt words => exact .of_next e ((he dt).withLsp _).endTransaction
  | publishWindowWrite dt p w value => exact .of_next e ((he dt).lspWrite _ ((he dt).withPub _))
  | bankControlWrite dt b value => exact .of_next e ((he dt).lspWrite _ ((he dt).withRx _))
  | mailboxWrite dt m w value => exact .of_next e ((he dt).lspWrite _ (.ite _ ((he dt).withSched _) (he dt).localError))
  | attentionMaskWrite dt value => exact .of_next e ((he dt).lspWrite _ (he dt))
  | lspIgnoredWrite dt address => exact .of_next e ((he dt).lspWrite _ (he dt).localError)
  | take dt o => exact .of_next e ((he dt).localAction fun _ k => (k.takeAction o).finish)
  | post dt o => exact .of_next e ((he dt).localAction fun _ k => (k.postAction o).finish)
  | send dt o => exact .of_next e ((he dt).localAction fun _ k => (k.sendAction o).finish)
  | cancel dt o => exact .of_next e ((he dt).localAction fun _ k => (k.cancelAction o).finish)
  | clear dt o => exact .of_next e ((he dt).localAction fun _ k => (k.clearAction o).finish)
  | release dt => exact .of_next e ((he dt).localAction fun _ k => k.releaseAction.finish)
  | popStamp dt => exact .of_next e ((he dt).localAction fun _ k => k.popAction.finish)
  | clearCauses dt o => exact .of_next e ((he dt).localAction fun t k => State.QueuesWithin.finish (x := t.clearCausesAction o) k)
  | localRestart dt => exact .of_next e ((he dt).localAction fun _ _ => State.queuesWithin_beginRestart _ _)
  | badAction dt code => exact .of_next e ((he dt).localAction fun t k => State.QueuesWithin.finish (x := t.reported .badAction) k)
  | identify dt src tag => exact exec_requestRow_keepsQueues .identify dt src tag h e
  | readStatus dt src tag => exact exec_requestRow_keepsQueues .readStatus dt src tag h e
  | readCounters dt src tag g => exact exec_requestRow_keepsQueues (.readCounters g) dt src tag h e
  | clearCounters dt src tag g => exact exec_requestRow_keepsQueues (.clearCounters g) dt src tag h e
  | readCensus dt src tag x n => exact exec_requestRow_keepsQueues (.readCensus x n) dt src tag h e
  | readSubscriptionState dt src tag x n => exact exec_requestRow_keepsQueues (.readSubscriptionState x n) dt src tag h e
  | readEntry dt src tag x y i => exact exec_requestRow_keepsQueues (.readEntry x y i) dt src tag h e
  | openEdit dt src tag id => exact exec_requestRow_keepsQueues (.openEdit id) dt src tag h e
  | stageEntry dt src tag x i y => exact exec_requestRow_keepsQueues (.stageEntry x i y) dt src tag h e
  | clearStaged dt src tag x => exact exec_requestRow_keepsQueues (.clearStaged x) dt src tag h e
  | commit dt src tag m x => exact exec_requestRow_keepsQueues (.commit m x) dt src tag h e
  | abandonEdit dt src tag => exact exec_requestRow_keepsQueues .abandonEdit dt src tag h e
  | queryEdit dt src tag => exact exec_requestRow_keepsQueues .queryEdit dt src tag h e
  | halt dt src tag => exact exec_requestRow_keepsQueues .halt dt src tag h e
  | resume dt src tag => exact exec_requestRow_keepsQueues .resume dt src tag h e
  | returnWrap dt src tag p => exact exec_requestRow_keepsQueues (.returnWrap p) dt src tag h e
  | pulse dt src tag c => exact exec_requestRow_keepsQueues (.pulse c) dt src tag h e
  | restart dt src tag => exact exec_requestRow_keepsQueues .restart dt src tag h e
  | segmentTestStart dt src tag p n => exact exec_requestRow_keepsQueues (.segmentTestStart p n) dt src tag h e
  | segmentTestResult dt src tag => exact exec_requestRow_keepsQueues .segmentTestResult dt src tag h e
  | badCommand dt src tag payload => exact .of_next e ((he dt).deliver src tag _ fun _ k => k)
  | frameBeginsToArrive dt p lead => exact .of_next e ((he dt).frameBegins p lead)

/-- Settles O7: the queues and windows stay within their sizes under the command at the front of the queue, whichever it is. -/
theorem stepKeepsQueueLaw : Obligations.StepKeepsQueueLaw := by
  intro s t h e
  rw [State.queueLaw_iff] at h ⊢
  unfold step at e
  split at e
  · exact .of_next e h
  · rename_i rest _
    exact exec_keepsQueues _ (s := { s with pending := rest }) h e

end Sys2Proof.Machine
end


section
/-! PROOFS. RELEASE, POP STAMP and CLEAR CAUSES (R100, R157, R159), the errors of the action word, and a second action
word (R164). -/

namespace Sys2Proof.Machine

/-- RELEASE (R100). -/
theorem State.releaseAction_cases (s : State) :
    (∀ r rest, s.inbound = r :: rest → s.releaseAction = State.reported { s with inbound := rest } .accepted) ∧
      (s.inbound = [] → s.releaseAction = s.reported .refused) := by
  unfold State.releaseAction
  refine ⟨fun r rest h => ?_, fun h => ?_⟩
  · rw [h]
  · rw [h]

/-- POP STAMP (R157). -/
theorem State.popAction_cases (s : State) :
    (∀ r rest, s.sig.stamps = r :: rest →
      s.popAction = State.reported { s with sig := { s.sig with stamps := rest, overflow := false } } .accepted) ∧
      (s.sig.stamps = [] → s.popAction = s.reported .refused) := by
  unfold State.popAction
  refine ⟨fun r rest h => ?_, fun h => ?_⟩
  · rw [h]
  · rw [h]

/-- SEND, CANCEL and CLEAR on an operand that names no mailbox (R95, R96, R164). -/
theorem State.mailboxActions_badOperand (s : State) {v : BitVec 12} (h : 8 ≤ v.toNat) :
    s.sendAction v = s.reported .badOperand ∧ s.cancelAction v = s.reported .badOperand ∧
      s.clearAction v = s.reported .badOperand := by
  unfold State.sendAction State.cancelAction State.clearAction
  rw [actionOperand_of_le h]
  exact ⟨rfl, rfl, rfl⟩

/-- A further action word of the transaction is a local port error and nothing else (R164). -/
theorem State.localAction_again {s : State} {x : Txn} (hx : s.lsp.txn = some x) (hk : x.kind = .write) (ha : x.acted = true)
    (dt : Nat) (act : State → State) :
    (.next ((s.elapse dt).localAction act) : Result) =
      .next { s with now := s.now + dt, att := { s.att with localError := true } } := by
  have hacted : (s.elapse dt).alreadyActed = true := by
    rw [State.alreadyActed, State.elapse_lsp, hx]
    exact ha
  exact congrArg Host.Outcome.next
    (State.localAction_extra _ act (State.servesWrite_of_write (s := s.elapse dt) hx hk) hacted)

/-- Settles O51. -/
theorem queueAndCauseActions : Obligations.QueueAndCauseActions := by
  refine ⟨?_, ?_⟩
  · intro dt x s hx hk ha acted refused
    obtain ⟨hrelease, hreleaseNone⟩ := (s.acting dt x).releaseAction_cases
    obtain ⟨hpop, hpopNone⟩ := (s.acting dt x).popAction_cases
    refine ⟨fun r rest h => ?_, fun h => ?_, fun r rest h => ?_, fun h => ?_⟩
    · exact State.localAction_reports hx hk ha dt State.releaseAction (hrelease r rest h) rfl
    · exact State.localAction_fails hx hk ha dt State.releaseAction (hreleaseNone h) rfl
    · exact State.localAction_reports hx hk ha dt State.popAction (hpop r rest h) rfl
    · exact State.localAction_fails hx hk ha dt State.popAction (hpopNone h) rfl
  · intro dt x v code s hx hk acted
    refine ⟨fun ha => ⟨?_, fun _ => ?_, fun hv => ?_⟩, fun ha _ => ?_⟩
    · exact State.localAction_reports hx hk ha dt (State.clearCausesAction · v) rfl rfl
    · exact State.localAction_fails hx hk ha dt (State.reported · .badAction) rfl rfl
    · obtain ⟨hsend, hcancel, hclear⟩ := (s.acting dt x).mailboxActions_badOperand hv
      simp only [List.forall_mem_cons, List.not_mem_nil, false_imp_iff, implies_true, and_true]
      refine ⟨?_, ?_, ?_⟩
      · exact State.localAction_fails hx hk ha dt (State.sendAction · v) hsend rfl
      · exact State.localAction_fails hx hk ha dt (State.cancelAction · v) hcancel rfl
      · exact State.localAction_fails hx hk ha dt (State.clearAction · v) hclear rfl
    · have again (act : State → State) := State.localAction_again hx hk ha dt act
      simp only [List.forall_mem_cons, List.not_mem_nil, false_imp_iff, implies_true, and_true]
      exact ⟨again _, again _, again _, again _, again _, again _, again _, again _, again _, again _⟩

end Sys2Proof.Machine
end


section
/-! PROOFS. The outcome, strip, delivery and broadcast steps on a container (R86, R88 to R90, R97, R99). -/

namespace Sys2Proof.Machine

/-! ### Outcome (R86) -/

/-- The lowest mailbox whose outcome is due at an index is the one that settles there. -/
theorem State.dueMailboxAt_lowest {s : State} {i m : Fin 8} {r : Flight} (hm : s.sched.mailboxes[m].dueAt i = some r)
    (hlowest : ∀ n : Fin 8, n < m → s.sched.mailboxes[n].dueAt i = none) : s.dueMailboxAt i = some m := by
  rw [State.dueMailboxAt, ← Fin.find?_eq_find?_finRange, Fin.find?_eq_some_iff]
  refine ⟨congrArg Option.isSome hm, fun n hn => ?_⟩
  exact congrArg Option.isSome (hlowest n hn)

theorem Mailbox.dueAt_of_due {m : Mailbox} {r : Flight} {i : Fin 8} (hm : m.state = .inFlight r true) (hi : r.index = i) :
    m.dueAt i = some r := by
  rw [Mailbox.dueAt, hm]
  exact if_pos hi

theorem State.outcomeStep_due {s : State} {i m : Fin 8} {r : Flight} (hm : s.sched.mailboxes[m].dueAt i = some r)
    (hlowest : ∀ n : Fin 8, n < m → s.sched.mailboxes[n].dueAt i = none) (f : ContainerFrame) :
    s.outcomeStep i f =
      (s.settle m (outcomeOf (decide (stationOf s.sched.mailboxes[m].dest = 63#6)) (s.matchesFlight f r) f.isRefused)).handled
        (if s.matchesFlight f r then f.emptied else f) := by
  have hdue : (s.mailbox m).dueAt i = some r := hm
  rw [State.outcomeStep, State.dueMailboxAt_lowest hm hlowest]
  dsimp only
  rw [hdue]
  rfl

theorem State.matchesFlight_iff (s : State) (f : ContainerFrame) (r : Flight) :
    s.matchesFlight f r = true ↔
      f.isFull = true ∧ stationOf f.source = s.rst.station ∧ f.tag = r.tag ∧ f.cls = 0x02#8 := by
  simp only [State.matchesFlight, State.ownNumber, Bool.and_eq_true, decide_eq_true_eq, and_assoc]

/-- A settled mailbox keeps the record of its flight (R97). -/
theorem State.settle_inFlight {s : State} {m : Fin 8} {r : Flight} {due : Bool}
    (hm : s.sched.mailboxes[m].state = .inFlight r due) (o : MsgOutcome) :
    s.settle m o =
      State.raise
        { s with sched := { s.sched with
          mailboxes := upd s.sched.mailboxes m { s.sched.mailboxes[m] with state := .done o (some r) } } } (.outcome m) := by
  rw [State.settle, State.mailbox, hm]
  rfl

/-- The outcome step of a due mailbox: its outcome by what the container shows, which is emptied where it is the mailbox's own. -/
theorem State.outcomeStep_settles {s : State} {i m : Fin 8} {r : Flight} (hm : s.sched.mailboxes[m].state = .inFlight r true)
    (hi : r.index = i) (hlowest : ∀ n : Fin 8, n < m → s.sched.mailboxes[n].dueAt i = none) (f : ContainerFrame)
    {broadcast found refused : Bool} (hbroadcast : decide (stationOf s.sched.mailboxes[m].dest = 63#6) = broadcast)
    (hfound : s.matchesFlight f r = found) (hrefused : f.isRefused = refused) :
    s.outcomeStep i f =
      ⟨State.raise
        { s with sched := { s.sched with
          mailboxes := upd s.sched.mailboxes m
            { s.sched.mailboxes[m] with state := .done (outcomeOf broadcast found refused) (some r) } } } (.outcome m),
        if found = true then f.emptied else f⟩ := by
  rw [State.outcomeStep_due (Mailbox.dueAt_of_due hm hi) hlowest f, State.settle_inFlight hm, hbroadcast, hfound, hrefused]
  rfl

/-! ### Strip (R88) -/

theorem State.stripStep_own {s : State} {f : ContainerFrame} (hfull : f.isFull = true)
    (hsource : stationOf f.source = s.rst.station) :
    s.stripStep f = (s.count fun c => { c with orphanStripped := satInc c.orphanStripped }).handled f.emptied := by
  rw [State.stripStep, hfull, State.ownNumber, decide_eq_true hsource]
  rfl

/-! ### Delivery (R89) and broadcast (R90) -/

/-- The delivery step acts on the container: it is FULL, for this tap, and not refused (R89). -/
def State.delivers (s : State) (f : ContainerFrame) : Prop :=
  f.isFull = true ∧ stationOf f.dest = s.rst.station ∧ f.isRefused = false

theorem State.delivers_iff (s : State) (f : ContainerFrame) :
    (f.isFull && s.ownNumber f.dest && !f.isRefused) = true ↔ s.delivers f := by
  simp only [State.delivers, State.ownNumber, Bool.and_eq_true, decide_eq_true_eq, Bool.not_eq_true', and_assoc]

theorem State.deliveryStep_other {s : State} {f : ContainerFrame} (h : ¬s.delivers f) : s.deliveryStep f = s.handled f :=
  if_neg (mt (s.delivers_iff f).mp h)

/-- A management request is taken where the response queue has room, and turned away where it has none. -/
theorem State.deliveryStep_request {s : State} {f : ContainerFrame} (h : s.delivers f) (hcls : f.cls = 0x00#8) :
    s.deliveryStep f =
      if s.mgmt.responses.length < 4 then (s.takePayload (stationOf f.source) f.tag f.message).handled f.emptied
      else s.countRefused.handled f.withRefused := by
  rw [State.deliveryStep, if_pos ((s.delivers_iff f).mpr h), if_pos hcls]
  rfl

/-- A USER message joins the inbound queue where it has room, and is turned away where it has none. -/
theorem State.deliveryStep_message {s : State} {f : ContainerFrame} (h : s.delivers f) (hcls : f.cls = 0x02#8) :
    s.deliveryStep f =
      if s.inbound.length < 8 then (s.joinInbound f false).handled f.emptied else s.countRefused.handled f.withRefused := by
  rw [State.deliveryStep, if_pos ((s.delivers_iff f).mpr h), if_neg (by rw [hcls]; decide), if_pos hcls]
  rfl

theorem State.deliveryStep_otherClass {s : State} {f : ContainerFrame} (h : s.delivers f) (hrequest : f.cls ≠ 0x00#8)
    (hmessage : f.cls ≠ 0x02#8) : s.deliveryStep f = s.countProtocolError.handled f.emptied := by
  rw [State.deliveryStep, if_pos ((s.delivers_iff f).mpr h), if_neg hrequest, if_neg hmessage]

/-- A broadcast joins the inbound queue as a unicast message does, or is dropped; any other class is a protocol error. -/
theorem State.broadcastStep_broadcast (s : State) {f : ContainerFrame} (h : f.isFull = true ∧ stationOf f.dest = 63#6) :
    s.broadcastStep f =
      if f.cls = 0x02#8 then
        if s.inbound.length < 8 then s.joinInbound f true
        else s.count fun c => { c with broadcastDropped := satInc c.broadcastDropped }
      else s.countProtocolError := by
  obtain ⟨hfull, hdest⟩ := h
  rw [State.broadcastStep, hfull, decide_eq_true hdest]
  rfl

theorem State.broadcastStep_other (s : State) {f : ContainerFrame} (h : ¬(f.isFull = true ∧ stationOf f.dest = 63#6)) :
    s.broadcastStep f = s :=
  if_neg fun hb => h (by simpa only [Bool.and_eq_true, decide_eq_true_eq] using hb)

/-- Settles O24. -/
theorem containerSteps : Obligations.ContainerSteps := by
  refine ⟨?_, ?_, ?_, ?_⟩
  · intro s index f
    refine ⟨fun h => State.outcomeStep_none h f, ?_⟩
    intro m r hm hi hlowest found unicast settles
    have step {broadcast isFound refused : Bool} (hbroadcast : decide (stationOf s.sched.mailboxes[m].dest = 63#6) = broadcast)
        (hfound : s.matchesFlight f r = isFound) (hrefused : f.isRefused = refused) :=
      State.outcomeStep_settles hm hi hlowest f hbroadcast hfound hrefused
    have yes (h : found) : s.matchesFlight f r = true := (s.matchesFlight_iff f r).mpr h
    have no (h : ¬found) : s.matchesFlight f r = false := Bool.eq_false_iff.mpr (mt (s.matchesFlight_iff f r).mp h)
    have toAll (h : ¬unicast) : stationOf s.sched.mailboxes[m].dest = 63#6 := not_not.mp h
    refine ⟨fun hu hf hr => ?_, fun hu hf hr => ?_, fun hu hf => ?_, fun hu hf => ?_, fun hu hf => ?_⟩
    · exact (step (decide_eq_false hu) (yes hf) hr).trans (congrArg (Handled.mk _) (if_pos hf).symm)
    · exact (step (decide_eq_false hu) (yes hf) hr).trans (congrArg (Handled.mk _) (if_pos hf).symm)
    · exact (step (decide_eq_false hu) (no hf) rfl).trans (congrArg (Handled.mk _) (if_neg hf).symm)
    · exact (step (decide_eq_true (toAll hu)) (yes hf) rfl).trans (congrArg (Handled.mk _) (if_pos hf).symm)
    · exact (step (decide_eq_true (toAll hu)) (no hf) rfl).trans (congrArg (Handled.mk _) (if_neg hf).symm)
  · intro s f
    refine ⟨State.stripStep_own, fun h => State.stripStep_other ?_⟩
    rw [Bool.and_eq_false_iff]
    exact h.imp_right decide_eq_false
  · intro s f here refused
    refine ⟨State.deliveryStep_other, fun h hcls hroom => ?_, fun h hcls hroom => ?_, fun h hcls hroom => ?_,
      fun h hcls hroom => ?_, State.deliveryStep_otherClass⟩
    · exact congrArg Handled.frame ((State.deliveryStep_request h hcls).trans (if_pos hroom))
    · exact (State.deliveryStep_request h hcls).trans (if_neg (Nat.not_lt.mpr hroom))
    · exact (State.deliveryStep_message h hcls).trans (if_pos hroom)
    · exact (State.deliveryStep_message h hcls).trans (if_neg (Nat.not_lt.mpr hroom))
  · intro s f broadcast
    refine ⟨s.broadcastStep_other, fun h hcls hroom => ?_, fun h hcls hroom => ?_, fun h hcls => ?_⟩
    · exact ((s.broadcastStep_broadcast h).trans (if_pos hcls)).trans (if_pos hroom)
    · exact ((s.broadcastStep_broadcast h).trans (if_pos hcls)).trans (if_neg (Nat.not_lt.mpr hroom))
    · exact (s.broadcastStep_broadcast h).trans (if_neg hcls)

end Sys2Proof.Machine
end


section
/-! PROOFS. The request that a payload spells (R106, 12.2), and the rows of the requests as deliveries (R89, R107, R108). -/

namespace Sys2Proof

/-! ### The payload of a request (R106) -/

theorem word16_be16 (x : Word) : word16 (x.extractLsb' 8 8) (x.extractLsb' 0 8) = x :=
  (BitVec.extractLsb'_append_extractLsb'_eq_extractLsb' rfl).trans BitVec.extractLsb'_eq_self

theorem be16_word16 (a b : Byte) : be16 (word16 a b) = [a, b] := by
  rw [be16, word16, BitVec.extractLsb'_append_eq_left, BitVec.extractLsb'_append_eq_right]

/-- A request's payload spells it, whatever follows (R106). -/
theorem Request.decode_payload (r : Request) (extra : List Byte) : Request.decode (r.payload ++ extra) = some r := by
  cases r with
  | openEdit id => simp [Request.payload, Request.code, Request.operands, Request.decode, be16, word16_be16]
  | stageEntry t i x =>
    have hentry : (Vector.ofFn fun k : Fin 8 => (t :: i :: (x.toList ++ extra)).getD (k.val + 2) 0) = x := by
      refine Vector.ext fun k hk => ?_
      simp [List.getElem?_append_left]
    simpa [Request.payload, Request.code, Request.operands, Request.decode] using hentry
  | _ => simp [Request.payload, Request.code, Request.operands, Request.decode]

/-- The first bytes of a list that is long enough, by their places. -/
theorem take_eq_ofFn_getD {n : Nat} {l : List Byte} (h : n ≤ l.length) : l.take n = List.ofFn fun i : Fin n => l.getD i.val 0 := by
  refine List.ext_getElem (by simp [h]) fun i hi _ => ?_
  rw [List.length_take, Nat.min_eq_left h] at hi
  simp [hi.trans_le h]

/-- A command with no operands. -/
theorem Request.spelt_plain {q r : Request} {ops : List Byte} (hq : q.operands = []) (h : some q = some r) :
    ∃ extra, q.code :: ops = r.payload ++ extra := by
  cases h
  exact ⟨ops, by rw [Request.payload, hq, List.cons_append, List.nil_append]⟩

/-- A command with `n` operand bytes, read from their places. -/
theorem Request.spelt_operands {q r : Request} {ops : List Byte} {n : Nat}
    (hq : q.operands = List.ofFn fun i : Fin n => ops.getD i.val 0) (h : (if n ≤ ops.length then some q else none) = some r) :
    ∃ extra, q.code :: ops = r.payload ++ extra := by
  split at h
  · rename_i hn
    cases h
    refine ⟨ops.drop n, ?_⟩
    rw [Request.payload, hq, ← take_eq_ofFn_getD hn, List.cons_append, List.take_append_drop]
  · cases h

/-- One code more: the payload has this code, or what follows in the table tells. -/
theorem Request.spelt_or {code c : Byte} {ops : List Byte} {x y : Option Request} {r : Request}
    (h : (if code = c then x else y) = some r) (hx : x = some r → ∃ extra, c :: ops = r.payload ++ extra)
    (hy : y = some r → ∃ extra, code :: ops = r.payload ++ extra) : ∃ extra, code :: ops = r.payload ++ extra := by
  split at h
  · rename_i hc
    rw [hc]
    exact hx h
  · exact hy h

/-- A payload that spells a request is that request's, command by command in the order of 12.2. -/
theorem Request.payload_of_decode {l : List Byte} {r : Request} (h : Request.decode l = some r) :
    ∃ extra, l = r.payload ++ extra := by
  cases l with
  | nil => cases h
  | cons code ops =>
    have hid : (Request.openEdit (word16 (ops.getD 0 0) (ops.getD 1 0))).operands = List.ofFn fun i : Fin 2 => ops.getD i.val 0 :=
      be16_word16 _ _
    have hentry : (Request.stageEntry (ops.getD 0 0) (ops.getD 1 0) (Vector.ofFn fun k => ops.getD (k.val + 2) 0)).operands =
        List.ofFn fun i : Fin 10 => ops.getD i.val 0 := by
      simp [Request.operands, Vector.toList_ofFn, List.ofFn_succ]
    refine spelt_or h (spelt_plain rfl) fun h => ?_
    refine spelt_or h (spelt_plain rfl) fun h => ?_
    refine spelt_or h (spelt_operands rfl) fun h => ?_
    refine spelt_or h (spelt_operands rfl) fun h => ?_
    refine spelt_or h (spelt_operands rfl) fun h => ?_
    refine spelt_or h (spelt_operands rfl) fun h => ?_
    refine spelt_or h (spelt_operands rfl) fun h => ?_
    refine spelt_or h (spelt_operands hid) fun h => ?_
    refine spelt_or h (spelt_operands hentry) fun h => ?_
    refine spelt_or h (spelt_operands rfl) fun h => ?_
    refine spelt_or h (spelt_operands rfl) fun h => ?_
    refine spelt_or h (spelt_plain rfl) fun h => ?_
    refine spelt_or h (spelt_plain rfl) fun h => ?_
    refine spelt_or h (spelt_plain rfl) fun h => ?_
    refine spelt_or h (spelt_plain rfl) fun h => ?_
    refine spelt_or h (spelt_operands rfl) fun h => ?_
    refine spelt_or h (spelt_operands rfl) fun h => ?_
    refine spelt_or h (spelt_plain rfl) fun h => ?_
    refine spelt_or h (spelt_operands rfl) fun h => ?_
    refine spelt_or h (spelt_plain rfl) fun h => ?_
    exact nomatch h

end Sys2Proof

namespace Sys2Proof.Machine

/-! ### The row of a request is a delivery (R89, R106) -/

/-- The delivery step on a management request for this tap delivers what its message is taken for. -/
theorem State.deliveryStep_delivers {s : State} {f : ContainerFrame}
    (ht : s.ctl.tapState = .unconfigured ∨ s.ctl.tapState = .online ∨ s.ctl.tapState = .halted) (h : s.delivers f)
    (hcls : f.cls = 0x00#8) {code : Byte} {run : State → Reply}
    (htake : s.takePayload (stationOf f.source) f.tag f.message = s.takeRequest (stationOf f.source) f.tag code run) :
    (s.deliveryStep f).state = (s.elapse 0).deliver (stationOf f.source) f.tag code run := by
  rw [State.deliveryStep_request h hcls, htake, apply_ite Handled.state]
  exact (if_pos ((takesContainers_iff _).mpr ht)).symm

/-- Settles O25. -/
theorem requestsAreDelivered : Obligations.RequestsAreDelivered := by
  refine ⟨?_, ?_, ?_⟩
  · intro r s f ht hfull hdest hrefused hcls ⟨extra, hmessage⟩
    have htake : s.takePayload (stationOf f.source) f.tag f.message =
        s.takeRequest (stationOf f.source) f.tag r.code (runRequest r (stationOf f.source)) := by
      rw [State.takePayload, hmessage, Request.decode_payload]
    rw [exec_requestRow_eq, State.deliveryStep_delivers ht ⟨hfull, hdest, hrefused⟩ hcls htake]
  · intro s f ht hfull hdest hrefused hcls hother
    have hnone : Request.decode f.message = none := Option.eq_none_iff_forall_ne_some.mpr fun r hr =>
      (Request.payload_of_decode hr).elim (hother r)
    have htake : s.takePayload (stationOf f.source) f.tag f.message =
        s.takeRequest (stationOf f.source) f.tag (f.message.headD 0) runBadCommand := by
      rw [State.takePayload, hnone]
    exact congrArg Host.Outcome.next (State.deliveryStep_delivers ht ⟨hfull, hdest, hrefused⟩ hcls htake).symm
  · intro r dt src tag s
    rw [exec_requestRow_eq]
    refine ⟨fun ht hr => ?_, fun h hm => ?_, fun h hm c hc htag => ?_⟩
    · rw [State.deliver_full ht hr]
    · rw [State.deliver_notPermitted h hm]
    · rw [← htag, State.deliver_cached h hm hc]

end Sys2Proof.Machine
end


section
/-! PROOFS. The fill step on an EMPTY container, and the container that a response fills (R91 to R93, R124). -/

namespace Sys2Proof.Machine

/-! ### What may fill (R91, R92) -/

/-- The oldest response is eligible, unless it answers a request just taken from this container. -/
theorem eligibleResponse_oldest {r : Response} {rest : List Response} {took : Bool} (h : took = false ∨ rest ≠ []) :
    eligibleResponse (r :: rest) took = some (r, rest) := by
  cases rest with
  | nil =>
    obtain rfl : took = false := h.resolve_right fun hne => hne rfl
    rfl
  | cons x xs => rfl

theorem eligibleResponse_none {q : List Response} {took : Bool} (h : q = [] ∨ ∃ r, q = [r] ∧ took = true) :
    eligibleResponse q took = none := by
  rcases h with rfl | ⟨r, rfl, rfl⟩ <;> rfl

theorem State.waiting_iff (s : State) (m : Fin 8) : s.waiting m = true ↔ s.sched.mailboxes[m].state = .waiting := by
  show s.sched.mailboxes[m].state.isWaiting = true ↔ _
  cases s.sched.mailboxes[m].state <;> simp [MailboxState.isWaiting]

theorem State.not_waiting {s : State} {m : Fin 8} (h : s.sched.mailboxes[m].state ≠ .waiting) : s.waiting m = false :=
  Bool.eq_false_iff.mpr (mt (s.waiting_iff m).mp h)

theorem State.userFillAllowed_iff (s : State) (t : TapState) :
    s.userFillAllowed t = true ↔ (t = .online ∨ t = .halted) ∧ s.sched.fills < s.mgmt.active.params.fillQuota.toNat := by
  simp only [State.userFillAllowed, Bool.and_eq_true, Bool.or_eq_true, decide_eq_true_eq]

/-! ### The mailbox that fills (R91) -/

theorem State.chooseMailbox_urgent {s : State} {u : Fin 8} (hu : s.mgmt.active.params.urgent = some u) (hw : s.waiting u = true) :
    s.chooseMailbox = some (u, false) := by
  rw [State.chooseMailbox, hu]
  exact if_pos hw

/-- The urgent mailbox, if there is one, is not WAITING. -/
def State.NoUrgent (s : State) : Prop := ∀ u, s.mgmt.active.params.urgent = some u → s.waiting u = false

theorem State.chooseMailbox_fixed {s : State} (hno : s.NoUrgent) (horder : s.mgmt.active.params.order = .fixed) :
    s.chooseMailbox = ((List.finRange 8).find? s.waiting).map fun m => (m, false) := by
  rw [State.chooseMailbox, horder]
  split
  · rename_i u hu
    exact if_neg (Bool.eq_false_iff.mp (hno u hu))
  · rfl

theorem State.chooseMailbox_rotating {s : State} (hno : s.NoUrgent) (horder : s.mgmt.active.params.order = .rotating) :
    s.chooseMailbox = ((rotation s.sched.pointer).find? s.waiting).map fun m => (m, true) := by
  rw [State.chooseMailbox, horder]
  split
  · rename_i u hu
    exact if_neg (Bool.eq_false_iff.mp (hno u hu))
  · rfl

theorem State.chooseMailbox_none {s : State} (h : ∀ m, s.waiting m = false) : s.chooseMailbox = none := by
  have hno : s.NoUrgent := fun u _ => h u
  have hfind (l : List (Fin 8)) : l.find? s.waiting = none := List.find?_eq_none.mpr fun m _ => Bool.eq_false_iff.mp (h m)
  cases horder : s.mgmt.active.params.order with
  | fixed => rw [State.chooseMailbox_fixed hno horder, hfind, Option.map_none]
  | rotating => rw [State.chooseMailbox_rotating hno horder, hfind, Option.map_none]

/-- Under FIXED the lowest WAITING mailbox fills. -/
theorem State.chooseMailbox_lowest {s : State} {m : Fin 8} (hno : s.NoUrgent) (horder : s.mgmt.active.params.order = .fixed)
    (hm : s.waiting m = true) (hlowest : ∀ n : Fin 8, n.val < m.val → s.waiting n = false) :
    s.chooseMailbox = some (m, false) := by
  have hfind : (List.finRange 8).find? s.waiting = some m := by
    rw [← Fin.find?_eq_find?_finRange, Fin.find?_eq_some_iff]
    exact ⟨hm, hlowest⟩
  rw [State.chooseMailbox_fixed hno horder, hfind, Option.map_some]

/-- Under ROTATING the next WAITING mailbox after the pointer fills, and the pointer moves to it. -/
theorem State.chooseMailbox_next {s : State} {i : Nat} (hno : s.NoUrgent) (horder : s.mgmt.active.params.order = .rotating)
    (hi : i < 8) (hm : s.waiting (Fin.ofNat 8 (s.sched.pointer.val + 1 + i)) = true)
    (hfirst : ∀ j, j < i → s.waiting (Fin.ofNat 8 (s.sched.pointer.val + 1 + j)) = false) :
    s.chooseMailbox = some (Fin.ofNat 8 (s.sched.pointer.val + 1 + i), true) := by
  have hfind : (List.range 8).find? (s.waiting ∘ fun j => Fin.ofNat 8 (s.sched.pointer.val + 1 + j)) = some i :=
    List.find?_range_eq_some.mpr ⟨hm, List.mem_range.mpr hi, fun j hj => by
      rw [Function.comp_apply, hfirst j hj]
      rfl⟩
  rw [State.chooseMailbox_rotating hno horder, rotation, List.find?_map, hfind]
  rfl

/-! ### The fill step (R91 to R93) -/

theorem State.fillStep_response {s : State} {r : Response} {rest : List Response} {took : Bool}
    (hq : s.mgmt.responses = r :: rest) (h : took = false ∨ rest ≠ []) (t : TapState) (i : Fin 8) (f : ContainerFrame) :
    s.fillStep t took i f = (s.fillFromResponse i r rest, filledFromResponse f.index s.rst.station r) := by
  rw [State.fillStep, hq, eligibleResponse_oldest h]

theorem State.fillStep_passes {s : State} {t : TapState} {took : Bool} (hq : eligibleResponse s.mgmt.responses took = none)
    (h : s.userFillAllowed t = false ∨ s.chooseMailbox = none) (i : Fin 8) (f : ContainerFrame) :
    s.fillStep t took i f = (s, f) := by
  rw [State.fillStep, hq]
  rcases h with h | h
  · exact if_neg (Bool.eq_false_iff.mp h)
  · rw [h]
    exact ite_self _

theorem State.fillStep_mailbox {s : State} {t : TapState} {took moves : Bool} {m : Fin 8}
    (hq : eligibleResponse s.mgmt.responses took = none) (hallowed : s.userFillAllowed t = true)
    (hm : s.chooseMailbox = some (m, moves)) (i : Fin 8) (f : ContainerFrame) :
    s.fillStep t took i f =
      (s.fillFromMailbox i m moves, filledFromMailbox f.index s.rst.station s.sched.mailboxes[m] s.sched.tagCounter) := by
  rw [State.fillStep, hq, hm]
  exact if_pos hallowed

/-! ### A good CONTAINER whose effect may place a RESTART's response (R124) -/

theorem State.containerMet_eq (s : State) (dt : Nat) (p : Port) :
    let u := s.containerMet dt p
    u = { s with now := s.now + dt, trk := u.trk, portW := u.portW, portE := u.portE } := by
  cases p <;> rfl

theorem State.containerMet_mgmt (s : State) (dt : Nat) (p : Port) : (s.containerMet dt p).mgmt = s.mgmt := by
  rw [s.containerMet_eq dt p]

/-- A response that is not a RESTART's leaves the pending restart as it was. -/
theorem State.fillFromResponse_pending (s : State) {i : Fin 8} {r : Response} {rest : List Response} (h : r.restarts = false) :
    (s.fillFromResponse i r rest).mgmt.pendingRestart = s.mgmt.pendingRestart :=
  if_neg (Bool.eq_false_iff.mp h)

/-- The response of a RESTART marks where it was placed (R124). -/
theorem State.fillFromResponse_placed (s : State) {i : Fin 8} {r : Response} {rest : List Response} {x : PendingRestart}
    (h : r.restarts = true) (hx : s.mgmt.pendingRestart = some x) :
    (s.fillFromResponse i r rest).mgmt.pendingRestart = some { x with placed := some i } := by
  rw [State.fillFromResponse, hx]
  exact if_pos h

/-- A frame that finds no ECHO being sent leaves at once, with the mark of a RESTART's response that it carries (R124, R145). -/
theorem State.leaves_free {s : State} {out : Option Port} (h : ∀ q, out = some q → (s.unit q).tx = none) (x : SentContent)
    (written restarts : Bool) :
    let t := s.leaves out x written restarts
    t = { s with mgmt := t.mgmt, sent := t.sent } ∧
      t.mgmt = { s.mgmt with
        pendingRestart :=
          if out ≠ none ∧ restarts = true then s.mgmt.pendingRestart.map fun y => { y with left := true }
          else s.mgmt.pendingRestart } ∧
      ∀ q, out = some q → t.sent = s.sent ++ [⟨q, x⟩] := by
  cases out with
  | none => exact ⟨rfl, rfl, fun q hq => nomatch hq⟩
  | some q =>
    have hleaves : s.leaves (some q) x written restarts =
        { s with
          sent := s.sent ++ [⟨q, x⟩]
          mgmt := { s.mgmt with
            pendingRestart :=
              if restarts = true then s.mgmt.pendingRestart.map fun y => { y with left := true } else s.mgmt.pendingRestart } } :=
      if_neg (by rw [h q rfl]; exact Bool.false_ne_true)
    have hmark : (some q ≠ none ∧ restarts = true) ↔ restarts = true := and_iff_right (Option.some_ne_none q)
    dsimp only
    rw [hleaves, if_congr hmark rfl rfl]
    exact ⟨rfl, rfl, fun q' hq => by cases hq; rfl⟩

/-- A good CONTAINER at its expected index, at a listening port whose line is free: beside what its acting moves, the tracker and
the ports move on and the container leaves, with the mark of a RESTART's response that it takes (R27, R30, R84, R124). -/
theorem exec_container_leaves {s : State} {dt : Nat} {p : Port} {f : ContainerFrame} {r : Handled} {i : Fin 8} (hl : s.listens p)
    (hfree : s.lineFree p) (hr : s.trk.record = .inTrain p) (hx : s.trk.expected = some (.container i.val))
    (hi : f.index.toNat = i.val) (hact : (s.containerMet dt p).actOnContainer f = r) :
    ∃ t : State,
      exec (.container dt p f (some (Frame.check (.container f)))) s = .next t ∧
        t = { r.state with trk := t.trk, mgmt := t.mgmt, sent := t.sent, portW := t.portW, portE := t.portE } ∧
        t.mgmt = { r.state.mgmt with
          pendingRestart :=
            if s.route p ≠ none ∧ (!s.restartPlaced && r.state.restartPlaced) = true then
              r.state.mgmt.pendingRestart.map fun y => { y with left := true }
            else r.state.mgmt.pendingRestart } ∧
        ∀ out, s.route p = some out →
          t.sent = s.sent ++ [⟨out, .whole (.container r.frame) (Frame.check (.container r.frame))⟩] := by
  have hline : (s.containerMet dt p).SameLine r.state := hact ▸ State.sameLine_actOnContainer _ f
  have htx (q : Port) : (r.state.unit q).tx = (s.unit q).tx := (hline.tx q).trans (s.countedGood_tx dt p _ q)
  have hsent : r.state.sent = s.sent := hline.sent.trans (congrArg State.sent (s.containerMet_eq dt p) :)
  have hexec := exec_container_expected (State.meets_of_listens hl (.inl (by simp))) hr hx hi hact
  obtain ⟨hstate, hmgmt, hout⟩ := State.leaves_free
    (s := { r.state with
      trk :=
        { r.state.trk with
          expected := some (if i.val + 1 < r.state.trk.containers.toNat then .container (i.val + 1) else .roll)
          gapTimer := some (s.now + dt + 100) } })
    (out := s.route p) (fun q hq => (htx q).trans (hfree q hq)) (.whole (.container r.frame) (Frame.check (.container r.frame)))
    false (!s.restartPlaced && r.state.restartPlaced)
  refine ⟨_, hexec, ?_⟩
  generalize ht : State.leaves _ _ _ _ _ = t at hstate hmgmt hout
  have ht' : State.leaves _ (s.decides p .container).out _ _ _ = t := ht
  rw [ht', State.windowAdd_good, State.modUnit_sent, State.modUnit_mgmt]
  refine ⟨?_, hmgmt, fun q hq => hsent ▸ hout q hq⟩
  generalize t.mgmt = mgmt, t.sent = sent at hstate
  subst hstate
  cases p <;> rfl

/-- Settles O23. -/
theorem emptyContainersAreFilled : Obligations.EmptyContainersAreFilled := by
  refine ⟨?_, ?_⟩
  · intro s t took index f own free allowed waits noUrgent filled
    have hno (h : noUrgent) : s.NoUrgent := fun u hu => State.not_waiting (h u hu)
    have hwaits {m : Fin 8} (h : waits m) : s.waiting m = true := (s.waiting_iff m).mpr h
    have fills {m : Fin 8} {moves : Bool} (hq : free) (ha : allowed) (hm : s.chooseMailbox = some (m, moves)) :=
      State.fillStep_mailbox (eligibleResponse_none hq) ((s.userFillAllowed_iff t).mpr ha) hm index f
    refine ⟨fun r rest hq h => State.fillStep_response hq h t index f, fun hq h => ?_, fun hq ha => ⟨fun u hu hw => ?_, ?_, ?_⟩⟩
    · refine State.fillStep_passes (eligibleResponse_none hq) (h.imp (fun h => ?_) fun h => ?_) index f
      · exact Bool.eq_false_iff.mpr (mt (s.userFillAllowed_iff t).mp h)
      · exact State.chooseMailbox_none fun m => State.not_waiting (h m)
    · exact fills hq ha (State.chooseMailbox_urgent hu (hwaits hw))
    · intro h horder m hm hlowest
      exact fills hq ha (State.chooseMailbox_lowest (hno h) horder (hwaits hm) fun n hn => State.not_waiting (hlowest n hn))
    · intro h horder i hi hm hfirst
      exact fills hq ha (State.chooseMailbox_next (hno h) horder hi (hwaits hm) fun j hj => State.not_waiting (hfirst j hj))
  · intro dt p f i r rest s hl hfree hr hx ht hi hempty hq hdue g
    have hu := s.containerMet_eq dt p
    dsimp only at hu
    have hindex : Fin.ofNat 8 f.index.toNat = i := by
      rw [hi]
      exact Fin.ofNat_val_eq_self i
    have hwell : f.malformed = false := by
      rw [ContainerFrame.malformed, hempty]
      rfl
    have hact : (s.containerMet dt p).actOnContainer f = ((s.containerMet dt p).fillFromResponse i r rest).handled g := by
      rw [hu, State.actOnContainer_steps hwell (by exact ht), hindex, State.containerSteps_empty _ hempty (by exact hdue),
        State.fillStep_response (by exact hq) (.inl rfl)]
      rfl
    obtain ⟨t, hexec, hframe, hmgmt, hsent⟩ := exec_container_leaves hl hfree hr hx hi hact
    have hmet : (s.containerMet dt p).mgmt = s.mgmt := s.containerMet_mgmt dt p
    refine ⟨t, hexec, ?_, ?_, fun hrestarts => ?_, fun x hrestarts hpending hnone hroute => ?_, hsent⟩
    · generalize s.containerMet dt p = u at hu hframe
      generalize u.trk = trk, u.portW = portW, u.portE = portE at hu
      subst hu
      exact hframe
    · rw [hmgmt]
      simp only [State.handled, State.fillFromResponse, hmet]
    · have hpending := (s.containerMet dt p).fillFromResponse_pending (i := i) (rest := rest) hrestarts
      rw [hmgmt, State.restartPlaced_bind, State.restartPlaced_bind]
      simp only [State.handled, hpending, hmet, Bool.not_and_self, Bool.false_eq_true, and_false, if_false]
    · have hfill := (s.containerMet dt p).fillFromResponse_placed (i := i) (rest := rest) hrestarts (by rw [hmet]; exact hpending)
      rw [hmgmt, State.restartPlaced_bind, State.restartPlaced_bind]
      simp only [State.handled, hfill, hpending, hnone, Option.bind_some]
      exact if_pos ⟨hroute, rfl⟩

end Sys2Proof.Machine
end

section
/-! PROOFS. The first two checks of STAGE ENTRY, CLEAR STAGED and COMMIT (R115, R117): the session must be the requester's own, and OPEN. -/

namespace Sys2Proof.Machine

/-! ### The session of the requester -/

section
variable {s : State} {src : Station} {x : Session}

theorem State.openOwn_noSession (h : s.mgmt.session = none) : s.openOwn src = .error .noSession := by
  rw [State.openOwn, h]

theorem State.openOwn_other (h : s.mgmt.session = some x) (ho : x.owner ≠ src) : s.openOwn src = .error .noSession := by
  rw [State.openOwn, h]
  exact if_pos ho

theorem State.openOwn_committing {m : Option Byte} (h : s.mgmt.session = some x) (ho : x.owner = src)
    (hx : x.state = .commitPending m) : s.openOwn src = .error .busy := by
  rw [State.openOwn, h]
  dsimp only
  rw [if_neg (not_not_intro ho), hx]
  rfl

theorem State.openOwn_opened {d : Nat} (h : s.mgmt.session = some x) (ho : x.owner = src) (hx : x.state = .opened d) :
    s.openOwn src = .ok x := by
  rw [State.openOwn, h]
  dsimp only
  rw [if_neg (not_not_intro ho), hx]
  rfl

/-- The session that passes the first two checks of R115 and R117 is the requester's own, and OPEN. -/
theorem State.openOwn_ok (h : s.openOwn src = .ok x) :
    s.mgmt.session = some x ∧ x.owner = src ∧ x.state.isOpened = true := by
  unfold State.openOwn at h
  split at h
  · cases h
  · rename_i y hy
    split at h
    · cases h
    · rename_i ho
      split at h
      · rename_i hopened
        cases h
        exact ⟨hy, not_not.mp ho, hopened⟩
      · cases h

end

end Sys2Proof.Machine
end


section
/-! PROOFS. The law of the table sets (R105, R117): the active set, and a staged set whose commit is pending, pass the validation of
COMMIT. Only a COMMIT makes a set wait, and only that set becomes active. Here what the law reads, and the blocks that leave it. -/

namespace Sys2Proof.Machine

/-! ### The management unit stands while the ports and the publish banks act -/

@[simp] theorem State.refit_mgmt (s : State) (p : Port) : (s.refit p).mgmt = s.mgmt := by
  unfold State.refit
  dsimp only
  split
  · split <;> simp
  · simp

@[simp] theorem State.enterUp_mgmt (s : State) (p : Port) : (s.enterUp p).mgmt = s.mgmt := by simp [State.enterUp]

@[simp] theorem State.tryQualify_mgmt (s : State) (p : Port) : (s.tryQualify p).mgmt = s.mgmt := State.modUnit_mgmt s p _

@[simp] theorem State.newPolicy_mgmt (old : ReturnPolicy) (s : State) (p : Port) : (State.newPolicy old s p).mgmt = s.mgmt := by
  unfold State.newPolicy
  split
  · simp
  · split <;> simp

@[simp] theorem State.newQualification_mgmt (s : State) (p : Port) : (s.newQualification p).mgmt = s.mgmt := by
  unfold State.newQualification
  split
  · split <;> simp
  · rfl

@[simp] theorem State.activatePorts_mgmt (s : State) (old : ReturnPolicy) : (s.activatePorts old).mgmt = s.mgmt := by
  unfold State.activatePorts
  rw [foldl_keeps State.mgmt _ State.newQualification_mgmt, foldl_keeps State.mgmt _ (State.newPolicy_mgmt old)]

@[simp] theorem State.activateTapState_mgmt (s : State) : s.activateTapState.mgmt = s.mgmt := by
  unfold State.activateTapState
  split <;> simp

@[simp] theorem State.publishHeader_mgmt (s : State) : s.publishHeader.mgmt = s.mgmt := by
  have taken (t : State) :
      ((List.finRange 4).foldl (fun t p => if s.swaps p then t.raise (.postTaken p) else t) t).mgmt = t.mgmt :=
    foldl_keeps State.mgmt _ (fun t p => by split <;> rfl) _ _
  unfold State.publishHeader
  split
  iterate 3 exact taken _
  iterate 2 rfl

/-- After an activation the management unit holds the staged set as active, no session, the record of the activation, and the cache
pruned to the new managers (R108, R119). -/
theorem State.activate_mgmt (s : State) (x : Session) :
    (s.activate x).mgmt =
      { s.mgmt with
        active := x.staged
        session := none
        activation := some ⟨x.staged.id, s.trk.lastCycle⟩
        cache := pruneCache s.mgmt.cache x.staged } := by
  unfold State.activate
  rw [State.activatePorts_mgmt]
  exact State.activateTapState_mgmt _

/-! ### What keeps the law -/

/-- The law reads the active set and the session alone. -/
theorem State.TablesLaw.of_tables {s t : State} (h : s.TablesLaw) (ha : t.mgmt.active = s.mgmt.active)
    (hs : t.mgmt.session = s.mgmt.session) : t.TablesLaw := by
  unfold State.TablesLaw
  rw [ha, hs]
  exact h

theorem State.TablesLaw.of_mgmt {s t : State} (h : s.TablesLaw) (e : t.mgmt = s.mgmt) : t.TablesLaw :=
  h.of_tables (congrArg Management.active e) (congrArg Management.session e)

/-- What every pass of a fold keeps, the fold keeps. -/
theorem State.TablesLaw.foldl {γ : Type} {g : State → γ → State} (hg : ∀ (t : State) (x : γ), t.TablesLaw → (g t x).TablesLaw)
    (l : List γ) {s : State} (h : s.TablesLaw) : (l.foldl g s).TablesLaw := by
  induction l generalizing s with
  | nil => exact h
  | cons x l ih => exact ih (hg s x h)

/-- A choice of which both sides keep the law, as where BYPASS stops a command. -/
theorem State.TablesLaw.ite {s t : State} (c : Prop) [Decidable c] (hs : s.TablesLaw) (ht : t.TablesLaw) :
    (if c then s else t).TablesLaw := by
  split
  · exact hs
  · exact ht

section
variable {s : State}

theorem State.TablesLaw.modUnit (h : s.TablesLaw) (p : Port) (f : PortUnit → PortUnit) : (s.modUnit p f).TablesLaw :=
  h.of_mgmt (s.modUnit_mgmt p f)

theorem State.TablesLaw.elapse (h : s.TablesLaw) (dt : Nat) : (s.elapse dt).TablesLaw := h

theorem State.TablesLaw.reach (h : s.TablesLaw) (t : Nat) : (s.reach t).TablesLaw := h

theorem State.TablesLaw.count (h : s.TablesLaw) (f : TapCounters → TapCounters) : (s.count f).TablesLaw := h

theorem State.TablesLaw.emit (h : s.TablesLaw) (p : Port) (x : SentContent) : (s.emit p x).TablesLaw := h

theorem State.TablesLaw.modTrk (h : s.TablesLaw) (f : Tracker → Tracker) : (s.modTrk f).TablesLaw := h

theorem State.TablesLaw.armGap (h : s.TablesLaw) (p : Port) : (s.armGap p).TablesLaw := .ite _ h h

theorem State.TablesLaw.raise (h : s.TablesLaw) (x : Source) : (s.raise x).TablesLaw := h.of_mgmt (s.raise_mgmt x)

theorem State.TablesLaw.setSticky (h : s.TablesLaw) (c : Sticky) : (s.setSticky c).TablesLaw := h

theorem State.TablesLaw.setTapState (h : s.TablesLaw) (x : TapState) : (s.setTapState x).TablesLaw :=
  h.of_mgmt (s.setTapState_mgmt x)

theorem State.TablesLaw.close (h : s.TablesLaw) (k : CloseKind) (l : Option (List RollEntry)) : (s.close k l).TablesLaw :=
  h.of_tables (by rw [State.close_mgmt]) (by rw [State.close_mgmt])

/-! ### Edit sessions: a set waits for a header only where it is valid -/

/-- A session takes the place of another, or of none, whose set is valid where its commit is pending. -/
theorem State.TablesLaw.setSession (h : s.TablesLaw) {x : Option Session}
    (hx : ∀ y, x = some y → y.state.isOpened = false → y.staged.firstInvalid = none) : (s.setSession x).TablesLaw := by
  obtain ⟨hactive, -⟩ := h
  exact ⟨hactive, hx⟩

theorem State.TablesLaw.endSession (h : s.TablesLaw) : (s.setSession none).TablesLaw := h.setSession fun _ hy => nomatch hy

/-- What is staged in an OPEN session may be invalid. -/
theorem State.TablesLaw.openSession (h : s.TablesLaw) {x : Session} (hx : x.state.isOpened = true) :
    (s.setSession (some x)).TablesLaw := by
  refine h.setSession ?_
  rintro y ⟨⟩ hy
  rw [hx] at hy
  cases hy

/-- A restart leaves the empty set active, which is valid, and no session (R105). -/
theorem State.tablesLaw_beginRestart (s : State) (kind : RestartKind) : (s.beginRestart kind).TablesLaw :=
  ⟨TableSet.firstInvalid_empty, fun _ hx => nomatch hx⟩

/-! ### Activation: the set that becomes active was committed (R118, R119) -/

theorem State.dueCommit_committed {epoch : Byte} {x : Session} (h : s.dueCommit epoch = some x) : s.commitDue x epoch := by
  unfold State.dueCommit at h
  split at h
  · rename_i y hy
    split at h
    · rename_i hs
      cases h
      exact ⟨hy, .inl hs⟩
    · rename_i e hs
      split at h
      · rename_i he
        cases h
        exact ⟨hy, .inr (he ▸ hs)⟩
      · cases h
    · cases h
  · cases h

theorem State.TablesLaw.activateDue (h : s.TablesLaw) (epoch : Byte) : (s.activateDue epoch).TablesLaw := by
  unfold State.activateDue
  split
  · rename_i x hdue
    obtain ⟨hx, hpending⟩ := State.dueCommit_committed hdue
    obtain ⟨-, hsession⟩ := h
    have hopened : x.state.isOpened = false := by
      obtain hs | hs := hpending
      · rw [hs]
        rfl
      · rw [hs]
        rfl
    unfold State.TablesLaw
    rw [State.activate_mgmt]
    exact ⟨hsession x hx hopened, fun _ hy => nomatch hy⟩
  · exact h

theorem State.TablesLaw.firstPass (h : s.TablesLaw) (p : Port) (f : HeaderFrame) : (s.firstPass p f).TablesLaw := by
  have recorded : (s.recordHeader p f).TablesLaw := by
    unfold State.recordHeader
    dsimp only
    split
    · exact h
    · exact h
  have prepared : ((s.recordHeader p f).prepareTrain f).TablesLaw :=
    (recorded.activateDue f.epoch).of_mgmt (by simp [State.prepareTrain])
  rw [State.firstPass_eq]
  exact .armGap (prepared.modTrk _) p

/-! ### What leaves a port moves the mark of a pending restart alone (R124) -/

theorem State.TablesLaw.depart (h : s.TablesLaw) (p : Port) (x : HeldFrame) : (s.depart p x).TablesLaw := .ite _ h h

theorem State.TablesLaw.sendOut (h : s.TablesLaw) (p : Port) (x : HeldFrame) : (s.sendOut p x).TablesLaw :=
  .ite _ (h.modUnit p _) (h.depart p x)

theorem State.TablesLaw.flushElastic (h : s.TablesLaw) (p : Port) : (s.flushElastic p).TablesLaw :=
  (State.TablesLaw.foldl (fun _ x k => k.depart p x) _ h).modUnit p _

theorem State.TablesLaw.endPartial (h : s.TablesLaw) (p : Port) : (s.endPartial p).TablesLaw := h.of_mgmt (s.endPartial_mgmt p)

theorem State.TablesLaw.cutFrom (h : s.TablesLaw) (p q : Port) : (State.cutFrom p s q).TablesLaw := by
  unfold State.cutFrom
  split
  · exact h
  · split
    · refine State.TablesLaw.modUnit ?_ q _
      split
      · exact .ite _ h (h.emit p _)
      · exact .ite _ h (h.emit p _)
    · exact h

theorem State.TablesLaw.loseHeld (h : s.TablesLaw) (x : HeldFrame) : (s.loseHeld x).TablesLaw := .ite _ (h.count _) h

theorem State.TablesLaw.cutOutputs (h : s.TablesLaw) (p : Port) : (s.cutOutputs p).TablesLaw := by
  have cut : (bothPorts.foldl (State.cutFrom p) s).TablesLaw := .foldl (fun _ q k => k.cutFrom p q) _ h
  have lost := State.TablesLaw.foldl (fun _ x k => k.loseHeld x) ((bothPorts.foldl (State.cutFrom p) s).unit p).elastic cut
  unfold State.cutOutputs
  refine State.TablesLaw.modUnit ?_ p _
  split
  · exact lost.emit p _
  · exact lost

/-! ### A port leaves UP: a segment test there ends, and the train there (R32, R147) -/

theorem State.TablesLaw.endTrainAt (h : s.TablesLaw) (p : Port) : (s.endTrainAt p).TablesLaw := by
  unfold State.endTrainAt
  split
  · exact .ite _ (h.close _ _) h
  · exact .ite _ h h
  · exact h

theorem State.TablesLaw.leaveUp (h : s.TablesLaw) (p : Port) (c : DownCause) : (s.leaveUp p c).TablesLaw := by
  have down : (((s.endPartial p).modUnit p fun u =>
      (u.enterDown c (s.endPartial p).now).count fun c => { c with downs := satInc c.downs }).ringChange.leaveService p).TablesLaw :=
    ((h.endPartial p).modUnit p _).of_mgmt (by rw [State.leaveService_mgmt, State.ringChange_mgmt])
  have aborted (t : State) (k : t.TablesLaw) : (t.abortTest p).TablesLaw := .ite _ k k
  exact (aborted _ (down.cutOutputs p)).endTrainAt p

theorem State.TablesLaw.goDown (h : s.TablesLaw) (p : Port) (c : DownCause) : (s.goDown p c).TablesLaw := by
  unfold State.goDown
  split
  · exact h.leaveUp p c
  · exact h.modUnit p _
  · exact h

theorem State.TablesLaw.windowAdd (h : s.TablesLaw) (p : Port) (error : Bool) : (s.windowAdd p error).TablesLaw := by
  have added : (s.modUnit p fun u => { u with window := windowPush (s.unit p).window error }).TablesLaw := h.modUnit p _
  exact .ite _ (.ite _ (added.leaveUp p _) added) h

theorem State.TablesLaw.lockLost (h : s.TablesLaw) (p : Port) : (s.lockLost p).TablesLaw :=
  (((h.modUnit p _).endPartial p).goDown p .loss).of_mgmt (State.refit_mgmt _ p)

theorem State.TablesLaw.farEnd (h : s.TablesLaw) (p : Port) (sig : FarSignal) : (s.farEnd p sig).TablesLaw := by
  have seen : (s.modUnit p fun u => { u with farEnd := some sig }).TablesLaw := h.modUnit p _
  have judged := State.TablesLaw.ite (sig = .fault) (seen.goDown p .remote) (seen.of_mgmt (State.tryQualify_mgmt _ p))
  exact .ite _ (judged.of_mgmt (State.refit_mgmt _ p)) h

theorem State.TablesLaw.downHoldExpiry (h : s.TablesLaw) (p : Port) : (s.downHoldExpiry p).TablesLaw := by
  unfold State.downHoldExpiry
  split
  · exact h.of_mgmt (by simp)
  · exact h

theorem State.TablesLaw.qualificationComplete (h : s.TablesLaw) (p : Port) : (s.qualificationComplete p).TablesLaw := by
  unfold State.qualificationComplete
  split
  · exact h.of_mgmt (by simp)
  · exact h

/-! ### ECHO frames: a segment test is no part of the tables -/

theorem State.TablesLaw.echoStart (h : s.TablesLaw) (p : Port) : (s.echoStart p).TablesLaw := by
  have sending (t : SegTest) (f : PortUnit → PortUnit) : ((s.modUnit p f).setTest t).TablesLaw := h.modUnit p f
  unfold State.echoStart
  split
  · exact h.modUnit p _
  · exact .ite _ (sending _ _) h

theorem State.TablesLaw.echoSent (h : s.TablesLaw) (p : Port) (f : EchoFrame) : (s.echoSent p f).TablesLaw := by
  have emitted : (s.emit p (.whole (.echo f) (Frame.check (.echo f)))).TablesLaw := h
  exact (emitted.modUnit p _).flushElastic p

theorem State.TablesLaw.replySent (h : s.TablesLaw) (p : Port) : (s.replySent p).TablesLaw := by
  unfold State.replySent
  split
  · exact (h.echoSent p _).modUnit p _
  · exact h

theorem State.TablesLaw.requestSent (h : s.TablesLaw) (p : Port) : (s.requestSent p).TablesLaw := by
  unfold State.requestSent
  split
  · exact h.echoSent p _
  · exact h

theorem State.TablesLaw.echoWaitExpiry (h : s.TablesLaw) : s.echoWaitExpiry.TablesLaw := by
  unfold State.echoWaitExpiry
  dsimp only
  split
  · exact h
  · exact h

theorem State.TablesLaw.judgeReply (h : s.TablesLaw) (p : Port) (f : EchoFrame) (c : Check) : (s.judgeReply p f c).TablesLaw := by
  unfold State.judgeReply
  dsimp only
  split
  · exact .ite _ (.ite _ h (.ite _ (.ite _ h h) h)) h
  · exact h

theorem State.TablesLaw.receiveEcho (h : s.TablesLaw) (p : Port) (f : EchoFrame) (c : Check) : (s.receiveEcho p f c).TablesLaw :=
  .ite _ (.ite _ (.ite _ (h.modUnit p _) h) (.ite _ (h.judgeReply p f c) h)) h

/-! ### The tracker -/

theorem State.TablesLaw.badFrame (h : s.TablesLaw) : s.badFrame.TablesLaw := by
  have defect : s.orderDefect.TablesLaw := h.modTrk _
  unfold State.badFrame
  dsimp only
  split
  · exact defect.modTrk _
  · exact defect.modTrk _
  · exact defect.close _ _
  · exact defect
  · exact defect

theorem State.TablesLaw.gapTimerExpiry (h : s.TablesLaw) : s.gapTimerExpiry.TablesLaw := by
  unfold State.gapTimerExpiry
  split
  · dsimp only
    split
    · exact (h.reach _).close _ _
    · exact h
    · exact h
  · exact h

theorem State.TablesLaw.missedClose (h : s.TablesLaw) : s.missedClose.TablesLaw := by
  have counted := (h.close .missed none).modTrk fun t => { t with missed := satInc t.missed }
  unfold State.missedClose
  dsimp only
  split
  · exact ((counted.modTrk _).setSticky _).raise _
  · exact counted

theorem State.TablesLaw.trainTimerExpiry (h : s.TablesLaw) : s.trainTimerExpiry.TablesLaw := by
  unfold State.trainTimerExpiry
  split
  · have missed (t : Nat) := (h.reach t).missedClose
    dsimp only
    split
    · exact h
    · exact (missed _).modTrk _
    · exact (missed _).modTrk _
  · exact h

theorem State.TablesLaw.takeHeader (h : s.TablesLaw) (p : Port) (f : HeaderFrame) : (s.takeHeader p f).TablesLaw :=
  .ite _ (h.firstPass p f) ((h.modTrk _).armGap p)

theorem State.TablesLaw.trackHeader (h : s.TablesLaw) (p : Port) (f : HeaderFrame) (c : Check) : (s.trackHeader p f c).TablesLaw := by
  have closed := h.close .aborted none
  unfold State.trackHeader
  split
  · exact .ite _ (.ite _ (closed.takeHeader p f) (.ite _ (closed.firstPass p f) h)) (.ite _ (h.badFrame.armGap p) h)
  · exact .ite _ (h.takeHeader p f) h
  · exact .ite _ (h.takeHeader p f) (h.armGap p)

end

end Sys2Proof.Machine
end

section
/-! PROOFS. The law of the table sets (R105, R117): COMMIT makes a set wait where it is valid alone, and no other request does; so every
command keeps the law. -/

namespace Sys2Proof.Machine

section
variable {s : State}

/-! ### Requests: COMMIT makes a set wait, where its validation finds nothing -/

theorem State.TablesLaw.runOpenEdit (h : s.TablesLaw) (src : Station) (setId : Word) : (runOpenEdit src setId s).state.TablesLaw := by
  have opened : (s.openSession src setId).TablesLaw := h.openSession rfl
  unfold Machine.runOpenEdit
  split
  · exact h
  · split
    · exact opened
    · split
      · exact opened
      · exact h

theorem State.TablesLaw.runStageEntry (h : s.TablesLaw) (src : Station) (table index : Byte) (entry : Vector Byte 8) :
    (runStageEntry src table index entry s).state.TablesLaw := by
  unfold Machine.runStageEntry
  split
  · exact h
  · rename_i hown
    obtain ⟨-, -, hopened⟩ := State.openOwn_ok hown
    split
    · exact h
    · split
      · exact h
      · split
        · exact h
        · exact h.openSession hopened

theorem State.TablesLaw.runClearStaged (h : s.TablesLaw) (src : Station) (table : Byte) :
    (runClearStaged src table s).state.TablesLaw := by
  unfold Machine.runClearStaged
  split
  · exact h
  · rename_i hown
    obtain ⟨-, -, hopened⟩ := State.openOwn_ok hown
    split
    · exact h
    · exact h.openSession hopened

/-- A set that COMMIT makes wait passed its validation (R117, R118). -/
theorem State.TablesLaw.runCommit (h : s.TablesLaw) (src : Station) (mode epoch : Byte) :
    (runCommit src mode epoch s).state.TablesLaw := by
  unfold Machine.runCommit
  split
  · exact h
  · split
    · exact h
    · split
      · exact h
      · rename_i hvalid
        split
        · exact h
        · refine h.setSession ?_
          rintro _ ⟨⟩ -
          exact hvalid

theorem State.TablesLaw.runAbandonEdit (h : s.TablesLaw) (src : Station) : (runAbandonEdit src s).state.TablesLaw := by
  unfold Machine.runAbandonEdit
  split
  · split
    · exact h.endSession
    · exact h
  · exact h

/-! ### Requests that leave the tables -/

theorem State.TablesLaw.setCommandCause (h : s.TablesLaw) (x : Bool) : (s.setCommandCause x).TablesLaw := h

theorem State.TablesLaw.runClearCounters (h : s.TablesLaw) (g : Byte) : (runClearCounters g s).state.TablesLaw := by
  unfold Machine.runClearCounters
  split
  · rename_i x _
    cases x with
    | port p => exact h.modUnit p _
    | _ => exact h.count _
  · exact h

theorem State.TablesLaw.runHalt (h : s.TablesLaw) : (runHalt s).state.TablesLaw := by
  unfold Machine.runHalt
  split
  · exact (h.setCommandCause _).setTapState _
  · exact h.setCommandCause _
  all_goals exact h

theorem State.TablesLaw.runResume (h : s.TablesLaw) : (runResume s).state.TablesLaw := by
  unfold Machine.runResume
  split
  · exact h.setCommandCause _
  · split
    · exact h.setCommandCause _
    · exact (h.setCommandCause _).setTapState _
  all_goals exact h

theorem State.TablesLaw.runReturnWrap (h : s.TablesLaw) (port : Byte) : (runReturnWrap port s).state.TablesLaw := by
  unfold Machine.runReturnWrap
  split
  · exact h
  · split
    · exact h.modUnit _ _
    · exact h

theorem State.TablesLaw.runPulse (h : s.TablesLaw) (channel : Byte) : (runPulse channel s).state.TablesLaw := by
  have pulsed (c : Fin 12) : (s.pulse c).TablesLaw := by
    unfold State.pulse
    dsimp only
    split
    · exact h
    · exact h
  unfold Machine.runPulse
  split
  · exact h
  · split
    · exact pulsed _
    · exact h

/-- Of the requests, the five of an edit session alone move what the law reads. -/
theorem State.TablesLaw.runRequest (h : s.TablesLaw) (r : Request) (src : Station) : (runRequest r src s).state.TablesLaw := by
  cases r with
  | openEdit id => exact h.runOpenEdit src id
  | stageEntry table index entry => exact h.runStageEntry src table index entry
  | clearStaged table => exact h.runClearStaged src table
  | commit mode epoch => exact h.runCommit src mode epoch
  | abandonEdit => exact h.runAbandonEdit src
  | clearCounters g => exact h.runClearCounters g
  | halt => exact h.runHalt
  | resume => exact h.runResume
  | returnWrap port => exact h.runReturnWrap port
  | pulse channel => exact h.runPulse channel
  | _ =>
    simp only [Machine.runRequest, runIdentify, runReadStatus, runReadCounters, runReadCensus, runReadSubscriptionState,
      runReadEntry, runQueryEdit, runRestart, runSegmentTestStart, runSegmentTestResult]
    repeat' split
    all_goals exact h

/-! ### A request, from its delivery to its response -/

/-- The session whose idle timer restarts is OPEN before and after (R116). -/
theorem State.TablesLaw.touchSession (h : s.TablesLaw) (src : Station) : (s.touchSession src).TablesLaw := by
  unfold State.touchSession
  split
  · split
    · exact h.openSession rfl
    · exact h
  · exact h

theorem State.TablesLaw.respond (h : s.TablesLaw) (r : Response) : (s.respond r).TablesLaw := h

/-- The management unit, but for what the law reads. -/
theorem State.TablesLaw.withMgmt (h : s.TablesLaw) {x : Management} (ha : x.active = s.mgmt.active)
    (hs : x.session = s.mgmt.session) : ({ s with mgmt := x } : State).TablesLaw :=
  h.of_tables ha hs

theorem State.TablesLaw.remember (h : s.TablesLaw) (src : Station) (r : CachedResponse) : (s.remember src r).TablesLaw :=
  h.withMgmt rfl rfl

/-- A request taken keeps the law where the request does. -/
theorem State.TablesLaw.takeRequest (h : s.TablesLaw) (src : Station) (tag code : Byte) {run : State → Reply}
    (hr : ∀ t : State, t.TablesLaw → (run t).state.TablesLaw) :
    (s.takeRequest src tag code run).TablesLaw := by
  have touched := h.touchSession src
  have executed : ((s.touchSession src).executeRequest src tag code run).TablesLaw :=
    ((hr _ touched).respond _).remember src _
  unfold State.takeRequest
  dsimp only
  split
  · split
    · split
      · exact touched.respond _
      · exact executed
    · exact executed
  · exact touched.respond _

theorem State.TablesLaw.takePayload (h : s.TablesLaw) (src : Station) (tag : Byte) (payload : List Byte) :
    (s.takePayload src tag payload).TablesLaw := by
  unfold State.takePayload
  split
  · exact h.takeRequest src tag _ fun _ k => k.runRequest _ src
  · exact h.takeRequest src tag _ fun _ k => k

theorem State.TablesLaw.deliver (h : s.TablesLaw) (src : Station) (tag code : Byte) {run : State → Reply}
    (hr : ∀ t : State, t.TablesLaw → (run t).state.TablesLaw) : (s.deliver src tag code run).TablesLaw := by
  unfold State.deliver
  split
  · exact .ite _ (h.takeRequest src tag code hr) (h.count _)
  · exact h

/-! ### The container unit's steps (R84) -/

theorem State.TablesLaw.joinInbound (h : s.TablesLaw) (f : ContainerFrame) (broadcast : Bool) :
    (s.joinInbound f broadcast).TablesLaw :=
  h.of_mgmt (State.raise_mgmt _ .inboundArrival)

/-! ### The container unit's steps (R84) -/

theorem State.TablesLaw.withRx (h : s.TablesLaw) (v : Vector RxBank 8) : ({ s with rx := v } : State).TablesLaw := h

theorem State.TablesLaw.withSched (h : s.TablesLaw) (x : Scheduler) : ({ s with sched := x } : State).TablesLaw := h

theorem State.TablesLaw.settle (h : s.TablesLaw) (m : Fin 8) (o : MsgOutcome) : (s.settle m o).TablesLaw :=
  h.of_mgmt (s.settle_mgmt m o)

theorem State.TablesLaw.outcomeStep (h : s.TablesLaw) (i : Fin 8) (f : ContainerFrame) :
    (s.outcomeStep i f).state.TablesLaw := by
  unfold State.outcomeStep
  split
  · exact h
  · split
    · exact h
    · exact h.settle _ _

theorem State.TablesLaw.stripStep (h : s.TablesLaw) (f : ContainerFrame) : (s.stripStep f).state.TablesLaw := by
  unfold State.stripStep
  split
  · exact h.count _
  · exact h

theorem State.TablesLaw.deliveryStep (h : s.TablesLaw) (f : ContainerFrame) : (s.deliveryStep f).state.TablesLaw := by
  unfold State.deliveryStep
  split
  · split
    · split
      · exact h.takePayload _ _ _
      · exact h.count _
    · split
      · split
        · exact h.joinInbound f _
        · exact h.count _
      · exact h.count _
  · exact h

theorem State.TablesLaw.broadcastStep (h : s.TablesLaw) (f : ContainerFrame) : (s.broadcastStep f).TablesLaw :=
  .ite _ (.ite _ (.ite _ (h.joinInbound f _) (h.count _)) (h.count _)) h

/-- A fill takes a response or sends a message, and leaves the tables (R93). -/
theorem State.TablesLaw.fillStep (h : s.TablesLaw) (t : TapState) (took : Bool) (i : Fin 8) (f : ContainerFrame) :
    (s.fillStep t took i f).1.TablesLaw := by
  unfold State.fillStep
  split
  · exact h
  · split
    · split
      · exact h
      · exact h
    · exact h

theorem State.TablesLaw.containerSteps (h : s.TablesLaw) (t : TapState) (i : Fin 8) (f : ContainerFrame) :
    (s.containerSteps t i f).state.TablesLaw := by
  have stepped (f2 f3 f4 : ContainerFrame) :
      ((((s.outcomeStep i f).state.stripStep f2).state.deliveryStep f3).state.broadcastStep f4).TablesLaw :=
    (((h.outcomeStep i f).stripStep f2).deliveryStep f3).broadcastStep f4
  unfold State.containerSteps
  dsimp only
  split
  · exact stepped _ _ _
  · exact (stepped _ _ _).fillStep t _ i _

theorem State.TablesLaw.goodContainer (h : s.TablesLaw) (f : ContainerFrame) :
    (s.goodContainer f).state.TablesLaw := by
  have acted : (s.actOnContainer f).state.TablesLaw := by
    unfold State.actOnContainer
    split
    · exact h.count _
    · split
      · exact h.containerSteps _ _ f
      · exact h
  have defect : s.orderDefect.TablesLaw := h.modTrk _
  unfold State.goodContainer
  dsimp only
  split
  · exact h
  · exact h
  · split
    · exact acted.modTrk _
    · split
      · exact defect.modTrk _
      · exact defect

/-! ### A frame from its beginning to its end -/

theorem State.TablesLaw.beginArrival (h : s.TablesLaw) (p : Port) (lead : Lead) :
    (s.beginArrival p lead).TablesLaw := by
  have begun :
      (s.modUnit p fun u => { u with arriving := some (s.arrivalOf p lead), discard := s.discardAfter p lead }).TablesLaw :=
    h.modUnit p _
  exact .ite _ (.ite _ (begun.modTrk _) begun) begun

theorem State.TablesLaw.frameBegins (h : s.TablesLaw) (p : Port) (lead : Lead) : (s.frameBegins p lead).TablesLaw := by
  unfold State.frameBegins
  split
  · exact h
  · split
    · exact h.beginArrival p _
    · exact .ite _ (h.modUnit p _) h

theorem State.TablesLaw.arrived (h : s.TablesLaw) (p : Port) (lead : Lead) : (s.arrived p lead).1.TablesLaw := by
  unfold State.arrived
  split
  · split
    · exact h
    · exact h.beginArrival p lead
  · exact h.beginArrival p lead

theorem State.TablesLaw.countFrame (h : s.TablesLaw) (p : Port) (a : Arriving) (c : Check) :
    (s.countFrame p a c).TablesLaw := by
  have counted : (s.countPort p fun x => x.received c (decide (a.lead = .unknown))).TablesLaw := h.modUnit p _
  exact .ite _ (counted.count _) counted

theorem State.TablesLaw.countLost (h : s.TablesLaw) (a : Arriving) (c : Check) : (s.countLost a c).TablesLaw :=
  .ite _ (h.count _) h

theorem State.TablesLaw.forward (h : s.TablesLaw) (a : Arriving) (x : SentContent) (w r : Bool) :
    (s.forward a x w r).TablesLaw := by
  unfold State.forward
  split
  · exact h.sendOut _ _
  · exact h

/-- The end of a frame keeps the law where the frame's own effect does. -/
theorem State.TablesLaw.receive (h : s.TablesLaw) (p : Port) (f : Frame) (fcs : Option Fcs)
    {act : Arriving → Check → State → Passed} (ha : ∀ a c (t : State), t.TablesLaw → (act a c t).state.TablesLaw) :
    (s.receive p f fcs act).TablesLaw := by
  unfold State.receive
  split
  · exact h.emit _ _
  · exact (((ha _ _ _ (((h.arrived p f.lead).modUnit p _).countFrame p _ _)).countLost _ _).forward _ _ _ _).windowAdd p _

theorem State.TablesLaw.passHeader (h : s.TablesLaw) (p : Port) (f : HeaderFrame) (a : Arriving) (c : Check) :
    (passHeader p f a c s).state.TablesLaw :=
  .ite _ (h.trackHeader p f c) h

theorem State.TablesLaw.captureBlock (h : s.TablesLaw) (f : BlockFrame) : (s.captureBlock f).TablesLaw :=
  h.of_mgmt (s.captureBlock_mgmt f)

theorem State.TablesLaw.goodBlock (h : s.TablesLaw) (f : BlockFrame) (capture : Bool) :
    (s.goodBlock f capture).TablesLaw := by
  have captured : (if capture then s.captureBlock f else s).TablesLaw := .ite _ (h.captureBlock f) h
  have defect : s.orderDefect.TablesLaw := h.modTrk _
  unfold State.goodBlock
  dsimp only
  split
  · split
    · exact captured.modTrk _
    · exact .ite _ (defect.modTrk _) defect
  · exact defect
  · exact defect
  · exact h
  · exact h

theorem State.TablesLaw.passBlock (h : s.TablesLaw) (p : Port) (f : BlockFrame) (a : Arriving) (c : Check) :
    (passBlock p f a c s).state.TablesLaw :=
  .ite _ (.ite _ (.armGap (.ite _ (h.goodBlock _ _) h.badFrame) p) (h.armGap p)) h

theorem State.TablesLaw.passContainer (h : s.TablesLaw) (p : Port) (f : ContainerFrame) (a : Arriving) (c : Check) :
    (passContainer p f a c s).state.TablesLaw := by
  unfold Machine.passContainer State.trackContainer
  dsimp only
  split
  · split
    · split
      · exact (h.goodContainer f).armGap p
      · exact h.badFrame.armGap p
    · exact h.armGap p
  · exact h

theorem State.TablesLaw.rollEffect (h : s.TablesLaw) (d : RollDecision) (f : RollFrame) : (s.rollEffect d f).TablesLaw :=
  h.of_mgmt (s.rollEffect_mgmt d f)

theorem State.TablesLaw.takeRoll (h : s.TablesLaw) (x : Option RollSample) (f : RollFrame) (c : Check) :
    (s.takeRoll x f c).1.TablesLaw := by
  unfold State.takeRoll
  split
  · exact h
  · split
    · exact h
    · exact .ite _ (h.rollEffect _ f) h

theorem State.TablesLaw.endAtRoll (h : s.TablesLaw) (p : Port) (f : RollFrame) (c : Check) :
    (s.endAtRoll p f c).TablesLaw := by
  unfold State.endAtRoll
  split
  · exact .ite _ (.ite _ (h.close _ _) (h.close _ _)) h
  · exact .ite _ h h
  · exact h

theorem State.TablesLaw.passRoll (h : s.TablesLaw) (p : Port) (f : RollFrame) (a : Arriving) (c : Check) :
    (passRoll p f a c s).state.TablesLaw := by
  unfold Machine.passRoll
  split
  · exact (h.takeRoll a.roll f c).endAtRoll p f c
  · exact h

theorem State.TablesLaw.passUnknown (h : s.TablesLaw) (p : Port) (f : UnknownFrame) (a : Arriving) (c : Check) :
    (passUnknown p f a c s).state.TablesLaw :=
  .ite _ (.ite _ ((h.modTrk _).armGap p) (h.armGap p)) h

/-! ### Pins, restarts and the bypass hold -/

theorem State.TablesLaw.setPinCause (h : s.TablesLaw) (x : Bool) : (s.setPinCause x).TablesLaw := h

theorem State.TablesLaw.stopRise (h : s.TablesLaw) : s.stopRise.TablesLaw :=
  .ite _ ((h.setPinCause true).setTapState _) (h.setPinCause true)

theorem State.TablesLaw.stopFall (h : s.TablesLaw) : s.stopFall.TablesLaw :=
  .ite _ ((h.setPinCause false).setTapState _) (h.setPinCause false)

theorem State.TablesLaw.pinChange (h : s.TablesLaw) (k : Fin 8) (level : Bool) : (s.pinChange k level).TablesLaw := by
  have sampled (v : Vector Bool 8) : ({ s with sig := { s.sig with trigIn := v } } : State).TablesLaw := h
  exact .ite _ (.ite _ ((sampled _).raise _) (sampled _)) h

theorem State.TablesLaw.trigOutFall (h : s.TablesLaw) (k : Fin 8) : (s.trigOutFall k).TablesLaw := by
  unfold State.trigOutFall
  split
  · exact h
  · exact .ite _ h h

theorem State.TablesLaw.pulseEnd (h : s.TablesLaw) (c : Fin 12) : (s.pulseEnd c).TablesLaw := by
  unfold State.pulseEnd
  split
  · exact h
  · exact h

theorem State.TablesLaw.sessionIdleExpiry (h : s.TablesLaw) : s.sessionIdleExpiry.TablesLaw := by
  unfold State.sessionIdleExpiry
  split
  · split
    · exact (h.reach _).endSession
    · exact h
  · exact h

theorem State.TablesLaw.withRst (h : s.TablesLaw) (x : RestartCtl) : ({ s with rst := x } : State).TablesLaw := h

theorem State.TablesLaw.startHold (h : s.TablesLaw) (kind : RestartKind) : (s.startHold kind).TablesLaw :=
  .ite _ (h.withRst _) h

theorem State.TablesLaw.powerSettled (h : s.TablesLaw) :
    s.powerSettled.TablesLaw := .ite _ ((h.withRst _).startHold _) h

theorem State.TablesLaw.rstNHigh (h : s.TablesLaw) : s.rstNHigh.TablesLaw := .ite _ ((h.withRst _).startHold _) h

theorem State.TablesLaw.leaveBypass (h : s.TablesLaw) : s.leaveBypass.TablesLaw :=
  ((h.modUnit .w _).modUnit .e _).setTapState _

theorem State.TablesLaw.bypassHoldExpiry (h : s.TablesLaw) (straps : Station) :
    (s.bypassHoldExpiry straps).TablesLaw := by
  unfold State.bypassHoldExpiry
  split
  · have sampled (t : Nat) (x : RestartCtl) := (h.reach t).withRst x
    dsimp only
    split
    · exact (sampled _ _).leaveBypass
    · exact sampled _ _
  · exact h
  · exact h

/-! ### The local port -/

theorem State.TablesLaw.withLsp (h : s.TablesLaw) (x : LocalPort) : ({ s with lsp := x } : State).TablesLaw := h

theorem State.TablesLaw.localError (h : s.TablesLaw) : s.localError.TablesLaw := h

theorem State.TablesLaw.endTransaction (h : s.TablesLaw) : s.endTransaction.TablesLaw := by
  unfold State.endTransaction
  split
  · exact h
  · have closed := h.withLsp { s.lsp with txn := none }
    dsimp only
    split
    · exact closed.withRx _
    · exact closed
    · exact closed

theorem State.TablesLaw.transactionStart (h : s.TablesLaw) (command : Byte) (a : Word) (words : Nat) :
    (s.transactionStart command a words).TablesLaw := by
  have ended := h.endTransaction
  exact .ite _ (ended.withLsp _) (.ite _ (ended.withLsp _) (.ite _ (ended.withLsp _) (ended.localError.withLsp _)))

/-- A written word keeps the law where its act does. -/
theorem State.TablesLaw.lspWrite (h : s.TablesLaw) (a : Word) {act : State → State} (ha : (act s).TablesLaw) :
    (s.lspWrite a act).TablesLaw :=
  .ite _ (ha.withLsp _) h

theorem State.TablesLaw.withPub (h : s.TablesLaw) (v : Vector PubBank 4) : ({ s with pub := v } : State).TablesLaw := h

/-- A local action keeps the law where its act does. -/
theorem State.TablesLaw.localAction (h : s.TablesLaw) {act : State → State}
    (ha : ∀ t : State, t.TablesLaw → (act t).TablesLaw) : (s.localAction act).TablesLaw :=
  .ite _ (.ite _ h.localError (ha _ (h.withLsp _))) h

theorem State.TablesLaw.finish {x : Acted} (h : x.state.TablesLaw) : x.finish.TablesLaw :=
  .ite _ (h.withLsp _).localError (h.withLsp _)

theorem State.TablesLaw.takeAction (h : s.TablesLaw) (o : BitVec 12) : (s.takeAction o).state.TablesLaw := by
  unfold State.takeAction
  split
  · exact h
  · split
    · exact h.withRx _
    · exact h

theorem State.TablesLaw.postAction (h : s.TablesLaw) (o : BitVec 12) : (s.postAction o).state.TablesLaw := by
  unfold State.postAction
  split
  · exact h
  · exact h.withPub _

theorem State.TablesLaw.sendAction (h : s.TablesLaw) (o : BitVec 12) : (s.sendAction o).state.TablesLaw := by
  unfold State.sendAction
  split
  · exact h
  · split
    · exact h.withSched _
    · exact h

theorem State.TablesLaw.cancelAction (h : s.TablesLaw) (o : BitVec 12) : (s.cancelAction o).state.TablesLaw := by
  unfold State.cancelAction
  split
  · exact h
  · split
    · exact h.withSched _
    · exact h

theorem State.TablesLaw.clearAction (h : s.TablesLaw) (o : BitVec 12) : (s.clearAction o).state.TablesLaw := by
  unfold State.clearAction
  split
  · exact h
  · split
    · exact h.withSched _
    · exact h

theorem State.TablesLaw.releaseAction (h : s.TablesLaw) : s.releaseAction.state.TablesLaw := by
  unfold State.releaseAction
  split
  · exact h
  · exact h

theorem State.TablesLaw.popAction (h : s.TablesLaw) : s.popAction.state.TablesLaw := by
  unfold State.popAction
  split
  · exact h
  · exact h

end

/-! ### Every command -/

theorem State.TablesLaw.of_next {u t : State} (e : (.next u : Result) = .next t) (h : u.TablesLaw) : t.TablesLaw := by
  cases e
  exact h

theorem exec_requestRow_keepsTables (r : Request) (dt : Nat) (src : Station) (tag : Byte) {s t : State} (h : s.TablesLaw)
    (e : exec (requestRow r dt src tag) s = .next t) : t.TablesLaw := by
  rw [exec_requestRow_eq] at e
  exact .of_next e ((h.elapse dt).deliver src tag r.code fun _ k => k.runRequest r src)

theorem exec_keepsTables (c : Instr) {s t : State} (h : s.TablesLaw) (e : exec c s = .next t) : t.TablesLaw := by
  have he (dt : Nat) := h.elapse dt
  cases c with
  | header dt p f fcs => exact .of_next e ((he dt).receive p _ fcs fun a c _ k => k.passHeader p f a c)
  | block dt p f fcs => exact .of_next e ((he dt).receive p _ fcs fun a c _ k => k.passBlock p f a c)
  | container dt p f fcs => exact .of_next e ((he dt).receive p _ fcs fun a c _ k => k.passContainer p f a c)
  | roll dt p f fcs => exact .of_next e ((he dt).receive p _ fcs fun a c _ k => k.passRoll p f a c)
  | echo dt p f fcs => exact .of_next e ((he dt).receive p _ fcs fun _ c _ k => k.receiveEcho p f c)
  | unknownKind dt p f fcs => exact .of_next e ((he dt).receive p _ fcs fun a c _ k => k.passUnknown p f a c)
  | gapTimerExpiry dt => exact .of_next e (he dt).gapTimerExpiry
  | trainTimerExpiry dt => exact .of_next e (he dt).trainTimerExpiry
  | lockLost dt p => exact .of_next e (.ite _ (he dt) ((he dt).lockLost p))
  | lockGained dt p => exact .of_next e (.ite _ (he dt) (((he dt).modUnit p _).of_mgmt (State.tryQualify_mgmt _ p)))
  | farEndRecognised dt p sig => exact .of_next e (.ite _ (he dt) ((he dt).farEnd p sig))
  | downHoldExpiry dt p => exact .of_next e (.ite _ (he dt) ((he dt).downHoldExpiry p))
  | qualificationComplete dt p => exact .of_next e (.ite _ (he dt) ((he dt).qualificationComplete p))
  | returnToService dt p => exact .of_next e (.ite _ (((he dt).modUnit p _).of_mgmt (State.ringChange_mgmt _)) (he dt))
  | echoTransmitStart dt p => exact .of_next e (.ite _ ((he dt).echoStart p) (he dt))
  | echoReplySent dt p => exact .of_next e ((he dt).replySent p)
  | echoRequestSent dt p => exact .of_next e ((he dt).requestSent p)
  | echoWaitExpiry dt => exact .of_next e (he dt).echoWaitExpiry
  | sessionIdleExpiry dt => exact .of_next e (he dt).sessionIdleExpiry
  | stopRise dt => exact .of_next e (he dt).stopRise
  | stopFall dt => exact .of_next e (he dt).stopFall
  | triggerPinChange dt k level => exact .of_next e ((he dt).pinChange k level)
  | trigOutFall dt k => exact .of_next e ((he dt).trigOutFall k)
  | pulseEnd dt c => exact .of_next e ((he dt).pulseEnd c)
  | powerOn dt => exact .of_next e (State.tablesLaw_beginRestart _ _)
  | powerSettled dt => exact .of_next e (he dt).powerSettled
  | rstNLow dt => exact .of_next e (.ite _ (he dt) (State.tablesLaw_beginRestart _ _))
  | rstNHigh dt => exact .of_next e (he dt).rstNHigh
  | remoteRestartBegin dt => exact .of_next e (.ite _ (State.tablesLaw_beginRestart _ _) (he dt))
  | bypassHoldExpiry dt straps => exact .of_next e ((he dt).bypassHoldExpiry straps)
  | lspTransactionStart dt command address words =>
    cases command with
    | none => exact .of_next e ((he dt).withLsp _)
    | some x => exact .of_next e ((he dt).transactionStart x address words)
  | lspSelectRelease dt words => exact .of_next e ((he dt).withLsp _).endTransaction
  | publishWindowWrite dt p w value => exact .of_next e ((he dt).lspWrite _ ((he dt).withPub _))
  | bankControlWrite dt b value => exact .of_next e ((he dt).lspWrite _ ((he dt).withRx _))
  | mailboxWrite dt m w value => exact .of_next e ((he dt).lspWrite _ (.ite _ ((he dt).withSched _) (he dt).localError))
  | attentionMaskWrite dt value => exact .of_next e ((he dt).lspWrite _ (he dt))
  | lspIgnoredWrite dt address => exact .of_next e ((he dt).lspWrite _ (he dt).localError)
  | take dt o => exact .of_next e ((he dt).localAction fun _ k => (k.takeAction o).finish)
  | post dt o => exact .of_next e ((he dt).localAction fun _ k => (k.postAction o).finish)
  | send dt o => exact .of_next e ((he dt).localAction fun _ k => (k.sendAction o).finish)
  | cancel dt o => exact .of_next e ((he dt).localAction fun _ k => (k.cancelAction o).finish)
  | clear dt o => exact .of_next e ((he dt).localAction fun _ k => (k.clearAction o).finish)
  | release dt => exact .of_next e ((he dt).localAction fun _ k => k.releaseAction.finish)
  | popStamp dt => exact .of_next e ((he dt).localAction fun _ k => k.popAction.finish)
  | clearCauses dt o => exact .of_next e ((he dt).localAction fun t k => State.TablesLaw.finish (x := t.clearCausesAction o) k)
  | localRestart dt => exact .of_next e ((he dt).localAction fun _ _ => State.tablesLaw_beginRestart _ _)
  | badAction dt code => exact .of_next e ((he dt).localAction fun t k => State.TablesLaw.finish (x := t.reported .badAction) k)
  | identify dt src tag => exact exec_requestRow_keepsTables .identify dt src tag h e
  | readStatus dt src tag => exact exec_requestRow_keepsTables .readStatus dt src tag h e
  | readCounters dt src tag g => exact exec_requestRow_keepsTables (.readCounters g) dt src tag h e
  | clearCounters dt src tag g => exact exec_requestRow_keepsTables (.clearCounters g) dt src tag h e
  | readCensus dt src tag x n => exact exec_requestRow_keepsTables (.readCensus x n) dt src tag h e
  | readSubscriptionState dt src tag x n => exact exec_requestRow_keepsTables (.readSubscriptionState x n) dt src tag h e
  | readEntry dt src tag x y i => exact exec_requestRow_keepsTables (.readEntry x y i) dt src tag h e
  | openEdit dt src tag id => exact exec_requestRow_keepsTables (.openEdit id) dt src tag h e
  | stageEntry dt src tag x i y => exact exec_requestRow_keepsTables (.stageEntry x i y) dt src tag h e
  | clearStaged dt src tag x => exact exec_requestRow_keepsTables (.clearStaged x) dt src tag h e
  | commit dt src tag m x => exact exec_requestRow_keepsTables (.commit m x) dt src tag h e
  | abandonEdit dt src tag => exact exec_requestRow_keepsTables .abandonEdit dt src tag h e
  | queryEdit dt src tag => exact exec_requestRow_keepsTables .queryEdit dt src tag h e
  | halt dt src tag => exact exec_requestRow_keepsTables .halt dt src tag h e
  | resume dt src tag => exact exec_requestRow_keepsTables .resume dt src tag h e
  | returnWrap dt src tag p => exact exec_requestRow_keepsTables (.returnWrap p) dt src tag h e
  | pulse dt src tag c => exact exec_requestRow_keepsTables (.pulse c) dt src tag h e
  | restart dt src tag => exact exec_requestRow_keepsTables .restart dt src tag h e
  | segmentTestStart dt src tag p n => exact exec_requestRow_keepsTables (.segmentTestStart p n) dt src tag h e
  | segmentTestResult dt src tag => exact exec_requestRow_keepsTables .segmentTestResult dt src tag h e
  | badCommand dt src tag payload => exact .of_next e ((he dt).deliver src tag _ fun _ k => k)
  | frameBeginsToArrive dt p lead => exact .of_next e ((he dt).frameBegins p lead)

/-- Settles O10: the invariant goes through every command, of which COMMIT alone adds a set that waits, and a first-pass header alone
makes one active. -/
theorem stepKeepsTablesLaw : Obligations.StepKeepsTablesLaw := by
  intro s t h e
  unfold step at e
  split at e
  · exact .of_next e h
  · rename_i rest _
    exact exec_keepsTables _ (s := { s with pending := rest }) h e

end Sys2Proof.Machine
end

section
/-! PROOFS. The eight bytes of an entry spell it again (12.2), and a payload its request (R106). -/

namespace Sys2Proof.Machine

/-! ### One field -/

theorem natByte_toNat {x : Nat} (h : x < 256) : (natByte x).toNat = x := Nat.mod_eq_of_lt h

theorem natByte_fin {n : Nat} (hn : n ≤ 256) (i : Fin n) : (natByte i.val).toNat = i.val := natByte_toNat (i.isLt.trans_le hn)

theorem natByte_bit (b : Bool) : (natByte b.toNat).getLsbD 0 = b := by
  cases b <;> rfl

theorem below_natByte {n : Nat} [NeZero n] (hn : n ≤ 256) (i : Fin n) : below n (natByte i.val) = some i :=
  below_eq_some_iff.mpr (natByte_fin hn i).symm

theorem optionOf_optionByte {n : Nat} [NeZero n] (hn : n ≤ 255) (x : Option (Fin n)) : optionOf n (optionByte x) = some x := by
  cases x with
  | none => rfl
  | some i =>
    have hval := natByte_fin (hn.trans (Nat.le_succ _)) i
    have hne : (natByte i.val).toNat ≠ 255 := by omega
    rw [optionOf_eq, optionByte, if_pos (.inl (hval.trans_lt i.isLt)), if_neg hne, hval, Fin.ofNat_val_eq_self]

/-! ### An entry of each table -/

theorem SubEntry.heldIn_encode (x : SubEntry) : x.heldIn (encodeSub x) := by
  refine ⟨(natByte_bit _).symm, (natByte_fin (by decide) _).symm, (natByte_fin (by decide) _).symm, (natByte_fin (by decide) _).symm,
    (stationByte_toNat _).symm, (natByte_fin (by decide) _).symm, (natByte_toNat ?_).symm, rfl⟩
  omega

theorem PubEntry.heldIn_encode (x : PubEntry) : x.heldIn (encodePub x) := by
  refine ⟨(natByte_bit _).symm, (natByte_fin (by decide) _).symm, (natByte_fin (by decide) _).symm, (natByte_fin (by decide) _).symm,
    (natByte_fin (by decide) _).symm, (natByte_toNat ?_).symm, ?_⟩
  · omega
  · show (natByte x.mode.code).toNat ≤ 1 ∧ x.mode = if (natByte x.mode.code).toNat = 0 then .continuous else .onPost
    cases x.mode with
    | continuous => decide
    | onPost => decide

/-- A source's kind byte gives its kind, and its operand byte the operand where the kind has one. -/
theorem decodeSource_encodeSource (x : Source) : decodeSource (encodeSource x) = some x := by
  cases x with
  | bankReady b => exact congrArg (Option.map Source.bankReady) (below_natByte (by decide) b)
  | postTaken p => exact congrArg (Option.map Source.postTaken) (below_natByte (by decide) p)
  | outcome m => exact congrArg (Option.map Source.outcome) (below_natByte (by decide) m)
  | subStale e => exact congrArg (Option.map Source.subStale) (below_natByte (by decide) e)
  | subFresh e => exact congrArg (Option.map Source.subFresh) (below_natByte (by decide) e)
  | triggerIn k => exact congrArg (Option.map Source.triggerIn) (below_natByte (by decide) k)
  | _ => rfl

theorem policyOf_code (x : ReturnPolicy) : policyOf (natByte x.code) = some x := by
  cases x <;> rfl

theorem orderOf_code (x : OutboundOrder) : orderOf (natByte x.code) = some x := by
  cases x <;> rfl

theorem decodeParams_encodeParams {x : Params} (h : x.inRange) : decodeParams (encodeParams x) = some x := by
  have hpolicy : policyOf (encodeParams x)[0] = some x.returnPolicy := policyOf_code _
  have horder : orderOf (encodeParams x)[4] = some x.order := orderOf_code _
  have hurgent : optionOf 8 (encodeParams x)[5] = some x.urgent := optionOf_optionByte (by decide) _
  unfold decodeParams
  rw [hpolicy, horder, hurgent]
  exact if_pos h

/-- Each entry's eight bytes spell that entry, where its ranges hold (12.2). -/
theorem decodeEntry_encode {x : Entry} (h : x.inRange) : decodeEntry x.table x.encode = some x := by
  cases x with
  | sub e => exact congrArg (Option.map Entry.sub) (decodeSub_eq_some_iff.mpr ⟨e.heldIn_encode, h⟩)
  | pub e => exact congrArg (Option.map Entry.pub) (decodePub_eq_some_iff.mpr ⟨e.heldIn_encode, h⟩)
  | channel e => exact congrArg (Option.map Entry.channel) (decodeSource_encodeSource e)
  | user e => exact congrArg (Option.map Entry.user) (optionOf_optionByte (by decide) e)
  | manager e => exact congrArg (Option.map Entry.manager) (optionOf_optionByte (by decide) e)
  | params e => exact congrArg (Option.map Entry.params) (decodeParams_encodeParams h)

/-- Settles O4: a request is what its code byte and operands decode to, and each field of an entry what its byte decodes to. -/
theorem requestPayloadSpellsTheRequest : Obligations.RequestPayloadSpellsTheRequest := by
  refine ⟨fun l r => ⟨Request.payload_of_decode, ?_⟩, fun _ => decodeEntry_encode⟩
  rintro ⟨extra, rfl⟩
  exact r.decode_payload extra

end Sys2Proof.Machine
end

section
/-! PROOFS. IDENTIFY, READ STATUS, SEGMENT TEST RESULT, the counters, and a payload that is no request (R106, R110, R111, R123): what
each reads of the tap asked is as the tap held it, though the asking restarts an idle timer (R116). -/

namespace Sys2Proof.Machine

/-! ### What a request reads, the asking leaves -/

/-- The status block names neither the time nor the edit session (R163). -/
theorem State.statusWord_session (s : State) (now : Nat) (x : Option Session) (i : Nat) :
    State.statusWord { s with now := now, mgmt := { s.mgmt with session := x } } i = s.statusWord i := rfl

theorem State.asked_statusWord (s : State) (dt : Nat) (src : Station) (i : Nat) :
    (s.asked dt src).statusWord i = s.statusWord i := by
  rw [State.asked, State.touchSession_eq]
  exact s.statusWord_session _ _ i

/-- A session whose idle timer restarts was OPEN and is. -/
theorem State.asked_sessionCode (s : State) (dt : Nat) (src : Station) : (s.asked dt src).sessionCode = s.sessionCode := by
  cases hx : s.mgmt.session with
  | none => rw [State.asked_noSession s dt src hx]; rfl
  | some x =>
    by_cases ho : x.owner = src
    · cases hs : x.state with
      | opened d =>
        rw [State.asked_owner s dt src x d hx ho hs]
        simp [State.sessionCode, hx, hs, SessionState.isOpened]
      | commitPending e => rw [State.asked_committing s dt src x e hx hs]; rfl
    · rw [State.asked_other s dt src x hx ho]; rfl

/-- The first sixteen words that READ STATUS gives are those the local port reads (R110, R163). -/
theorem State.statusWords_eq (s : State) :
    (List.range 16).map s.statusWord = (List.range 16).map fun i => s.lspRead (BitVec.ofNat 16 i) :=
  List.map_congr_left fun i hi => (s.lspRead_status i ((List.mem_range.mp hi).trans (by decide))).symm

theorem runReadStatus_asked (s : State) (dt : Nat) (src : Station) :
    runReadStatus (s.asked dt src) =
      (s.asked dt src).answer
        (((List.range 16).map fun i => s.lspRead (BitVec.ofNat 16 i)).flatMap be16 ++ be16 s.epochWord ++
          [natByte s.sessionCode, natByte s.mgmt.responses.length, s.pendingByte, natByte s.mgmt.segTest.state.code]) := by
  have hwords : (s.asked dt src).statusWord = s.statusWord := funext (s.asked_statusWord dt src)
  have hepoch : (s.asked dt src).epochWord = s.epochWord := by simp [State.epochWord]
  have hpending : (s.asked dt src).pendingByte = s.pendingByte := by simp [State.pendingByte]
  rw [runReadStatus, hwords, s.statusWords_eq, hepoch, s.asked_sessionCode, s.asked_responses, hpending, s.asked_segTest]

/-! ### The counter groups (R111) -/

theorem groupOf_none {b : Byte} (h : 6 ≤ b.toNat) : groupOf b = none := by
  have hne (c : Byte) (hc : c.toNat < 6) : b ≠ c := by
    rintro rfl
    omega
  rw [groupOf, if_neg (hne 0 (by decide)), if_neg (hne 1 (by decide)), if_neg (hne 2 (by decide)), if_neg (hne 3 (by decide)),
    if_neg (hne 4 (by decide)), if_neg (hne 5 (by decide))]

theorem runReadCounters_group {b : Byte} {g : Group} (h : groupOf b = some g) (s : State) :
    runReadCounters b s = s.answer ((s.counters g).flatMap be16) := by
  rw [runReadCounters, h]

theorem runClearCounters_group {b : Byte} {g : Group} (h : groupOf b = some g) (s : State) :
    runClearCounters b s = (s.clearGroup g).answer [] := by
  rw [runClearCounters, h]

theorem State.asked_counters (s : State) (dt : Nat) (src : Station) (g : Group) : (s.asked dt src).counters g = s.counters g := by
  cases g <;> simp [State.counters]

section
variable {src : Station} {tag : Byte} {s : State} (h : s.executes src tag) (dt : Nat) {b : Byte}

include h

theorem exec_readCounters_group {g : Group} (hg : groupOf b = some g) :
    exec (.readCounters dt src tag b) s =
      .next ((s.asked dt src).replied src tag ([0x03#8, 0x00#8] ++ (s.counters g).flatMap be16) false) := by
  rw [← s.asked_counters dt src]
  exact exec_request_answers h dt (.readCounters b) (runReadCounters_group hg _)

theorem exec_clearCounters_group {g : Group} (hg : groupOf b = some g) :
    exec (.clearCounters dt src tag b) s = .next (((s.asked dt src).clearGroup g).replied src tag [0x04#8, 0x00#8] false) :=
  exec_request_answers h dt (.clearCounters b) (runClearCounters_group hg _)

theorem exec_counters_badField (hb : 6 ≤ b.toNat) :
    exec (.readCounters dt src tag b) s = .next ((s.asked dt src).replied src tag [0x03#8, 0x06#8] false) ∧
      exec (.clearCounters dt src tag b) s = .next ((s.asked dt src).replied src tag [0x04#8, 0x06#8] false) := by
  have hread : runReadCounters b (s.asked dt src) = (s.asked dt src).refuse .badField := by rw [runReadCounters, groupOf_none hb]
  have hclear : runClearCounters b (s.asked dt src) = (s.asked dt src).refuse .badField := by rw [runClearCounters, groupOf_none hb]
  exact ⟨exec_request_answers h dt (.readCounters b) hread, exec_request_answers h dt (.clearCounters b) hclear⟩

end

/-- Settles O52: each request is executed on the tap asked, which holds what the tap held. -/
theorem readingAndCounterRequests : Obligations.ReadingAndCounterRequests := by
  refine ⟨fun dt src tag s h => ⟨?_, ?_, ?_, fun payload => ?_⟩, fun dt src tag s h => ?_⟩
  · rw [← s.asked_rst dt src, ← s.asked_ctl dt src, ← s.asked_active dt src]
    exact exec_request_answers h dt .identify rfl
  · have hanswer := exec_request_answers h dt .readStatus (runReadStatus_asked s dt src)
    simp only [List.append_assoc] at hanswer ⊢
    exact hanswer
  · rw [← s.asked_segTest dt src]
    exact exec_request_answers h dt .segmentTestResult rfl
  · exact congrArg Host.Outcome.next (State.deliver_executes h dt _ _)
  · intro counts clears port
    refine ⟨exec_readCounters_group h dt (g := .port .w) rfl, exec_readCounters_group h dt (g := .port .e) rfl,
      exec_readCounters_group h dt (g := .train) rfl, exec_readCounters_group h dt (g := .ring) rfl,
      exec_readCounters_group h dt (g := .image) rfl, exec_readCounters_group h dt (g := .message) rfl, ?_, ?_, ?_, ?_, ?_, ?_,
      fun g => exec_counters_badField h dt⟩
    · rw [← s.asked_portW dt src]
      exact exec_clearCounters_group h dt (g := .port .w) rfl
    · rw [← s.asked_portE dt src]
      exact exec_clearCounters_group h dt (g := .port .e) rfl
    · rw [← s.asked_ctr dt src]
      exact exec_clearCounters_group h dt (g := .train) rfl
    · rw [← s.asked_ctr dt src]
      exact exec_clearCounters_group h dt (g := .ring) rfl
    · rw [← s.asked_ctr dt src]
      exact exec_clearCounters_group h dt (g := .image) rfl
    · rw [← s.asked_ctr dt src]
      exact exec_clearCounters_group h dt (g := .message) rfl

end Sys2Proof.Machine
end

section
/-! PROOFS. The edit session of the requester (R114 to R120): what OPEN EDIT, STAGE ENTRY, CLEAR STAGED, COMMIT, ABANDON EDIT and QUERY
EDIT find on the tap asked, and what each answers. -/

namespace Sys2Proof.Machine

/-! ### The session on the tap asked (R116) -/

section
variable {s : State} {src : Station} {x : Session} (dt : Nat)

/-- The asking moves nothing that a new session does not replace. -/
theorem State.asked_setSession (s : State) (dt : Nat) (src : Station) (y : Option Session) :
    (s.asked dt src).setSession y = { s.asked dt src with mgmt := { s.mgmt with session := y } } := by
  rw [State.asked, State.touchSession_eq]
  rfl

theorem State.asked_session_owner {d : Nat} (h : s.mgmt.session = some x) (ho : x.owner = src) (hx : x.state = .opened d) :
    (s.asked dt src).mgmt.session = some { x with state := .opened (s.now + dt + 2000000) } := by
  rw [s.asked_owner dt src x d h ho hx]

theorem State.asked_session_other (h : s.mgmt.session = some x) (ho : x.owner ≠ src) : (s.asked dt src).mgmt.session = some x := by
  rw [s.asked_other dt src x h ho]
  exact h

theorem State.asked_session_committing {m : Option Byte} (h : s.mgmt.session = some x) (hx : x.state = .commitPending m) :
    (s.asked dt src).mgmt.session = some x := by
  rw [s.asked_committing dt src x m h hx]
  exact h

theorem State.asked_session_none (h : s.mgmt.session = none) : (s.asked dt src).mgmt.session = none := by
  rw [s.asked_noSession dt src h]
  exact h

/-! ### The first two checks of R115 and R117 -/

theorem State.openOwn_asked_opened {d : Nat} (h : s.mgmt.session = some x) (ho : x.owner = src) (hx : x.state = .opened d) :
    (s.asked dt src).openOwn src = .ok { x with state := .opened (s.now + dt + 2000000) } :=
  State.openOwn_opened (State.asked_session_owner dt h ho hx) ho rfl

theorem State.openOwn_asked_noSession (h : s.mgmt.session = none ∨ ∃ x, s.mgmt.session = some x ∧ x.owner ≠ src) :
    (s.asked dt src).openOwn src = .error .noSession := by
  obtain h | ⟨x, h, ho⟩ := h
  · exact State.openOwn_noSession (State.asked_session_none dt h)
  · exact State.openOwn_other (State.asked_session_other dt h ho) ho

theorem State.openOwn_asked_busy (h : ∃ x m, s.mgmt.session = some x ∧ x.owner = src ∧ x.state = .commitPending m) :
    (s.asked dt src).openOwn src = .error .busy := by
  obtain ⟨x, m, h, ho, hx⟩ := h
  exact State.openOwn_committing (State.asked_session_committing dt h hx) ho hx

end

/-! ### COMMIT (R117, R118) -/

theorem commitMode_none {mode : Byte} (h : 2 ≤ mode.toNat) (epoch : Byte) : commitMode mode epoch = none := by
  have hne (c : Byte) (hc : c.toNat < 2) : mode ≠ c := by
    rintro rfl
    omega
  rw [commitMode, if_neg (hne 0 (by decide)), if_neg (hne 1 (by decide))]

theorem commitMode_some {mode : Byte} (h : mode.toNat ≤ 1) (epoch : Byte) : ∃ m, commitMode mode epoch = some m := by
  rw [commitMode, twoValued_eq, if_pos h]
  exact ⟨_, rfl⟩

section
variable {s : State} {src : Station} {mode epoch : Byte}

theorem runCommit_error {e : Status} (h : s.openOwn src = .error e) : runCommit src mode epoch s = s.refuse e := by
  rw [runCommit, h]

theorem runCommit_badMode {x : Session} (h : s.openOwn src = .ok x) (hm : 2 ≤ mode.toNat) :
    runCommit src mode epoch s = s.refuse .badField := by
  rw [runCommit, h, commitMode_none hm]

/-- The staged set is judged before the epoch is looked at. -/
theorem runCommit_invalid {x : Session} {bad : Invalid} (h : s.openOwn src = .ok x) (hm : mode.toNat ≤ 1)
    (hbad : x.staged.firstInvalid = some bad) : runCommit src mode epoch s = ⟨s, .invalidSet, bad.detail, false⟩ := by
  obtain ⟨m, hmode⟩ := commitMode_some hm epoch
  simp only [runCommit, h, hmode, hbad]

/-- A valid set waits for the next header, or for one whose epoch is not the last (R118). -/
theorem runCommit_valid {x : Session} {m : Option Byte} (h : s.openOwn src = .ok x) (hmode : commitMode mode epoch = some m)
    (hvalid : x.staged.firstInvalid = none) :
    runCommit src mode epoch s =
      if m.isSome ∧ m = s.trk.lastEpoch then s.refuse .badEpoch
      else ⟨s.setSession (some { x with state := .commitPending m }), .scheduled, [], false⟩ := by
  simp only [runCommit, h, hmode, hvalid]

end

/-- Settles O56: the checks in their order, on the session that the tap asked holds. -/
theorem commitRequest : Obligations.CommitRequest := by
  intro dt src tag mode epoch s h answer
  refine ⟨?_, fun hno => ?_, fun hbusy => ?_⟩
  · intro x d hx ho hs pending
    have hown := State.openOwn_asked_opened dt hx ho hs
    have htrk : (s.asked dt src).trk = s.trk := s.asked_trk dt src
    have scheduled (mode : Byte) (m : Option Byte) (hmode : commitMode mode epoch = some m)
        (hvalid : x.staged.firstInvalid = none) (hm : ¬(m.isSome ∧ m = s.trk.lastEpoch)) :
        exec (.commit dt src tag mode epoch) s = pending m := by
      rw [← htrk] at hm
      have hrun := (runCommit_valid hown hmode hvalid).trans (if_neg hm)
      rw [State.asked_setSession] at hrun
      exact exec_request_answers h dt (.commit mode epoch) hrun
    refine ⟨fun hvalid => ?_, fun hvalid hepoch => ?_, fun hvalid hepoch => ?_, fun bad hbad hmode => ?_, fun hmode => ?_⟩
    · exact scheduled 0x00#8 none rfl hvalid fun hm => nomatch hm.1
    · exact scheduled 0x01#8 (some epoch) rfl hvalid fun hm => hepoch hm.2.symm
    · have hrun := (runCommit_valid (mode := 0x01#8) (m := some epoch) hown rfl hvalid).trans
        (if_pos ⟨rfl, (htrk ▸ hepoch).symm⟩)
      exact exec_request_answers h dt (.commit 0x01#8 epoch) hrun
    · exact exec_request_answers h dt (.commit mode epoch) (runCommit_invalid hown hmode hbad)
    · exact exec_request_answers h dt (.commit mode epoch) (runCommit_badMode hown hmode)
  · exact exec_request_answers h dt (.commit mode epoch) (runCommit_error (State.openOwn_asked_noSession dt hno))
  · exact exec_request_answers h dt (.commit mode epoch) (runCommit_error (State.openOwn_asked_busy dt hbusy))

end Sys2Proof.Machine
end

section
/-! PROOFS. How an edit session ends (R116, R120), and what QUERY EDIT reports of it (R120, 12.2). -/

namespace Sys2Proof.Machine

/-! ### ABANDON EDIT (R120) -/

section
variable {s : State} {src : Station} {x : Session}

theorem runAbandonEdit_own (h : s.mgmt.session = some x) (ho : x.owner = src) :
    runAbandonEdit src s = (s.setSession none).answer [] := by
  simp only [runAbandonEdit, h, if_pos ho]

theorem runAbandonEdit_noSession (h : s.mgmt.session = none ∨ ∃ x, s.mgmt.session = some x ∧ x.owner ≠ src) :
    runAbandonEdit src s = s.refuse .noSession := by
  obtain h | ⟨x, h, ho⟩ := h
  · simp only [runAbandonEdit, h]
  · simp only [runAbandonEdit, h, if_neg ho]

/-- Asking the tap leaves the owner of its session, whoever asks (R116). -/
theorem State.asked_owned (h : s.mgmt.session = some x) (dt : Nat) (src : Station) :
    ∃ y, (s.asked dt src).mgmt.session = some y ∧ y.owner = x.owner := by
  have he : (s.elapse dt).mgmt.session = some x := h
  rw [State.asked, State.touchSession, he]
  dsimp only
  split
  · exact ⟨_, rfl, rfl⟩
  · exact ⟨x, h, rfl⟩

theorem State.asked_endSession (s : State) (dt : Nat) (src : Station) :
    (s.asked dt src).setSession none = { s.elapse dt with mgmt := { s.mgmt with session := none } } := by
  rw [State.asked, State.touchSession_eq]
  rfl

/-- No session of the requester's own, before the asking and after. -/
theorem State.asked_notOwn (h : s.mgmt.session = none ∨ ∃ x, s.mgmt.session = some x ∧ x.owner ≠ src) (dt : Nat) :
    (s.asked dt src).mgmt.session = none ∨ ∃ x, (s.asked dt src).mgmt.session = some x ∧ x.owner ≠ src := by
  obtain h | ⟨x, h, ho⟩ := h
  · exact .inl (State.asked_session_none dt h)
  · exact .inr ⟨x, State.asked_session_other dt h ho, ho⟩

end

/-! ### QUERY EDIT (R120) -/

/-- How many milliseconds a number of microseconds makes, a part of one rounded either way (log 13). -/
theorem msRemaining_bounds (us : Nat) :
    us / 1000 ≤ msRemaining us ∧ msRemaining us ≤ us / 1000 + 1 ∧ (us % 1000 = 0 → msRemaining us = us / 1000) := by
  unfold msRemaining millisecond
  refine ⟨Nat.le_add_right _ _, Nat.add_le_add_left (Bool.toNat_le _) _, fun h => ?_⟩
  rw [decide_eq_false (not_not_intro h)]
  rfl

theorem be16_highWord_lowWord (c : Cycle) : be16 (highWord c) ++ be16 (lowWord c) = be32 c := by
  have inner {start i j : Nat} (hi : i + 8 ≤ 16) (hj : start + i = j) :
      (c.extractLsb' start 16).extractLsb' i 8 = c.extractLsb' j 8 := by
    refine BitVec.eq_of_getLsbD_eq fun k hk => ?_
    have hik : i + k < 16 := by omega
    simp [BitVec.getLsbD_extractLsb', hik, ← hj, Nat.add_assoc]
  simp only [be16, be32, highWord, lowWord, List.cons_append, List.nil_append]
  rw [inner (by decide) rfl, inner (by decide) rfl, inner (by decide) rfl, inner (by decide) rfl]

/-- Words 11 to 14 of the status block are the activation record: whether there is one, its set id and its cycle (R163). -/
theorem State.activationWords (s : State) :
    ([11, 12, 13, 14].map s.statusWord).flatMap be16 =
      match s.mgmt.activation with
      | some x => be16 0x8000#16 ++ be16 x.setId ++ be32 x.cycle
      | none => List.replicate 8 0 := by
  cases h : s.mgmt.activation with
  | none => simp [State.statusWord, State.activationId, State.activationCycle, h]; decide
  | some x =>
    simp [State.statusWord, State.activationId, State.activationCycle, h, ← be16_highWord_lowWord]
    decide

/-- What QUERY EDIT reports after the session's fields: the active set's id and the activation record. -/
def State.activeReport (s : State) : List Byte :=
  be16 s.mgmt.active.id ++
    match s.mgmt.activation with
    | some x => be16 0x8000#16 ++ be16 x.setId ++ be32 x.cycle
    | none => List.replicate 8 0

theorem runQueryEdit_eq (s : State) : runQueryEdit s = s.answer (s.sessionReport ++ s.activeReport) := by
  rw [runQueryEdit, s.activationWords, List.append_assoc, State.activeReport]

theorem State.asked_activeReport (s : State) (dt : Nat) (src : Station) : (s.asked dt src).activeReport = s.activeReport := by
  simp [State.activeReport]

theorem exec_queryEdit {s : State} {src : Station} {tag : Byte} (h : s.executes src tag) (dt : Nat) :
    exec (.queryEdit dt src tag) s =
      .next ((s.asked dt src).replied src tag ([0x15#8, 0x00#8] ++ (s.asked dt src).sessionReport ++ s.activeReport) false) := by
  rw [← s.asked_activeReport dt src]
  exact exec_request_answers h dt .queryEdit (runQueryEdit_eq _)

section
variable {s : State} {x : Session}

theorem State.sessionReport_none (h : s.mgmt.session = none) : s.sessionReport = List.replicate 8 0 := by
  rw [State.sessionReport, h]
  rfl

theorem State.sessionReport_opened {d : Nat} (h : s.mgmt.session = some x) (hx : x.state = .opened d) :
    s.sessionReport =
      [0x01#8, stationByte x.owner] ++ be16 x.staged.id ++ [0, 0] ++ be16 (BitVec.ofNat 16 (msRemaining (d - s.now))) := by
  simp only [State.sessionReport, State.sessionCode, h, hx, State.sessionFields, SessionState.isOpened, if_true]
  rfl

theorem State.sessionReport_pending {m : Option Byte} (h : s.mgmt.session = some x) (hx : x.state = .commitPending m) :
    s.sessionReport =
      [0x02#8, stationByte x.owner] ++ be16 x.staged.id ++ (match m with
        | none => [0, 0, 0, 0]
        | some e => [1, e, 0, 0]) := by
  simp only [State.sessionReport, State.sessionCode, h, hx, SessionState.isOpened]
  cases m with
  | none => rfl
  | some e => rfl

/-- The owner's own QUERY EDIT finds its idle timer restarted, another's finds what is left of it (R116, log 14). -/
theorem State.asked_sessionReport_opened {d : Nat} (h : s.mgmt.session = some x) (hx : x.state = .opened d) (dt : Nat)
    (src : Station) :
    (s.asked dt src).sessionReport =
      [0x01#8, stationByte x.owner] ++ be16 x.staged.id ++ [0, 0] ++
        be16 (BitVec.ofNat 16 (msRemaining (if x.owner = src then 2000000 else d - (s.now + dt)))) := by
  by_cases ho : x.owner = src
  · rw [State.sessionReport_opened (State.asked_session_owner dt h ho hx) rfl, State.asked_now, if_pos ho, Nat.add_sub_cancel_left]
  · rw [State.sessionReport_opened (State.asked_session_other dt h ho) hx, State.asked_now, if_neg ho]

end

/-- Settles O58. -/
theorem sessionEnds : Obligations.SessionEnds := by
  intro dt src tag s
  refine ⟨?_, ?_⟩
  · intro h rest report
    have queried (r : List Byte) (hr : (s.asked dt src).sessionReport = r) : report r := hr ▸ exec_queryEdit h dt
    refine ⟨fun x hx ho => ?_, fun hno => ?_, fun hnone => ?_, ?_, fun x hx hs => ?_, fun x e hx hs => ?_⟩
    · obtain ⟨y, hy, hyo⟩ := State.asked_owned hx dt src
      have hrun := runAbandonEdit_own hy (hyo.trans ho)
      rw [State.asked_endSession] at hrun
      exact exec_request_answers h dt .abandonEdit hrun
    · exact exec_request_answers h dt .abandonEdit (runAbandonEdit_noSession (State.asked_notOwn hno dt))
    · exact queried _ (State.sessionReport_none (State.asked_session_none dt hnone))
    · intro x d hx hs us
      obtain ⟨hlow, hhigh, hwhole⟩ := msRemaining_bounds us
      exact ⟨msRemaining us, hlow, hhigh, hwhole, queried _ (State.asked_sessionReport_opened hx hs dt src)⟩
    · exact queried _ (State.sessionReport_pending (State.asked_session_committing dt hx hs) hs)
    · exact queried _ (State.sessionReport_pending (State.asked_session_committing dt hx hs) hs)
  · intro x d hx hs
    have hsession : (s.elapse dt).mgmt.session = some x := hx
    refine congrArg Host.Outcome.next ?_
    simp only [State.sessionIdleExpiry, hsession, hs]
    rfl

end Sys2Proof.Machine
end

section
/-! PROOFS. PULSE on every kind of channel (R121, R153), and SEGMENT TEST START with its refusals in their order (R123). -/

namespace Sys2Proof.Machine

/-! ### PULSE -/

/-- The channel driven high for 2 µs from now. -/
def State.pulsed (s : State) (c : Fin 12) : State :=
  { s with sig := { s.sig with pulses := upd s.sig.pulses c (some (s.now + 2)) } }

theorem State.pulse_high {s : State} {c : Fin 12} (h : s.sig.pulses[c] ≠ none) : s.pulse c = s.pulsed c :=
  if_pos (Option.isSome_iff_ne_none.mpr h)

/-- A rising edge where the channel was low. -/
theorem State.pulse_low {s : State} {c : Fin 12} (h : s.sig.pulses[c] = none) : s.pulse c = (s.pulsed c).edgeOn c :=
  if_neg (by rw [h]; exact Bool.false_ne_true)

section
variable {s : State} {ch : Byte} {c : Fin 12}

theorem runPulse_remote (hc : ch.toNat = c.val) (hsource : s.mgmt.active.channels[c] = .none) :
    runPulse ch s = (s.pulse c).answer [] := by
  rw [runPulse, below_eq_some_iff.mpr hc.symm]
  exact if_pos hsource

/-- A channel that a source drives. -/
theorem runPulse_driven (hc : ch.toNat = c.val) (hsource : s.mgmt.active.channels[c] ≠ .none) :
    runPulse ch s = s.refuse .badField := by
  rw [runPulse, below_eq_some_iff.mpr hc.symm]
  exact if_neg hsource

theorem runPulse_badIndex (h : 12 ≤ ch.toNat) : runPulse ch s = s.refuse .badIndex := by
  rw [runPulse, below, if_neg (Nat.not_lt.mpr h)]

end

theorem State.asked_pulsed (s : State) (dt : Nat) (src : Station) (c : Fin 12) :
    (s.asked dt src).pulsed c =
      { s.asked dt src with sig := { s.sig with pulses := upd s.sig.pulses c (some (s.now + dt + 2)) } } := by
  simp only [State.pulsed, State.asked_sig, State.asked_now]

/-! ### SEGMENT TEST START -/

theorem runSegmentTestStart_badPort {b : Byte} (h : 2 ≤ b.toNat) (n : Byte) (s : State) :
    runSegmentTestStart b n s = s.refuse .badField := by
  rw [runSegmentTestStart, portOf_none h]

/-- At a port of the tap: the count first, then a test that runs, then the port's monitor. -/
theorem runSegmentTestStart_port (p : Port) (n : Byte) (s : State) :
    runSegmentTestStart (natByte p.code) n s =
      if n = 0 then s.refuse .badField
      else if s.mgmt.segTest.state = .running then s.refuse .testBusy
      else if (s.unit p).monitor = .up then (s.setTest ⟨.running, p, n, 0, 0, 0, 0, 0, .prepared⟩).answer []
      else s.refuse .refusedState := by
  rw [runSegmentTestStart, portOf_code]

/-- Settles O60. -/
theorem pulseAndSegmentTestRequests : Obligations.PulseAndSegmentTestRequests := by
  refine ⟨fun dt src tag ch s h => ?_, ?_⟩
  · have hactive : (s.asked dt src).mgmt.active = s.mgmt.active := s.asked_active dt src
    have hsig : (s.asked dt src).sig = s.sig := s.asked_sig dt src
    rw [← hactive]
    refine ⟨fun c hc hsource hp => ?_, fun c hc hsource hp => ?_, fun c hc hsource => ?_, fun hch => ?_⟩
    · have hrun := runPulse_remote hc hsource
      rw [State.pulse_high (hsig ▸ hp), State.asked_pulsed] at hrun
      exact exec_request_answers h dt (.pulse ch) hrun
    · have hrun := runPulse_remote hc hsource
      rw [State.pulse_low (hsig ▸ hp), State.asked_pulsed] at hrun
      exact exec_request_answers h dt (.pulse ch) hrun
    · exact exec_request_answers h dt (.pulse ch) (runPulse_driven hc hsource)
    · exact exec_request_answers h dt (.pulse ch) (runPulse_badIndex hch)
  · intro dt src tag n p s h answer
    have hrun := runSegmentTestStart_port p n (s.asked dt src)
    rw [s.asked_segTest, s.asked_unit] at hrun
    refine ⟨fun hn hidle hup => ?_, fun hn => ?_, fun b hb => ?_, fun hn hruns => ?_, fun hn hidle hdown => ?_⟩
    · rw [if_neg hn, if_neg hidle, if_pos hup] at hrun
      exact exec_request_answers h dt (.segmentTestStart _ n) hrun
    · rw [if_pos hn] at hrun
      exact exec_request_answers h dt (.segmentTestStart _ n) hrun
    · exact exec_request_answers h dt (.segmentTestStart b n) (runSegmentTestStart_badPort hb n _)
    · rw [if_neg hn, if_pos hruns] at hrun
      exact exec_request_answers h dt (.segmentTestStart _ n) hrun
    · rw [if_neg hn, if_neg hidle, if_neg hdown] at hrun
      exact exec_request_answers h dt (.segmentTestStart _ n) hrun

end Sys2Proof.Machine
end

section
/-! PROOFS. What a table set holds after an entry is staged and after a table is cleared (R105, R115). -/

namespace Sys2Proof.Machine

/-- An index within the vector names the place it is written to. -/
theorem upd_ofNat_get {α : Type} {n : Nat} [NeZero n] (v : Vector α n) (x : α) {i j : Nat} (hi : i < n) (hj : j < n) :
    (upd v (Fin.ofNat n i) x)[Fin.ofNat n j] = if j = i then x else v[Fin.ofNat n j] := by
  have hplace : Fin.ofNat n j = Fin.ofNat n i ↔ j = i := by
    rw [Fin.ext_iff, Fin.val_ofNat, Fin.val_ofNat, Nat.mod_eq_of_lt hi, Nat.mod_eq_of_lt hj]
  rw [upd_get, if_congr hplace rfl rfl]

theorem replicate_get {α : Type} {n : Nat} (x : α) (i : Fin n) : (Vector.replicate n x)[i] = x := Vector.getElem_replicate i.isLt

namespace TableSet

theorem setEntry_id (t : TableSet) (i : Nat) (e : Entry) : (t.setEntry i e).id = t.id := by
  cases e <;> rfl

theorem clearTable_id (t : TableSet) (tab : Table) : (t.clearTable tab).id = t.id := by
  cases tab <;> rfl

/-- Within its own table the entry takes one place. -/
theorem entry_setEntry_same (t : TableSet) {e : Entry} {i j : Nat} (hi : i < e.table.entries) (hj : j < e.table.entries) :
    (t.setEntry i e).entry e.table j = if j = i then e else t.entry e.table j := by
  cases e with
  | sub x => exact (congrArg Entry.sub (upd_ofNat_get t.subs x hi hj)).trans (apply_ite _ _ _ _)
  | pub x => exact (congrArg Entry.pub (upd_ofNat_get t.pubs x hi hj)).trans (apply_ite _ _ _ _)
  | channel x => exact (congrArg Entry.channel (upd_ofNat_get t.channels x hi hj)).trans (apply_ite _ _ _ _)
  | user x => exact (congrArg Entry.user (upd_ofNat_get t.users x hi hj)).trans (apply_ite _ _ _ _)
  | manager x => exact (congrArg Entry.manager (upd_ofNat_get t.managers x hi hj)).trans (apply_ite _ _ _ _)
  | params x =>
    have hplace : j = i := (Nat.lt_one_iff.mp hj).trans (Nat.lt_one_iff.mp hi).symm
    exact (if_pos hplace).symm

theorem entry_setEntry_other (t : TableSet) {e : Entry} {tab : Table} (h : tab ≠ e.table) (i j : Nat) :
    (t.setEntry i e).entry tab j = t.entry tab j := by
  cases e <;> cases tab
  case sub.subscription | pub.publish | channel.channel | user.user | manager.manager | params.parameters => exact absurd rfl h
  all_goals rfl

theorem entry_setEntry (t : TableSet) {e : Entry} {tab : Table} {i j : Nat} (hi : i < e.table.entries) (hj : j < tab.entries) :
    (t.setEntry i e).entry tab j = if tab = e.table ∧ j = i then e else t.entry tab j := by
  by_cases h : tab = e.table
  · subst h
    simpa only [true_and] using t.entry_setEntry_same hi hj
  · rw [if_neg fun hboth => h hboth.1, t.entry_setEntry_other h]

theorem entry_clearTable_other (t : TableSet) {tab other : Table} (h : tab ≠ other) (j : Nat) :
    (t.clearTable other).entry tab j = t.entry tab j := by
  cases tab <;> cases other
  case subscription.subscription | publish.publish | channel.channel | user.user | manager.manager | parameters.parameters =>
    exact absurd rfl h
  all_goals rfl

/-- The cleared form of an entry (R105). -/
theorem entry_clearTable_same (t : TableSet) (tab : Table) (j : Nat) :
    (t.clearTable tab).entry tab j =
      match tab with
      | .subscription => .sub ⟨false, 0, 0, 1, 0, 0, 0, 1⟩
      | .publish => .pub ⟨false, 0, 0, 1, 0, 0, .continuous⟩
      | .channel => .channel .none
      | .user => .user none
      | .manager => .manager none
      | .parameters => .params ⟨.auto, 50, 8, 1, .fixed, none, 3⟩ := by
  cases tab with
  | subscription => exact congrArg Entry.sub (replicate_get _ _)
  | publish => exact congrArg Entry.pub (replicate_get _ _)
  | channel => exact congrArg Entry.channel (replicate_get _ _)
  | user => exact congrArg Entry.user (replicate_get _ _)
  | manager => exact congrArg Entry.manager (replicate_get _ _)
  | parameters => rfl

end TableSet

end Sys2Proof.Machine
end


section
/-! PROOFS. OPEN EDIT, STAGE ENTRY and CLEAR STAGED in every session state (R114, R115). -/

namespace Sys2Proof.Machine

/-! ### OPEN EDIT (R114) -/

section
variable {s : State} {src : Station} {id : Word} {x : Session}

theorem runOpenEdit_badField (src : Station) (s : State) : runOpenEdit src 0 s = s.refuse .badField := if_pos rfl

theorem runOpenEdit_none (hid : id ≠ 0) (h : s.mgmt.session = none) :
    runOpenEdit src id s = (s.openSession src id).answer [] := by
  simp only [runOpenEdit, if_neg hid, h]

theorem runOpenEdit_some (hid : id ≠ 0) (h : s.mgmt.session = some x) :
    runOpenEdit src id s =
      if x.state.isOpened ∧ x.owner = src then (s.openSession src id).answer [] else s.refuse .busy := by
  simp only [runOpenEdit, if_neg hid, h]

/-- A session that the asking leaves: a pending one, or another's (R116). -/
theorem State.asked_session_notOpen (h : s.mgmt.session = some x) (hx : ¬(x.state.isOpened ∧ x.owner = src)) (dt : Nat) :
    (s.asked dt src).mgmt.session = some x := by
  cases hs : x.state with
  | opened d => exact State.asked_session_other dt h fun ho => hx ⟨by rw [hs]; rfl, ho⟩
  | commitPending m => exact State.asked_session_committing dt h hs

theorem State.asked_openSession (s : State) (dt : Nat) (src : Station) (id : Word) :
    (s.asked dt src).openSession src id =
      { s.asked dt src with
        mgmt := { s.mgmt with
          session := some ⟨src, .opened (s.now + dt + 2000000), { s.mgmt.active with id := id }⟩ } } := by
  rw [State.openSession, State.asked_setSession, State.asked_now, State.asked_active]
  rfl

end

theorem SessionState.isOpened_iff (x : SessionState) : x.isOpened = true ↔ ∃ d, x = .opened d := by
  constructor
  · intro h
    cases x with
    | opened d => exact ⟨d, rfl⟩
    | commitPending m => cases h
  · rintro ⟨d, rfl⟩
    rfl

/-! ### STAGE ENTRY and CLEAR STAGED (R115) -/

section
variable {s : State} {src : Station} {x : Session} {tab : Table} {index : Byte} {v : Vector Byte 8}

theorem runStageEntry_error {e : Status} (h : s.openOwn src = .error e) (table index : Byte) (v : Vector Byte 8) :
    runStageEntry src table index v s = s.refuse e := by
  rw [runStageEntry, h]

theorem runClearStaged_error {e : Status} (h : s.openOwn src = .error e) (table : Byte) :
    runClearStaged src table s = s.refuse e := by
  rw [runClearStaged, h]

theorem runStageEntry_badTable (h : s.openOwn src = .ok x) {b : Byte} (hb : 6 ≤ b.toNat) (index : Byte) (v : Vector Byte 8) :
    runStageEntry src b index v s = s.refuse .badField := by
  simp only [runStageEntry, h, tableOf_none hb]

theorem runClearStaged_badTable (h : s.openOwn src = .ok x) {b : Byte} (hb : 6 ≤ b.toNat) :
    runClearStaged src b s = s.refuse .badField := by
  simp only [runClearStaged, h, tableOf_none hb]

theorem runStageEntry_badIndex (h : s.openOwn src = .ok x) (hi : tab.entries ≤ index.toNat) (v : Vector Byte 8) :
    runStageEntry src (natByte tab.code) index v s = s.refuse .badIndex := by
  simp only [runStageEntry, h, tableOf_code, if_pos hi]

theorem runStageEntry_undecodable (h : s.openOwn src = .ok x) (hi : index.toNat < tab.entries) (hv : decodeEntry tab v = none) :
    runStageEntry src (natByte tab.code) index v s = s.refuse .badField := by
  simp only [runStageEntry, h, tableOf_code, if_neg (Nat.not_le.mpr hi), hv]

theorem runStageEntry_entry {e : Entry} (h : s.openOwn src = .ok x) (hi : index.toNat < tab.entries)
    (hv : decodeEntry tab v = some e) :
    runStageEntry src (natByte tab.code) index v s =
      (s.setSession (some { x with staged := x.staged.setEntry index.toNat e })).answer [] := by
  simp only [runStageEntry, h, tableOf_code, if_neg (Nat.not_le.mpr hi), hv]

theorem runClearStaged_table (h : s.openOwn src = .ok x) (tab : Table) :
    runClearStaged src (natByte tab.code) s =
      (s.setSession (some { x with staged := x.staged.clearTable tab })).answer [] := by
  simp only [runClearStaged, h, tableOf_code]

end

/-- Settles O55: each request on the tap asked, whose session is the requester's own with its timer restarted, another's, pending or
none; and each table's entries after a change. -/
theorem editRequests : Obligations.EditRequests := by
  refine ⟨?_, ?_, fun t tab j hj => ?_⟩
  · intro dt src tag id s h opened busy
    have opens (hrun : runOpenEdit src id (s.asked dt src) = ((s.asked dt src).openSession src id).answer []) :
        exec (.openEdit dt src tag id) s = opened := by
      rw [State.asked_openSession] at hrun
      exact exec_request_answers h dt (.openEdit id) hrun
    refine ⟨?_, fun hid hnone => ?_, fun x hid hx => ⟨?_, fun hnot => ?_⟩⟩
    · rintro rfl
      exact exec_request_answers h dt (.openEdit 0) (runOpenEdit_badField src _)
    · exact opens (runOpenEdit_none hid (State.asked_session_none dt hnone))
    · rintro ⟨⟨d, hs⟩, ho⟩
      exact opens ((runOpenEdit_some hid (State.asked_session_owner dt hx ho hs)).trans (if_pos ⟨rfl, ho⟩))
    · have hno : ¬(x.state.isOpened ∧ x.owner = src) := by
        rintro ⟨hopened, ho⟩
        obtain ⟨d, hd⟩ := x.state.isOpened_iff.mp hopened
        exact hnot.elim (fun hs => hs d hd) (fun hne => hne ho)
      have hrun := (runOpenEdit_some hid (State.asked_session_notOpen hx hno dt)).trans (if_neg hno)
      exact exec_request_answers h dt (.openEdit id) hrun
  · intro dt src tag index tab v s h answer staged
    have refused (e : Status) (hown : (s.asked dt src).openOwn src = .error e) :
        exec (.stageEntry dt src tag (natByte tab.code) index v) s = answer [0x11#8, e.code] ∧
          exec (.clearStaged dt src tag (natByte tab.code)) s = answer [0x12#8, e.code] :=
      ⟨exec_request_answers h dt (.stageEntry _ index v) (runStageEntry_error hown _ index v),
        exec_request_answers h dt (.clearStaged _) (runClearStaged_error hown _)⟩
    refine ⟨?_, fun hno => refused .noSession (State.openOwn_asked_noSession dt hno),
      fun hbusy => refused .busy (State.openOwn_asked_busy dt hbusy)⟩
    intro x d hx ho hs
    have hown := State.openOwn_asked_opened dt hx ho hs
    refine ⟨fun e hi he => ?_, fun hi he => ?_, fun hi => ?_, ?_, fun b hb => ⟨?_, ?_⟩⟩
    · have hrun := runStageEntry_entry hown hi he
      rw [State.asked_setSession] at hrun
      exact exec_request_answers h dt (.stageEntry _ index v) hrun
    · exact exec_request_answers h dt (.stageEntry _ index v) (runStageEntry_undecodable hown hi he)
    · exact exec_request_answers h dt (.stageEntry _ index v) (runStageEntry_badIndex hown hi v)
    · have hrun := runClearStaged_table hown tab
      rw [State.asked_setSession] at hrun
      exact exec_request_answers h dt (.clearStaged _) hrun
    · exact exec_request_answers h dt (.stageEntry b index v) (runStageEntry_badTable hown hb index v)
    · exact exec_request_answers h dt (.clearStaged b) (runClearStaged_badTable hown hb)
  · refine ⟨fun e i hi => ⟨t.entry_setEntry hi hj, t.setEntry_id i e⟩, fun other hne => t.entry_clearTable_other hne j,
      t.clearTable_id tab, ?_, ?_⟩
    · cases tab <;> exact t.entry_clearTable_same _ j
    · cases tab <;> rfl

end Sys2Proof.Machine
end

section
/-! PROOFS. What an activation sets at a header stands through the rest of that header (R118, R119; log 7): the management unit, the tap
state, the records, the bindings, the pins and the cleared banks, while the ports, the publish banks and the mailboxes act. -/

namespace Sys2Proof.Machine

/-! ### What stands -/

/-- A receive bank cleared but for HOLD, its take put off or not (R63, R66). -/
def RxBank.blank (hold pending : Bool) : RxBank :=
  ⟨Vector.replicate 128 0, Vector.replicate 128 0, Vector.replicate 128 0, .x, .y, .z, false, hold, 0, 0, pending⟩

theorem RxBank.startFill_blank (hold pending : Bool) : (RxBank.blank hold pending).startFill = .blank hold pending := rfl

/-- A blank bank has nothing to take; under a read burst the take is put off. -/
theorem RxBank.requestTake_blank (burst hold pending : Bool) :
    (RxBank.blank hold pending).requestTake burst = .blank hold (burst || pending) := by
  cases burst <;> rfl

/-- Bank `b` is blank, and has put a take off only under a read burst. -/
def State.cleared (s : State) (b : Fin 8) (hold : Bool) : Prop :=
  ∃ pending, s.rx[b] = .blank hold pending ∧ (s.readBurst b = false → pending = false)

/-- The pin follows no channel, or one that no source drives. -/
def State.undriven (s : State) (k : Fin 8) : Prop := ∀ x : Source, x ≠ .none → s.bound x (trigUser k) = false

/-- From `s` to `t` what an activation sets has stood. -/
structure State.Upholds (s t : State) : Prop where
  mgmt : t.mgmt = s.mgmt
  ctl : t.ctl = s.ctl
  subs : t.subs = s.subs
  now : t.now = s.now
  lsp : t.lsp = s.lsp
  state : s.att.state = true → t.att.state = true
  tables : s.att.tables = true → t.att.tables = true
  pulses : t.sig.pulses = s.sig.pulses
  trigIn : t.sig.trigIn = s.sig.trigIn
  undriven : ∀ k : Fin 8, s.undriven k → t.sig.pins[k] = s.sig.pins[k]
  high : ∀ k : Fin 8, s.sig.pins[k] = ⟨true, some s.now⟩ → t.sig.pins[k] = ⟨true, some s.now⟩
  cleared : ∀ b hold, s.cleared b hold → t.cleared b hold

theorem State.Upholds.refl (s : State) : s.Upholds s :=
  ⟨rfl, rfl, rfl, rfl, rfl, id, id, rfl, rfl, fun _ _ => rfl, fun _ => id, fun _ _ => id⟩

theorem State.Upholds.trans {s t u : State} (h : s.Upholds t) (k : t.Upholds u) : s.Upholds u where
  mgmt := k.mgmt.trans h.mgmt
  ctl := k.ctl.trans h.ctl
  subs := k.subs.trans h.subs
  now := k.now.trans h.now
  lsp := k.lsp.trans h.lsp
  state := k.state ∘ h.state
  tables := k.tables ∘ h.tables
  pulses := k.pulses.trans h.pulses
  trigIn := k.trigIn.trans h.trigIn
  undriven i hi := by
    have ht : t.undriven i := fun x hx => (State.bound_congr (congrArg Management.active h.mgmt) x _).trans (hi x hx)
    exact (k.undriven i ht).trans (h.undriven i hi)
  high i hi := by
    have hp := k.high i
    rw [h.now] at hp
    exact hp (h.high i hi)
  cleared b hold := k.cleared b hold ∘ h.cleared b hold

theorem State.Upholds.foldl {α : Type} {g : State → α → State} (hg : ∀ (s : State) (x : α), s.Upholds (g s x)) (l : List α)
    (s : State) :
    s.Upholds (l.foldl g s) := by
  induction l generalizing s with
  | nil => exact .refl s
  | cons x l ih => exact (hg s x).trans (ih (g s x))

/-- A change of none of these. -/
theorem State.Upholds.of_eq {s t : State} (hm : t.mgmt = s.mgmt) (hc : t.ctl = s.ctl) (hs : t.subs = s.subs) (hn : t.now = s.now)
    (hl : t.lsp = s.lsp) (ha : t.att = s.att) (hg : t.sig = s.sig) (hr : t.rx = s.rx) : s.Upholds t where
  mgmt := hm
  ctl := hc
  subs := hs
  now := hn
  lsp := hl
  state h := ha ▸ h
  tables h := ha ▸ h
  pulses := congrArg Signals.pulses hg
  trigIn := congrArg Signals.trigIn hg
  undriven k _ := by rw [hg]
  high k h := by rw [hg]; exact h
  cleared b hold h := by
    have hb : t.readBurst b = s.readBurst b := State.readBurst_congr (congrArg LocalPort.txn hl) b
    unfold State.cleared
    rw [hr, hb]
    exact h

/-! ### Events and causes -/

/-- An event of a source moves no pin that follows no source, and keeps a pin that an event has just set. -/
theorem State.upholds_raise (s : State) {x : Source} (hx : x ≠ .none) : s.Upholds (s.raise x) where
  mgmt := rfl
  ctl := rfl
  subs := rfl
  now := rfl
  lsp := rfl
  state := id
  tables := id
  pulses := by rw [((State.Raised.refl s).raise x).sig]
  trigIn := by rw [((State.Raised.refl s).raise x).sig]
  undriven k hk := by
    refine ((State.Raised.refl s).raise x).pinsMissed k ?_
    rintro ⟨y, hy | rfl, hb⟩
    · exact hy
    · rw [hk y hx] at hb
      cases hb
  high k hk := by
    have hraised := (State.Raised.refl s).raise x
    by_cases hr : s.reached (fun y => False ∨ y = x) (trigUser k)
    · exact hraised.pinsHit k hr
    · exact (hraised.pinsMissed k hr).trans hk
  cleared b hold hb := by
    obtain ⟨pending, hrx, hpending⟩ := hb
    obtain ⟨hit, missed⟩ := s.raise_asked x b
    by_cases hu : s.bound x (takeUser b) = true
    · refine ⟨s.readBurst b || pending, ?_, fun hburst => ?_⟩
      · rw [hit hu, hrx, RxBank.requestTake_blank]
      · rw [show s.readBurst b = false from hburst, hpending hburst]
        rfl
    · exact ⟨pending, (missed hu).trans hrx, hpending⟩

theorem State.upholds_setSticky (s : State) (c : Sticky) : s.Upholds (s.setSticky c) :=
  { State.Upholds.refl s with
    state := fun h => by
      cases c with
      | state => rfl
      | _ => exact h
    tables := fun h => by
      cases c with
      | tables => rfl
      | _ => exact h }

theorem State.upholds_ringChange (s : State) : s.Upholds s.ringChange :=
  (s.upholds_raise Source.noConfusion).trans (State.upholds_setSticky _ _)

/-! ### The ports -/

theorem State.upholds_setUnit (s : State) (p : Port) (u : PortUnit) : s.Upholds (s.setUnit p u) :=
  .of_eq (by simp) (by simp) (by simp) (by simp) (by simp) (by simp) (by simp) (by simp)

theorem State.upholds_modUnit (s : State) (p : Port) (f : PortUnit → PortUnit) : s.Upholds (s.modUnit p f) := s.upholds_setUnit p _

theorem State.upholds_refit (s : State) (p : Port) : s.Upholds (s.refit p) := by
  unfold State.refit
  dsimp only
  split
  · split
    · exact (s.upholds_setUnit p _).trans (State.upholds_ringChange _)
    · exact .refl s
  · exact s.upholds_setUnit p _

theorem State.upholds_newPolicy (old : ReturnPolicy) (s : State) (p : Port) : s.Upholds (State.newPolicy old s p) := by
  unfold State.newPolicy
  split
  · exact s.upholds_modUnit p _
  · split
    · exact s.upholds_refit p
    · exact .refl s

theorem State.upholds_newQualification (s : State) (p : Port) : s.Upholds (s.newQualification p) := by
  unfold State.newQualification
  split
  · split
    · exact ((s.upholds_modUnit p _).trans (State.upholds_ringChange _)).trans (State.upholds_refit _ p)
    · exact .refl s
  · exact .refl s

theorem State.upholds_activatePorts (s : State) (old : ReturnPolicy) : s.Upholds (s.activatePorts old) :=
  (State.Upholds.foldl (State.upholds_newPolicy old) bothPorts s).trans
    (State.Upholds.foldl State.upholds_newQualification bothPorts _)

/-! ### The blocks at a header -/

theorem State.upholds_publishHeader (s : State) : s.Upholds s.publishHeader := by
  have raised (t : State) (q : Fin 4) : t.Upholds (if s.swaps q then t.raise (.postTaken q) else t) := by
    split
    · exact t.upholds_raise Source.noConfusion
    · exact .refl t
  have taken (t : State) (ht : s.Upholds t) :
      s.Upholds ((List.finRange 4).foldl (fun t q => if s.swaps q then t.raise (.postTaken q) else t) t) :=
    ht.trans (State.Upholds.foldl raised _ t)
  unfold State.publishHeader
  split
  iterate 3 exact taken _ (.of_eq rfl rfl rfl rfl rfl rfl rfl rfl)
  iterate 2 exact .refl s

/-- A blank bank starts its FILL buffer from zeros (R59). -/
theorem State.upholds_startedRx (s : State) : s.Upholds s.startedRx :=
  { State.Upholds.refl s with
    cleared := fun b hold ⟨pending, hrx, hpending⟩ => by
      refine ⟨pending, ?_, hpending⟩
      have hget : s.startedRx.rx[b] = s.rx[b].startFill := Vector.getElem_map _ _
      rw [hget, hrx, RxBank.startFill_blank] }

theorem State.upholds_dueMailbox (h : HeaderFrame) (s : State) (m : Fin 8) : s.Upholds (State.dueMailbox h s m) := by
  have moved (x : MailboxState) : s.Upholds (s.setMailbox m x) := .of_eq rfl rfl rfl rfl rfl rfl rfl rfl
  unfold State.dueMailbox
  split
  · split
    · exact (moved _).trans (State.upholds_raise _ Source.noConfusion)
    · exact moved _
  · exact .refl s

theorem State.upholds_schedulerHeader (s : State) (h : HeaderFrame) : s.Upholds (s.schedulerHeader h) := by
  have started : s.Upholds { s with sched := { s.sched with fills := 0 } } := .of_eq rfl rfl rfl rfl rfl rfl rfl rfl
  exact started.trans (State.Upholds.foldl (State.upholds_dueMailbox h) _ _)

/-- What follows the activation at a header leaves what it set. -/
theorem State.upholds_prepareTrain (s : State) (f : HeaderFrame) : (s.activateDue f.epoch).Upholds (s.prepareTrain f) := by
  rw [State.prepareTrain_raises]
  exact (((State.upholds_publishHeader _).trans (State.upholds_startedRx _)).trans (State.upholds_schedulerHeader _ f)).trans
    (State.upholds_raise _ Source.noConfusion)

end Sys2Proof.Machine
end

section
/-! PROOFS. What an activation makes of each port unit (R136, R142): its return flags under the new policy, and its monitor under the new
qualification time. -/

namespace Sys2Proof.Machine

/-! ### One port unit -/

/-- The unit after a change of its fitness under a policy (R142). -/
def PortUnit.refitted (u : PortUnit) (policy : ReturnPolicy) : PortUnit :=
  if u.fit then if policy = .manual ∧ u.inService = false ∧ u.returnReady = false then { u with returnReady := true } else u
  else { u with returnReady := false, returnAccepted := false }

/-- The unit under a new policy after an old one (R142). -/
def PortUnit.repolicied (u : PortUnit) (old new : ReturnPolicy) : PortUnit :=
  match new with
  | .auto => { u with returnReady := false, returnAccepted := false }
  | .manual => if old = .auto then u.refitted .manual else u

/-- The unit under a new qualification time (R136). -/
def PortUnit.requalified (u : PortUnit) (policy : ReturnPolicy) (time now : Nat) : PortUnit :=
  match u.monitor, u.qual with
  | .qualifying, some d =>
    if d + time ≤ now then { u with monitor := .up, window := [], qual := none }.refitted policy else u
  | _, _ => u

section
variable (u : PortUnit)

/-- Fitness moves the two return flags alone. -/
theorem PortUnit.refitted_frame (policy : ReturnPolicy) :
    u.refitted policy =
      { u with returnReady := (u.refitted policy).returnReady, returnAccepted := (u.refitted policy).returnAccepted } := by
  unfold PortUnit.refitted
  split
  · split
    · rfl
    · rfl
  · rfl

theorem PortUnit.refitted_auto (hr : u.returnReady = false) (ha : u.returnAccepted = false) :
    (u.refitted .auto).returnReady = false ∧ (u.refitted .auto).returnAccepted = false := by
  unfold PortUnit.refitted
  split
  · exact ⟨hr, ha⟩
  · exact ⟨rfl, rfl⟩

/-- Under MANUAL a fit port out of service is ready to return (R142). -/
theorem PortUnit.refitted_manual (hfit : u.fit = true) (hout : u.inService = false) : (u.refitted .manual).returnReady = true := by
  unfold PortUnit.refitted
  rw [if_pos hfit]
  by_cases hr : u.returnReady = false
  · rw [if_pos ⟨rfl, hout, hr⟩]
  · rw [if_neg fun h => hr h.2.2]
    exact Bool.not_eq_false _ ▸ hr

theorem PortUnit.repolicied_frame (old new : ReturnPolicy) :
    u.repolicied old new =
      { u with
        returnReady := (u.repolicied old new).returnReady, returnAccepted := (u.repolicied old new).returnAccepted } := by
  unfold PortUnit.repolicied
  split
  · rfl
  · split
    · exact u.refitted_frame _
    · rfl

theorem PortUnit.requalified_auto (time now : Nat) (hr : u.returnReady = false) (ha : u.returnAccepted = false) :
    (u.requalified .auto time now).returnReady = false ∧ (u.requalified .auto time now).returnAccepted = false := by
  unfold PortUnit.requalified
  split
  · split
    · exact PortUnit.refitted_auto _ hr ha
    · exact ⟨hr, ha⟩
  · exact ⟨hr, ha⟩

/-- A monitor that is not QUALIFYING meets no qualification time. -/
theorem PortUnit.requalified_up {u : PortUnit} (h : u.monitor = .up) (policy : ReturnPolicy) (time now : Nat) :
    u.requalified policy time now = u := by
  simp only [PortUnit.requalified, h]

theorem PortUnit.requalified_monitor {u : PortUnit} {d : Nat} (h : u.monitor = .qualifying) (hq : u.qual = some d)
    (policy : ReturnPolicy) (time now : Nat) :
    (u.requalified policy time now).monitor = if d + time ≤ now then .up else .qualifying := by
  simp only [PortUnit.requalified, h, hq]
  split
  · rw [PortUnit.refitted_frame]
  · exact h

end

/-! ### The units of the tap -/

section
variable (s : State)

theorem State.setUnit_unit_eq (p q : Port) (u : PortUnit) : (s.setUnit p u).unit q = if q = p then u else s.unit q := by
  cases p <;> cases q <;> rfl

theorem State.unit_eq_ite (p q : Port) : s.unit q = if q = p then s.unit p else s.unit q := by
  split
  · rename_i h
    rw [h]
  · rfl

theorem State.refit_unit (p q : Port) :
    (s.refit p).unit q = if q = p then (s.unit p).refitted s.mgmt.active.params.returnPolicy else s.unit q := by
  unfold State.refit PortUnit.refitted
  dsimp only
  split
  · split
    · exact s.setUnit_unit_eq p q _
    · exact s.unit_eq_ite p q
  · exact s.setUnit_unit_eq p q _

theorem State.newPolicy_unit (old : ReturnPolicy) (p q : Port) :
    (State.newPolicy old s p).unit q =
      if q = p then (s.unit p).repolicied old s.mgmt.active.params.returnPolicy else s.unit q := by
  unfold State.newPolicy PortUnit.repolicied
  cases hp : s.mgmt.active.params.returnPolicy with
  | auto => exact s.setUnit_unit_eq p q _
  | manual =>
    dsimp only
    split
    · rw [State.refit_unit, hp]
    · exact s.unit_eq_ite p q

theorem State.enterUp_unit (p q : Port) :
    (s.enterUp p).unit q =
      if q = p then
        { s.unit p with monitor := .up, window := [], qual := none }.refitted s.mgmt.active.params.returnPolicy
      else s.unit q := by
  have hup (r : Port) : (s.modUnit p fun u => { u with monitor := .up, window := [], qual := none }).ringChange.unit r =
      if r = p then { s.unit p with monitor := .up, window := [], qual := none } else s.unit r :=
    (State.ringChange_unit _ r).trans (s.setUnit_unit_eq p r _)
  rw [State.enterUp, State.refit_unit, hup, hup, if_pos rfl, State.ringChange_mgmt, State.modUnit_mgmt]
  split
  · rfl
  · rfl

theorem State.newQualification_unit (p q : Port) :
    (s.newQualification p).unit q =
      if q = p then (s.unit p).requalified s.mgmt.active.params.returnPolicy s.qualificationTime s.now else s.unit q := by
  unfold State.newQualification PortUnit.requalified
  cases (s.unit p).monitor with
  | qualifying =>
    cases (s.unit p).qual with
    | none => exact s.unit_eq_ite p q
    | some d =>
      dsimp only
      split
      · exact s.enterUp_unit p q
      · exact s.unit_eq_ite p q
  | _ => exact s.unit_eq_ite p q

/-- Each port takes the new policy, then the new qualification time, whatever the other does (R136, R142). -/
theorem State.activatePorts_unit (old : ReturnPolicy) (q : Port) :
    (s.activatePorts old).unit q =
      ((s.unit q).repolicied old s.mgmt.active.params.returnPolicy).requalified s.mgmt.active.params.returnPolicy
        s.qualificationTime s.now := by
  have hnow (t : State) (p : Port) : (State.newPolicy old t p).now = t.now := (State.upholds_newPolicy old t p).now
  have hnow' (t : State) (p : Port) : (t.newQualification p).now = t.now := (State.upholds_newQualification t p).now
  simp only [State.activatePorts, bothPorts, List.foldl_cons, List.foldl_nil, State.newQualification_unit, State.newPolicy_unit,
    State.newQualification_mgmt, State.newPolicy_mgmt, State.qualificationTime, hnow, hnow']
  cases q with
  | w => rfl
  | e => rfl

end

end Sys2Proof.Machine
end

section
/-! PROOFS. An activation of itself, before the train it precedes is prepared (R108, R119, R35, R52, R66, R153, R160): what it leaves in
each block but the ports. -/

namespace Sys2Proof.Machine

/-! ### Its parts, in the order of log 7 -/

/-- The staged set is active, the session gone, the activation recorded and the cache pruned (R108, R119). -/
def State.withStaged (s : State) (x : Session) : State :=
  { s with
    mgmt := { s.mgmt with
      active := x.staged
      session := none
      activation := some ⟨x.staged.id, s.trk.lastCycle⟩
      cache := pruneCache s.mgmt.cache x.staged } }

/-- The tap has left UNCONFIGURED, and the subscription records are reset. -/
def State.adopted (s : State) (x : Session) : State :=
  { (s.withStaged x).activateTapState with subs := Vector.replicate 32 SubRecord.reset }

/-- Channels and pins have the new bindings, and the TABLES event has reached its users. -/
def State.tablesRaised (s : State) (old : TableSet) : State := ((s.changeover old).setSticky .tables).raise .tables

def State.banksCleared (s : State) : State := { s with rx := s.rx.map RxBank.clear }

theorem State.activate_stages (s : State) (x : Session) :
    s.activate x =
      ((s.adopted x).tablesRaised s.mgmt.active).banksCleared.activatePorts s.mgmt.active.params.returnPolicy := rfl

/-! ### The tap state and the records -/

theorem State.activateTapState_configured {s : State} (h : s.ctl.tapState ≠ .unconfigured) : s.activateTapState = s := if_neg h

theorem State.activateTapState_unconfigured {s : State} (h : s.ctl.tapState = .unconfigured) :
    s.activateTapState =
      { s with
        ctl := { s.ctl with
          tapState := if s.ctl.commandCause = true ∨ s.ctl.pinCause = true then .halted else .online }
        att := { s.att with state := true } } := by
  have hstate : (if s.ctl.commandCause || s.ctl.pinCause then TapState.halted else .online) =
      if s.ctl.commandCause = true ∨ s.ctl.pinCause = true then .halted else .online :=
    if_congr (Bool.or_eq_true _ _ ▸ Iff.rfl) rfl rfl
  have hne : s.ctl.tapState ≠ if s.ctl.commandCause = true ∨ s.ctl.pinCause = true then .halted else .online := by
    rw [h]
    split
    · exact TapState.noConfusion
    · exact TapState.noConfusion
  rw [State.activateTapState, if_pos h, hstate, State.setTapState_ne hne]

/-- The tap state and its cause alone move (R35). -/
theorem State.activateTapState_frame (s : State) :
    s.activateTapState = { s with ctl := s.activateTapState.ctl, att := s.activateTapState.att } := by
  by_cases h : s.ctl.tapState = .unconfigured
  · rw [State.activateTapState_unconfigured h]
  · rw [State.activateTapState_configured h]

/-- The tap leaves UNCONFIGURED at its first activation (R35). -/
theorem State.activateTapState_ctl (s : State) :
    s.activateTapState.ctl =
      { s.ctl with
        tapState :=
          if s.ctl.tapState = .unconfigured then
            if s.ctl.commandCause = true ∨ s.ctl.pinCause = true then .halted else .online
          else s.ctl.tapState } := by
  by_cases h : s.ctl.tapState = .unconfigured
  · rw [State.activateTapState_unconfigured h, if_pos h]
  · rw [State.activateTapState_configured h, if_neg h]

theorem State.adopted_ctl (s : State) (x : Session) :
    (s.adopted x).ctl =
      { s.ctl with
        tapState :=
          if s.ctl.tapState = .unconfigured then
            if s.ctl.commandCause = true ∨ s.ctl.pinCause = true then .halted else .online
          else s.ctl.tapState } :=
  (s.withStaged x).activateTapState_ctl

theorem State.adopted_state {s : State} (x : Session) (h : s.ctl.tapState = .unconfigured) : (s.adopted x).att.state = true := by
  have hx : (s.withStaged x).ctl.tapState = .unconfigured := h
  show (s.withStaged x).activateTapState.att.state = true
  rw [State.activateTapState_unconfigured hx]

theorem State.adopted_frame (s : State) (x : Session) :
    s.adopted x =
      { s.withStaged x with
        ctl := (s.adopted x).ctl, subs := Vector.replicate 32 SubRecord.reset, att := (s.adopted x).att } := by
  unfold State.adopted
  rw [State.activateTapState_frame]

/-! ### The bindings (R152, R153, R160) -/

section
variable {s : State} {old : TableSet} {k : Fin 8} {c : Fin 12}

theorem State.changeover_pulses (s : State) (old : TableSet) (c : Fin 12) :
    (s.changeover old).sig.pulses[c] = if old.channels[c] = .none ∧ s.source c = .none then s.sig.pulses[c] else none :=
  ofFn_get _ c

theorem State.changeover_trigIn (s : State) (old : TableSet) (k : Fin 8) :
    (s.changeover old).sig.trigIn[k] = (s.sig.trigIn[k] && !s.pinIsOutput k) :=
  ofFn_get _ k

/-- A pin that follows no channel stops being driven. -/
theorem State.changeover_pins_free (h : s.follows (trigUser k) = none) : (s.changeover old).sig.pins[k] = ⟨false, none⟩ := by
  refine (ofFn_get _ k).trans ?_
  rw [h]

theorem State.channelLevel_remote (hc : s.source c = .none) : s.channelLevel c = s.sig.pulses[c].isSome := by
  unfold State.channelLevel
  rw [hc]

/-- A pin of a channel that no source drives carries on, or takes the channel's level. -/
theorem State.changeover_pins_remote (h : s.follows (trigUser k) = some c) (hc : s.source c = .none) :
    (s.changeover old).sig.pins[k] =
      if old.users[trigUser k] = some c ∧ old.channels[c] = .none then s.sig.pins[k]
      else ⟨decide (old.channels[c] = .none) && s.sig.pulses[c].isSome, none⟩ := by
  have hpulse := s.changeover_pulses old c
  have hlevel : State.channelLevel { s with sig := { s.sig with pulses := (s.changeover old).sig.pulses } } c =
      (decide (old.channels[c] = .none) && s.sig.pulses[c].isSome) := by
    rw [State.channelLevel_remote (s := { s with sig := { s.sig with pulses := (s.changeover old).sig.pulses } }) hc, hpulse]
    by_cases ho : old.channels[c] = .none
    · rw [if_pos ⟨ho, hc⟩, decide_eq_true ho, Bool.true_and]
    · rw [if_neg fun h => ho h.1, decide_eq_false ho]
      rfl
  refine (ofFn_get _ k).trans ?_
  rw [h]
  dsimp only
  rw [hc, ← hlevel]
  rfl

end

/-! ### The manager set (R108) -/

theorem TableSet.isManager_iff (t : TableSet) (st : Station) :
    t.isManager st = true ↔ ∃ (j : Fin 4) (m : Fin 63), t.managers[j] = some m ∧ m.val = st.toNat :=
  State.isManager_iff { State.reset with mgmt := { State.reset.mgmt with active := t } } st

section
variable {t : TableSet} {i : Fin 63} (cache : Vector (Option CachedResponse) 63)

theorem pruneCache_get : (pruneCache cache t)[i] = if t.isManager (BitVec.ofNat 6 i.val) then cache[i] else none :=
  ofFn_get _ i

theorem pruneCache_manager (h : ∃ j : Fin 4, t.managers[j] = some i) : (pruneCache cache t)[i] = cache[i] := by
  obtain ⟨j, hj⟩ := h
  have hi : (BitVec.ofNat 6 i.val).toNat = i.val := Nat.mod_eq_of_lt (i.isLt.trans (by decide))
  rw [pruneCache_get, if_pos ((t.isManager_iff _).mpr ⟨j, i, hj, hi.symm⟩)]

theorem pruneCache_other (h : ∀ j : Fin 4, t.managers[j] ≠ some i) : (pruneCache cache t)[i] = none := by
  have hi : (BitVec.ofNat 6 i.val).toNat = i.val := Nat.mod_eq_of_lt (i.isLt.trans (by decide))
  rw [pruneCache_get, if_neg]
  intro hm
  obtain ⟨j, m, hj, hval⟩ := (t.isManager_iff _).mp hm
  exact h j (hj.trans (congrArg some (Fin.ext (hval.trans hi))))

end

/-! ### What it leaves -/

/-- `t` is the tap `s` after the set of `x` was activated, but for the ports, the publish banks, the mailboxes and what is sent. -/
structure State.Activated (s : State) (x : Session) (t : State) : Prop where
  mgmt : t.mgmt =
    { s.mgmt with
      active := x.staged
      session := none
      activation := some ⟨x.staged.id, s.trk.lastCycle⟩
      cache := pruneCache s.mgmt.cache x.staged }
  ctl : t.ctl = (s.adopted x).ctl
  subs : t.subs = Vector.replicate 32 SubRecord.reset
  now : t.now = s.now
  lsp : t.lsp = s.lsp
  state : s.ctl.tapState = .unconfigured → t.att.state = true
  tables : t.att.tables = true
  pulses : t.sig.pulses = ((s.adopted x).changeover s.mgmt.active).sig.pulses
  trigIn : t.sig.trigIn = ((s.adopted x).changeover s.mgmt.active).sig.trigIn
  undriven : ∀ k : Fin 8, t.undriven k → t.sig.pins[k] = ((s.adopted x).changeover s.mgmt.active).sig.pins[k]
  onTables : ∀ k : Fin 8, t.bound .tables (trigUser k) = true → t.sig.pins[k] = ⟨true, some s.now⟩
  cleared : ∀ b, t.cleared b s.rx[b].hold

theorem State.Activated.upheld {s t u : State} {x : Session} (h : s.Activated x t) (k : t.Upholds u) : s.Activated x u := by
  have hbound (y : Source) (v : Fin 21) : u.bound y v = t.bound y v := State.bound_congr (congrArg Management.active k.mgmt) y v
  exact {
    mgmt := k.mgmt.trans h.mgmt
    ctl := k.ctl.trans h.ctl
    subs := k.subs.trans h.subs
    now := k.now.trans h.now
    lsp := k.lsp.trans h.lsp
    state := k.state ∘ h.state
    tables := k.tables h.tables
    pulses := k.pulses.trans h.pulses
    trigIn := k.trigIn.trans h.trigIn
    undriven := fun i hi => by
      have ht : t.undriven i := fun y hy => (hbound y _).symm.trans (hi y hy)
      exact (k.undriven i ht).trans (h.undriven i ht)
    onTables := fun i hi => by
      have hpin := k.high i
      rw [h.now] at hpin
      exact hpin (h.onTables i ((hbound _ _).symm.trans hi))
    cleared := fun b => k.cleared b _ (h.cleared b) }

/-- The events of TABLES, which no other block's event precedes. -/
theorem State.tablesRaised_raised (s : State) (old : TableSet) :
    State.Raised ((s.changeover old).setSticky .tables) (s.tablesRaised old) fun x => x = .tables :=
  ((State.Raised.refl _).raise .tables).iff fun _ => iff_of_eq (false_or _)

theorem State.tablesRaised_undriven {s : State} {old : TableSet} {k : Fin 8} (h : s.undriven k) :
    (s.tablesRaised old).sig.pins[k] = (s.changeover old).sig.pins[k] := by
  refine (s.tablesRaised_raised old).pinsMissed k ?_
  rintro ⟨_, rfl, hb⟩
  exact Bool.false_ne_true ((h _ Source.noConfusion).symm.trans hb)

theorem State.tablesRaised_onTables {s : State} {old : TableSet} {k : Fin 8} (h : s.bound .tables (trigUser k) = true) :
    (s.tablesRaised old).sig.pins[k] = ⟨true, some s.now⟩ :=
  (s.tablesRaised_raised old).pinsHit k ⟨.tables, rfl, h⟩

theorem State.tablesRaised_hold (s : State) (old : TableSet) (b : Fin 8) : (s.tablesRaised old).rx[b].hold = s.rx[b].hold :=
  (State.raise_asked ((s.changeover old).setSticky .tables) .tables b).hold

/-- The event and the clearing move the bindings, the publish banks, the receive banks and the causes alone. -/
theorem State.tablesRaised_frame (s : State) (old : TableSet) :
    (s.tablesRaised old).banksCleared =
      { s with
        rx := (s.tablesRaised old).banksCleared.rx
        pub := (s.tablesRaised old).pub
        sig := (s.tablesRaised old).sig
        att := s.att.setSticky .tables } := by
  unfold State.banksCleared State.tablesRaised State.raise State.fire State.setSticky State.changeover
  rfl

theorem State.banksCleared_cleared (s : State) (b : Fin 8) : s.banksCleared.cleared b s.rx[b].hold :=
  ⟨false, Vector.getElem_map _ _, fun _ => rfl⟩

theorem State.activated_banksCleared (s : State) (x : Session) :
    s.Activated x ((s.adopted x).tablesRaised s.mgmt.active).banksCleared := by
  have hmgmt : (s.adopted x).mgmt = (s.withStaged x).mgmt := by rw [s.adopted_frame x]
  have hnow : (s.adopted x).now = s.now := by rw [s.adopted_frame x]; rfl
  have hlsp : (s.adopted x).lsp = s.lsp := by rw [s.adopted_frame x]; rfl
  have hrx : (s.adopted x).rx = s.rx := by rw [s.adopted_frame x]; rfl
  have hsubs : (s.adopted x).subs = Vector.replicate 32 SubRecord.reset := rfl
  have hstate := State.adopted_state (s := s) x
  generalize hold : s.mgmt.active = old at ⊢
  generalize ha : s.adopted x = a at hmgmt hnow hlsp hrx hsubs hstate ⊢
  have hsig := (a.tablesRaised_raised old).sig
  have hundriven (k : Fin 8) := State.tablesRaised_undriven (s := a) (old := old) (k := k)
  have honTables (k : Fin 8) := State.tablesRaised_onTables (s := a) (old := old) (k := k)
  have hcleared (b : Fin 8) := (a.tablesRaised old).banksCleared_cleared b
  have hheld := a.tablesRaised_hold old
  have hframe := a.tablesRaised_frame old
  generalize (a.tablesRaised old).banksCleared = t at hcleared hframe ⊢
  generalize a.tablesRaised old = r at hcleared hframe hheld hsig hundriven honTables
  have ht : t.mgmt.active = a.mgmt.active := by rw [hframe]
  exact {
    mgmt := by rw [hframe]; exact hmgmt
    ctl := by rw [hframe, ha]
    subs := by rw [hframe]; exact hsubs
    now := by rw [hframe]; exact hnow
    lsp := by rw [hframe]; exact hlsp
    state := by rw [hframe]; exact hstate
    tables := by rw [hframe]; rfl
    pulses := by rw [hframe, ha, hold]; exact (congrArg Signals.pulses hsig :)
    trigIn := by rw [hframe, ha, hold]; exact (congrArg Signals.trigIn hsig :)
    undriven := fun k hk => by
      rw [hframe, ha, hold]
      exact hundriven k fun y hy => (State.bound_congr ht y _).symm.trans (hk y hy)
    onTables := fun k hk => by
      rw [hframe, ← hnow]
      exact honTables k ((State.bound_congr ht _ _).symm.trans hk)
    cleared := fun b => by
      rw [← hrx, ← hheld]
      exact hcleared b }

/-- The activation leaves this, and the train's preparation leaves it so. -/
theorem State.activated_prepareTrain {s : State} {x : Session} {f : HeaderFrame} (h : s.activateDue f.epoch = s.activate x) :
    s.Activated x (s.prepareTrain f) := by
  have hports := (s.activated_banksCleared x).upheld (State.upholds_activatePorts _ s.mgmt.active.params.returnPolicy)
  rw [← s.activate_stages x] at hports
  exact hports.upheld (h ▸ s.upholds_prepareTrain f)

end Sys2Proof.Machine
end

section
/-! PROOFS. The activation at a first-pass header and none at any other (R118, R119): the header's own record before it, the train's
preparation and the header's leaving after it. -/

namespace Sys2Proof.Machine

/-! ### The bindings of an activated tap (R152, R153, R160) -/

section
variable {s t : State} {x : Session}

theorem State.adopted_active (s : State) (x : Session) : (s.adopted x).mgmt.active = x.staged := by
  rw [State.adopted_frame]
  rfl

theorem State.adopted_sig (s : State) (x : Session) : (s.adopted x).sig = s.sig := by
  rw [State.adopted_frame]
  rfl

theorem State.Activated.active (h : s.Activated x t) : t.mgmt.active = x.staged := by rw [h.mgmt]

theorem State.Activated.pulses_get (h : s.Activated x t) (c : Fin 12) :
    t.sig.pulses[c] = if s.mgmt.active.channels[c] = .none ∧ x.staged.channels[c] = .none then s.sig.pulses[c] else none := by
  rw [h.pulses, State.changeover_pulses, State.source, s.adopted_active, s.adopted_sig]

theorem State.Activated.trigIn_get (h : s.Activated x t) (k : Fin 8) :
    t.sig.trigIn[k] = (s.sig.trigIn[k] && x.staged.users[trigUser k].isNone) := by
  rw [h.trigIn, State.changeover_trigIn, State.pinIsOutput, State.follows, s.adopted_active, s.adopted_sig,
    Option.not_isSome]

theorem State.Activated.pins_free (h : s.Activated x t) {k : Fin 8} (hk : x.staged.users[trigUser k] = none) :
    t.sig.pins[k] = ⟨false, none⟩ := by
  have hundriven : t.undriven k := fun y _ => by rw [State.bound, State.follows, h.active, hk]
  rw [h.undriven k hundriven]
  exact State.changeover_pins_free (by rw [State.follows, s.adopted_active, hk])

theorem State.Activated.pins_tables (h : s.Activated x t) {k : Fin 8} {c : Fin 12} (hk : x.staged.users[trigUser k] = some c)
    (hc : x.staged.channels[c] = .tables) : t.sig.pins[k] = ⟨true, some s.now⟩ :=
  h.onTables k ((State.bound_iff _ _ _).mpr
    ⟨c, by rw [State.follows, h.active, hk], by rw [State.source, h.active, hc]⟩)

theorem State.Activated.pins_remote (h : s.Activated x t) {k : Fin 8} {c : Fin 12} (hk : x.staged.users[trigUser k] = some c)
    (hc : x.staged.channels[c] = .none) :
    t.sig.pins[k] =
      if s.mgmt.active.users[trigUser k] = some c ∧ s.mgmt.active.channels[c] = .none then s.sig.pins[k]
      else ⟨decide (s.mgmt.active.channels[c] = .none) && s.sig.pulses[c].isSome, none⟩ := by
  have hundriven : t.undriven k := fun y hy => by
    rw [State.bound, State.follows, h.active, hk]
    dsimp only
    rw [State.source, h.active, hc]
    exact decide_eq_false hy.symm
  rw [h.undriven k hundriven, State.changeover_pins_remote (c := c), s.adopted_sig]
  · rw [State.follows, s.adopted_active, hk]
  · rw [State.source, s.adopted_active, hc]

theorem State.Activated.rx_get (h : s.Activated x t) (b : Fin 8) :
    t.rx[b] = .blank s.rx[b].hold t.rx[b].takePending ∧ (s.readBurst b = false → t.rx[b].takePending = false) := by
  obtain ⟨pending, hrx, hpending⟩ := h.cleared b
  have hburst : t.readBurst b = s.readBurst b := State.readBurst_congr (congrArg LocalPort.txn h.lsp) b
  rw [hrx]
  exact ⟨rfl, fun hb => hpending (hburst.trans hb)⟩

end

/-! ### The ports at an activation (R136, R142) -/

section
variable (s : State) (x : Session)

/-- The units take the new parameters up as they stood before the activation. -/
theorem State.activate_unit (q : Port) :
    (s.activate x).unit q =
      ((s.unit q).repolicied s.mgmt.active.params.returnPolicy x.staged.params.returnPolicy).requalified
        x.staged.params.returnPolicy (1000 * x.staged.params.qualification.toNat) s.now := by
  have ha := s.activated_banksCleared x
  have hunit : ((s.adopted x).tablesRaised s.mgmt.active).banksCleared.unit q = s.unit q := by
    rw [State.tablesRaised_frame, State.adopted_frame]
    cases q with
    | w => rfl
    | e => rfl
  rw [State.activate_stages, State.activatePorts_unit, hunit, State.qualificationTime, ha.active, ha.now, millisecond, Nat.mul_comm]

theorem State.activate_unit_auto (h : x.staged.params.returnPolicy = .auto) (q : Port) :
    ((s.activate x).unit q).returnReady = false ∧ ((s.activate x).unit q).returnAccepted = false := by
  rw [State.activate_unit, h]
  exact PortUnit.requalified_auto _ _ _ rfl rfl

variable {s x}

theorem State.activate_unit_manual (h : x.staged.params.returnPolicy = .manual) (hold : s.mgmt.active.params.returnPolicy = .auto)
    {q : Port} (hup : (s.unit q).monitor = .up) (hfar : (s.unit q).farEnd = some .idle) (hout : (s.unit q).inService = false) :
    ((s.activate x).unit q).returnReady = true := by
  have hfit : (s.unit q).fit = true := by rw [PortUnit.fit, hup, hfar]; rfl
  have hready := PortUnit.refitted_manual _ hfit hout
  have hmonitor : ((s.unit q).refitted .manual).monitor = .up := by rw [PortUnit.refitted_frame]; exact hup
  have hpolicy : (s.unit q).repolicied .auto .manual = (s.unit q).refitted .manual := rfl
  rw [State.activate_unit, h, hold, hpolicy, PortUnit.requalified_up hmonitor]
  exact hready

theorem State.activate_unit_monitor {q : Port} {d : Nat} (hm : (s.unit q).monitor = .qualifying) (hq : (s.unit q).qual = some d) :
    ((s.activate x).unit q).monitor =
      if d + 1000 * x.staged.params.qualification.toNat ≤ s.now then .up else .qualifying := by
  rw [State.activate_unit]
  refine PortUnit.requalified_monitor ?_ ?_ _ _ _
  · rw [PortUnit.repolicied_frame]
    exact hm
  · rw [PortUnit.repolicied_frame]
    exact hq

end

/-! ### A port unit before the activation and after it -/

/-- What an activation reads of a port unit, and what it moves, is the same. -/
structure PortUnit.SameStance (u v : PortUnit) : Prop where
  monitor : v.monitor = u.monitor
  qual : v.qual = u.qual
  farEnd : v.farEnd = u.farEnd
  inService : v.inService = u.inService
  returnReady : v.returnReady = u.returnReady
  returnAccepted : v.returnAccepted = u.returnAccepted

theorem PortUnit.SameStance.refl (u : PortUnit) : u.SameStance u := ⟨rfl, rfl, rfl, rfl, rfl, rfl⟩

theorem PortUnit.SameStance.trans {u v w : PortUnit} (h : u.SameStance v) (k : v.SameStance w) : u.SameStance w :=
  ⟨k.monitor.trans h.monitor, k.qual.trans h.qual, k.farEnd.trans h.farEnd, k.inService.trans h.inService,
    k.returnReady.trans h.returnReady, k.returnAccepted.trans h.returnAccepted⟩

theorem State.sameStance_modUnit (s : State) (p q : Port) {g : PortUnit → PortUnit} (h : ∀ u : PortUnit, u.SameStance (g u)) :
    (s.unit q).SameStance ((s.modUnit p g).unit q) := by
  rw [State.modUnit, s.setUnit_unit_eq]
  split
  · rename_i hq
    rw [hq]
    exact h _
  · exact .refl _

/-- A good frame that has arrived and been counted, and a header recorded. -/
theorem State.sameStance_recordHeader (s : State) (dt : Nat) (p : Port) (gap : Option Nat) (f : HeaderFrame) (q : Port) :
    (s.unit q).SameStance (((s.countedGood dt p gap).recordHeader p f).unit q) := by
  have hcounted : (s.unit q).SameStance ((s.countedGood dt p gap).unit q) :=
    State.sameStance_modUnit { s with now := s.now + dt, trk := { s.trk with gapTimer := gap } } p q
      fun _ => ⟨rfl, rfl, rfl, rfl, rfl, rfl⟩
  have hrecorded (t : State) : (t.recordHeader p f).unit q = t.unit q := by
    unfold State.recordHeader
    dsimp only
    split
    · rfl
    · rfl
  rw [hrecorded]
  exact hcounted

/-- The events and the mailboxes of a header leave the ports. -/
theorem State.prepareTrain_unit (s : State) (f : HeaderFrame) (q : Port) :
    (s.prepareTrain f).unit q = (s.activateDue f.epoch).unit q := by
  have published (t : State) : t.publishHeader.unit q = t.unit q := by
    have taken (u : State) :
        ((List.finRange 4).foldl (fun u r => if t.swaps r then u.raise (.postTaken r) else u) u).unit q = u.unit q :=
      foldl_keeps (fun u : State => u.unit q) _ (fun u r => by
        split
        · exact State.raise_unit _ _ q
        · rfl) _ _
    unfold State.publishHeader
    split
    iterate 3 exact taken _
    iterate 2 rfl
  have scheduled (t : State) : (t.schedulerHeader f).unit q = t.unit q := by cases q <;> simp [State.unit]
  rw [State.prepareTrain_raises, State.raise_unit, State.scheduled, scheduled]
  exact published _

/-- A good frame's leaving, and its outcome in the error window, leave this. -/
theorem Passed.sameStance_sendOff (r : Passed) (p : Port) (a : Arriving) (fcs : Option Fcs) (placed : Bool) (q : Port) :
    (r.state.unit q).SameStance ((r.sendOff p a .good fcs placed).unit q) := by
  have forwarded (t : State) (y : SentContent) (w b : Bool) : (t.unit q).SameStance ((t.forward a y w b).unit q) := by
    unfold State.forward State.sendOut State.depart
    split
    · split
      · exact t.sameStance_modUnit _ q fun _ => ⟨rfl, rfl, rfl, rfl, rfl, rfl⟩
      · dsimp only
        split
        · exact .refl _
        · exact .refl _
    · exact .refl _
  have windowed (t : State) : (t.unit q).SameStance ((t.windowAdd p false).unit q) := by
    rw [State.windowAdd_good]
    refine t.sameStance_modUnit p q fun u => ?_
    split
    · exact ⟨rfl, rfl, rfl, rfl, rfl, rfl⟩
    · exact .refl u
  unfold Passed.sendOff
  rw [State.countLost_good]
  exact (forwarded _ _ _ _).trans (windowed _)

/-- A header places no restart's response, so its leaving marks none (R124). -/
theorem Passed.sendOff_mgmt {r : Passed} {placed : Bool} (h : r.state.restartPlaced = placed) (p : Port) (a : Arriving)
    (fcs : Option Fcs) : (r.sendOff p a .good fcs placed).mgmt = r.state.mgmt := by
  have forwarded (t : State) (y : SentContent) (w : Bool) : (t.forward a y w false).mgmt = t.mgmt := by
    unfold State.forward State.sendOut
    split
    · split
      · exact State.modUnit_mgmt _ _ _
      · rfl
    · rfl
  unfold Passed.sendOff
  rw [State.countLost_good, h, Bool.not_and_self]
  simp only [reduceCtorEq, decide_false, State.windowAdd_good, State.modUnit_mgmt, forwarded]

end Sys2Proof.Machine
end

section
/-! PROOFS. A first-pass header at which a commit is due, and one at which none is (R118, R119). -/

namespace Sys2Proof.Machine

/-! ### The header, from its arrival to its leaving -/

/-- `r` is `s` when the header has been recorded, so far as an activation reads it (R21, R25, R156). -/
structure State.Recorded (s r : State) (dt : Nat) (f : HeaderFrame) : Prop where
  mgmt : r.mgmt = s.mgmt
  ctl : r.ctl = s.ctl
  subs : r.subs = s.subs
  rx : r.rx = s.rx
  lsp : r.lsp = s.lsp
  now : r.now = s.now + dt
  sig : r.sig = { s.sig with ref := some ⟨f.cycle, s.now + dt⟩ }
  lastCycle : r.trk.lastCycle = f.cycle
  unit : ∀ q, (s.unit q).SameStance (r.unit q)

theorem State.recorded_recordHeader (s : State) (dt : Nat) (p : Port) (gap : Option Nat) (f : HeaderFrame) :
    s.Recorded ((s.countedGood dt p gap).recordHeader p f) dt f := by
  have hframe := s.recordHeader_countedGood dt p gap f
  have hcycle : ((s.countedGood dt p gap).recordHeader p f).trk.lastCycle = f.cycle := by
    unfold State.recordHeader
    dsimp only
    split
    · rfl
    · rfl
  have hunit := s.sameStance_recordHeader dt p gap f
  dsimp only at hframe
  generalize (s.countedGood dt p gap).recordHeader p f = r at hframe hcycle hunit ⊢
  exact {
    mgmt := (congrArg State.mgmt hframe :)
    ctl := (congrArg State.ctl hframe :)
    subs := (congrArg State.subs hframe :)
    rx := (congrArg State.rx hframe :)
    lsp := (congrArg State.lsp hframe :)
    now := (congrArg State.now hframe :)
    sig := (congrArg State.sig hframe :)
    lastCycle := hcycle
    unit := hunit }

/-- No restart's response is placed while a train is prepared (R124). -/
theorem State.prepareTrain_restartPlaced (s : State) (f : HeaderFrame) : (s.prepareTrain f).restartPlaced = s.restartPlaced := by
  have hdue : (s.activateDue f.epoch).mgmt.pendingRestart = s.mgmt.pendingRestart := by
    unfold State.activateDue
    split
    · rw [State.activate_mgmt]
    · rfl
  rw [State.restartPlaced, (s.upholds_prepareTrain f).mgmt, hdue, State.restartPlaced]

/-- A good header of a new cycle is recorded, the train prepared, and the header sent off, which leaves what an activation has set
(R13, R21, R22). -/
theorem exec_header_recorded {dt : Nat} {p : Port} {f : HeaderFrame} {s : State} (h : s.meetsFirstPass p f) :
    ∃ r t : State,
      exec (.header dt p f (some (Frame.check (.header f)))) s = .next t ∧
        s.Recorded r dt f ∧ (r.prepareTrain f).Upholds t ∧ ∀ q, ((r.prepareTrain f).unit q).SameStance (t.unit q) := by
  obtain ⟨⟨a, hm, -⟩, -, hidle, hnew⟩ := h
  obtain ⟨gap, hexec⟩ := exec_header_firstPass (dt := dt) hm hidle hnew
  have hrecorded := s.recorded_recordHeader dt p gap f
  generalize Frame.header (if a.out = some p then f.turned else f) = g at hexec
  rw [State.firstPass_eq] at hexec
  generalize (s.countedGood dt p gap).recordHeader p f = r at hexec hrecorded
  have hplaced : (r.prepareTrain f).restartPlaced = s.restartPlaced := by
    rw [r.prepareTrain_restartPlaced, State.restartPlaced, hrecorded.mgmt, State.restartPlaced]
  refine ⟨r, ?_⟩
  generalize r.prepareTrain f = u at hexec hplaced ⊢
  have hbegun := State.trainBegun_only u p
  generalize u.trainBegun p = b at hexec hbegun
  have hplaced : b.restartPlaced = s.restartPlaced := by rw [hbegun]; exact hplaced
  obtain ⟨hframe, -⟩ := Passed.leaving_sendOff ⟨b, g⟩ p a (some (Frame.check (.header f))) s.restartPlaced
  have hmgmt := Passed.sendOff_mgmt (r := ⟨b, g⟩) hplaced p a (some (Frame.check (.header f)))
  have hunit := Passed.sameStance_sendOff ⟨b, g⟩ p a (some (Frame.check (.header f))) s.restartPlaced
  generalize Passed.sendOff ⟨b, g⟩ p a .good (some (Frame.check (.header f))) s.restartPlaced = t at hexec hframe hmgmt hunit
  rw [hbegun] at hframe hmgmt hunit
  refine ⟨t, hexec, hrecorded, ?_, fun q => ?_⟩
  · exact .of_eq hmgmt (congrArg State.ctl hframe :) (congrArg State.subs hframe :) (congrArg State.now hframe :)
      (congrArg State.lsp hframe :) (congrArg State.att hframe :) (congrArg State.sig hframe :) (congrArg State.rx hframe :)
  · have hq := hunit q
    cases q with
    | w => exact hq
    | e => exact hq

/-! ### Which commit is due -/

theorem State.dueCommit_of_commitDue {s : State} {x : Session} {epoch : Byte} (h : s.commitDue x epoch) :
    s.dueCommit epoch = some x := by
  obtain ⟨hx, hs | hs⟩ := h
  · simp only [State.dueCommit, hx, hs]
  · simp only [State.dueCommit, hx, hs, if_true]

/-- Settles O12: the header is recorded, a due set is activated before the train is prepared, and nothing after it moves what it set. -/
theorem activationAtAHeader : Obligations.ActivationAtAHeader := by
  intro dt p f s hmeets
  obtain ⟨r, t, hexec, hr, hleft, hstance⟩ := exec_header_recorded (dt := dt) hmeets
  have hupheld := (r.upholds_prepareTrain f).trans hleft
  have hdue (x : Session) : r.commitDue x f.epoch ↔ s.commitDue x f.epoch := by rw [State.commitDue, hr.mgmt, State.commitDue]
  refine ⟨t, hexec, fun hnone => ?_, ?_⟩
  · rw [State.activateDue_none fun x => mt (hdue x).mp (hnone x)] at hupheld
    exact ⟨hupheld.mgmt.trans hr.mgmt, hupheld.ctl.trans hr.ctl, hupheld.subs.trans hr.subs⟩
  · intro x hx old new
    have hactivates : r.activateDue f.epoch = r.activate x := by
      rw [State.activateDue, State.dueCommit_of_commitDue ((hdue x).mpr hx)]
    have hdone := (State.activated_prepareTrain hactivates).upheld hleft
    have hunit (q : Port) : ((r.activate x).unit q).SameStance (t.unit q) := by
      have hq := hstance q
      rw [State.prepareTrain_unit, hactivates] at hq
      exact hq
    have hold : r.mgmt.active = s.mgmt.active := by rw [hr.mgmt]
    have hburst (b : Fin 8) : r.readBurst b = s.readBurst b := State.readBurst_congr (congrArg LocalPort.txn hr.lsp) b
    have hmgmt := hdone.mgmt
    rw [hr.mgmt, hr.lastCycle] at hmgmt
    refine ⟨?_, fun i => ⟨fun hi => ?_, fun hi => ?_⟩, ?_, fun hs => ?_, hdone.tables, fun e => ?_, fun b => ?_,
      ⟨fun c => ?_, fun k => ?_, fun k hk => hdone.pins_free hk, fun k c hk hc => ?_, fun k c hk hc => ?_⟩, fun hauto q => ?_,
      fun hmanual hauto q hup hfar hout => ?_, fun q d hm hq => ?_⟩
    · rw [hmgmt]
    · rw [hmgmt]
      exact pruneCache_manager _ hi
    · rw [hmgmt]
      exact pruneCache_other _ hi
    · rw [hdone.ctl, State.adopted_ctl, hr.ctl]
    · exact hdone.state (by rw [hr.ctl]; exact hs)
    · rw [hdone.subs]
      exact replicate_get _ e
    · have hbank := hdone.rx_get b
      rw [hburst, hr.rx] at hbank
      exact hbank
    · have hpulse := hdone.pulses_get c
      rw [hold, hr.sig] at hpulse
      exact hpulse
    · have htrig := hdone.trigIn_get k
      rw [hr.sig] at htrig
      exact htrig
    · rw [hdone.pins_tables hk hc, hr.now]
    · have hpin := hdone.pins_remote hk hc
      rw [hold, hr.sig] at hpin
      exact hpin
    · obtain ⟨hready, haccepted⟩ := r.activate_unit_auto x hauto q
      exact ⟨(hunit q).returnReady.trans hready, (hunit q).returnAccepted.trans haccepted⟩
    · refine (hunit q).returnReady.trans (State.activate_unit_manual hmanual (by rw [hold]; exact hauto) ?_ ?_ ?_)
      · exact (hr.unit q).monitor.trans hup
      · exact (hr.unit q).farEnd.trans hfar
      · exact (hr.unit q).inService.trans hout
    · have hmonitor := State.activate_unit_monitor (x := x) ((hr.unit q).monitor.trans hm) ((hr.unit q).qual.trans hq)
      rw [hr.now] at hmonitor
      exact (hunit q).monitor.trans hmonitor

end Sys2Proof.Machine
end

section
/-! PROOFS. The census: the record that an update leaves for a station listed and for one not listed, and the anonymous count (R130 to
R132); an update as a whole, with its event (R133). -/

namespace Sys2Proof.Machine

/-! ### A station listed -/

theorem rollStatusOf_unconfigured : rollStatusOf 0 = .unconfigured := rfl

theorem rollStatusOf_online : rollStatusOf 1 = .online := rfl

theorem rollStatusOf_halted : rollStatusOf 2 = .halted := rfl

theorem rollStatusOf_faulted : rollStatusOf 3 = .faulted := rfl

/-- The optional fields that entry `x` at slot `i` leaves in a record, the first seen cycle kept where there is one (R131). -/
def CensusRecord.listingFrom (r : CensusRecord) (x : RollEntry) (i : Nat) (cycle : Cycle) : Listing where
  status := rollStatusOf x.code
  portWUp := x.status.getLsbD 4
  portEUp := x.status.getLsbD 5
  wrapped := x.status.getLsbD 6
  position := Fin.ofNat 63 i
  firstSeen := r.listing.elim cycle Listing.firstSeen
  lastSeen := cycle

theorem CensusRecord.listed_eq (r : CensusRecord) (x : RollEntry) (i : Nat) (cycle : Cycle) :
    r.listed x i cycle = ⟨.present, some (r.listingFrom x i cycle), 0, r.timesLost⟩ := by
  rw [CensusRecord.listed, CensusRecord.listingFrom]
  cases r.listing with
  | none => rfl
  | some l => rfl

theorem CensusRecord.update_listed {closed : List RollEntry} {st : Fin 63} {i : Nat} {x : RollEntry}
    (hi : listedAt closed st = some i) (hx : closed[i]? = some x) (r : CensusRecord) (cycle : Cycle) (threshold : Byte) :
    r.update closed st cycle threshold = ⟨.present, some (r.listingFrom x i cycle), 0, r.timesLost⟩ := by
  simp only [CensusRecord.update, hi, List.getD_eq_getElem?_getD, hx, Option.getD_some, CensusRecord.listed_eq]

/-! ### A station not listed -/

theorem CensusRecord.update_unlisted {closed : List RollEntry} {st : Fin 63} (h : listedAt closed st = none)
    (r : CensusRecord) (cycle : Cycle) (threshold : Byte) : r.update closed st cycle threshold = r.unlisted threshold := by
  simp only [CensusRecord.update, h]

/-- A NEVER_SEEN or LOST record stays as it is (R132). -/
theorem CensusRecord.unlisted_kept {r : CensusRecord} (h : r.presence = .neverSeen ∨ r.presence = .lost) (threshold : Byte) :
    r.unlisted threshold = r := by
  obtain h | h := h
  · simp only [CensusRecord.unlisted, h]
  · simp only [CensusRecord.unlisted, h]

/-- A PRESENT or MISSING record counts one more update without a listing; the threshold decides (R132). -/
theorem CensusRecord.unlisted_missed {r : CensusRecord} (h : r.presence = .present ∨ r.presence = .missing) (threshold : Byte) :
    r.unlisted threshold =
      if threshold ≤ satInc r.missing then ⟨.lost, r.listing, satInc r.missing, satInc r.timesLost⟩
      else ⟨.missing, r.listing, satInc r.missing, r.timesLost⟩ := by
  obtain h | h := h
  · simp only [CensusRecord.unlisted, h]
  · simp only [CensusRecord.unlisted, h]

/-! ### The anonymous count -/

/-- A closed roll has at most 63 entries, so the six bits hold the count (R130). -/
theorem anonymousCount_toNat {closed : List RollEntry} (h : closed.length ≤ 63) :
    (anonymousCount closed).toNat = closed.countP fun x => decide (stationOf x.station = 63#6) := by
  have hle := List.countP_le_length (p := fun x : RollEntry => decide (stationOf x.station = 63#6)) (l := closed)
  rw [anonymousCount, BitVec.toNat_ofNat, Nat.mod_eq_of_lt (by omega)]

/-- Settles O28: the station's first entry gives the record, or no entry does and the table of R132 applies. -/
theorem censusRecords : Obligations.CensusRecords := by
  refine ⟨?_, ?_, ?_⟩
  · intro r closed st cycle threshold i x hlt hx hst hfirst
    refine ⟨r.listingFrom x i cycle, CensusRecord.update_listed (listedAt_first hx hst hfirst) hx r cycle threshold,
      fun hc => ?_, fun hc => ?_, fun hc => ?_, fun hc => ?_, rfl, rfl, rfl, Nat.mod_eq_of_lt hlt, rfl,
      fun hnone => ?_, fun old hold => ?_⟩
    · exact (congrArg rollStatusOf hc).trans rollStatusOf_unconfigured
    · exact (congrArg rollStatusOf hc).trans rollStatusOf_online
    · exact (congrArg rollStatusOf hc).trans rollStatusOf_halted
    · exact (congrArg rollStatusOf hc).trans rollStatusOf_faulted
    · rw [CensusRecord.listingFrom, hnone, Option.elim_none]
    · rw [CensusRecord.listingFrom, hold, Option.elim_some]
  · intro r closed st cycle threshold hnone
    rw [CensusRecord.update_unlisted (listedAt_none hnone)]
    exact ⟨fun h => r.unlisted_kept h threshold, fun h =>
      ⟨fun hlost => (CensusRecord.unlisted_missed h threshold).trans (if_pos hlost),
        fun hmissing => (CensusRecord.unlisted_missed h threshold).trans (if_neg hmissing)⟩⟩
  · intro closed hlen
    rw [anonymousCount_toNat hlen, List.countP_eq_length_filter]

/-! ### An update as a whole -/

theorem State.updateCensus_census (s : State) (closed : List RollEntry) (st : Fin 63) :
    (s.updateCensus closed).roll.census[st] =
      s.roll.census[st].update closed st s.trk.lastCycle s.mgmt.active.params.lostThreshold := by
  rw [State.updateCensus_roll]
  exact ofFn_get _ st

/-- The test that raises the event reads the records the update leaves (R133). -/
theorem State.presenceChanges_updateCensus (s : State) (closed : List RollEntry) :
    s.presenceChanges closed = true ↔
      ∃ st : Fin 63, (s.updateCensus closed).roll.census[st].presence ≠ s.roll.census[st].presence := by
  simp only [State.presenceChanges_census, State.updateCensus_census]

/-- All the records change first, and the event reaches its users after them (R133). -/
theorem State.updateCensus_eq (s : State) (closed : List RollEntry) :
    s.updateCensus closed =
      if s.presenceChanges closed = true then State.raise { s with roll := (s.updateCensus closed).roll } .censusChange
      else { s with roll := (s.updateCensus closed).roll } := by
  rw [State.updateCensus_roll]
  rfl

/-- Settles O29. -/
theorem censusUpdateRaisesOneEvent : Obligations.CensusUpdateRaisesOneEvent := by
  intro s closed
  refine ⟨s.updateCensus_census closed, ?_, fun hchanged => ?_, fun hsame => ?_⟩
  · rw [State.updateCensus_roll]
    rfl
  · have htest := (s.presenceChanges_updateCensus closed).mpr hchanged
    exact (s.updateCensus_eq closed).trans (if_pos htest)
  · have htest : ¬s.presenceChanges closed = true := by
      rw [State.presenceChanges_updateCensus]
      rintro ⟨st, hne⟩
      exact hne (hsame st)
    exact (s.updateCensus_eq closed).trans (if_neg htest)

end Sys2Proof.Machine
end

section
/-! PROOFS. The receive monitor (R135 to R137): what the commands of a port do outside BYPASS, how a monitor loses its place, and the
error window's limit. -/

namespace Sys2Proof.Machine

/-! ### The commands of a port, outside BYPASS -/

/-- A command that BYPASS ignores is heeded elsewhere. -/
theorem State.heeded {s : State} (h : s.ctl.tapState ≠ .bypass) (dt : Nat) (t : State) :
    (if (s.elapse dt).inBypass then s.elapse dt else t) = t := by
  rw [State.inBypass_eq_false (s := s.elapse dt) h, if_neg Bool.false_ne_true]

section
variable {s : State} (hb : s.ctl.tapState ≠ .bypass) (dt : Nat) (p : Port)
include hb

theorem exec_lockLost : exec (.lockLost dt p) s = .next ((s.elapse dt).lockLost p) :=
  congrArg Host.Outcome.next (State.heeded hb dt _)

theorem exec_lockGained : exec (.lockGained dt p) s = .next ((s.elapse dt).lockGained p) :=
  congrArg Host.Outcome.next (State.heeded hb dt _)

theorem exec_downHoldExpiry : exec (.downHoldExpiry dt p) s = .next ((s.elapse dt).downHoldExpiry p) :=
  congrArg Host.Outcome.next (State.heeded hb dt _)

theorem exec_qualificationComplete : exec (.qualificationComplete dt p) s = .next ((s.elapse dt).qualificationComplete p) :=
  congrArg Host.Outcome.next (State.heeded hb dt _)

/-- The far end's sending is recognised where lock is held (R135). -/
theorem exec_farEndRecognised (hlock : (s.unit p).lock = true) (sig : FarSignal) :
    exec (.farEndRecognised dt p sig) s =
      .next
        ((if sig = .fault then ((s.elapse dt).modUnit p fun u => { u with farEnd := some sig }).goDown p .remote
          else ((s.elapse dt).modUnit p fun u => { u with farEnd := some sig }).tryQualify p).refit p) := by
  refine congrArg Host.Outcome.next ((State.heeded hb dt _).trans ?_)
  rw [State.farEnd, if_pos (by rwa [State.unit_elapse])]

end

/-! ### Going DOWN (R136) -/

section
variable {s : State} {p : Port} (c : DownCause)

theorem State.goDown_up (h : (s.unit p).monitor = .up) : s.goDown p c = s.leaveUp p c := by
  simp only [State.goDown, h]

theorem State.goDown_qualifying (h : (s.unit p).monitor = .qualifying) :
    s.goDown p c = s.modUnit p fun u => u.enterDown c s.now := by
  simp only [State.goDown, h]

theorem State.goDown_down (h : (s.unit p).monitor = .down) : s.goDown p c = s := by
  simp only [State.goDown, h]

theorem State.endPartial_none (h : (s.unit p).arriving = none) : s.endPartial p = s := by
  simp only [State.endPartial, h]

theorem State.endPartial_arriving (s : State) (p : Port) : ((s.endPartial p).unit p).arriving = none := by
  rw [State.endPartial_unit]
  rfl

/-- A frame in progress ends before the monitor leaves UP (log 34). -/
theorem State.leaveUp_endPartial (s : State) (p : Port) (c : DownCause) : s.leaveUp p c = (s.endPartial p).leaveUp p c := by
  have hend : (s.endPartial p).endPartial p = s.endPartial p := State.endPartial_none (s.endPartial_arriving p)
  simp only [State.leaveUp, hend]

/-- The unit of a port that has left UP, whether or not a frame was arriving: DOWN, counted, and out of service. -/
theorem State.leaveUp_unit_any (s : State) (p : Port) (c : DownCause) :
    (s.leaveUp p c).unit p =
      { ((s.unit p).endedEarly (s.unit p).arriving).leftUp c s.now with inService := false, tx := none, elastic := [] } := by
  rw [State.leaveUp_endPartial, State.leaveUp_unit (s.endPartial_arriving p), State.endPartial_unit, State.endPartial_now]
  rfl

theorem State.leaveUp_monitor (s : State) (p : Port) (c : DownCause) : ((s.leaveUp p c).unit p).monitor = .down := by
  rw [State.leaveUp_unit_any]
  rfl

/-- A port whose monitor is not UP is not fit (R141). -/
theorem PortUnit.fit_of_notUp {u : PortUnit} (h : u.monitor ≠ .up) : u.fit = false := by
  simp [PortUnit.fit, h]

theorem PortUnit.fit_of_farEnd {u : PortUnit} (h : u.farEnd ≠ some .idle) : u.fit = false := by
  simp [PortUnit.fit, h]

end

/-- A monitor that is not DOWN has no condition to judge (R136). -/
theorem State.tryQualify_notDown {s : State} {p : Port} (h : (s.unit p).monitor ≠ .down) : s.tryQualify p = s :=
  State.modUnit_self (if_neg fun hq => h hq.1)

/-! ### The error window (R137) -/

/-- The window keeps the latest 64 outcomes. -/
theorem windowPush_eq (w : List Bool) (error : Bool) : windowPush w error = (w ++ [error]).drop (w.length - 63) := by
  rw [windowPush, windowSize, Nat.add_sub_add_right w.length 1 63]

section
variable {s : State} {p : Port} {error : Bool}

theorem State.windowAdd_notUp (h : (s.unit p).monitor ≠ .up) : s.windowAdd p error = s := if_neg h

theorem State.windowAdd_joins (h : (s.unit p).monitor = .up)
    (hfew : error = false ∨ (windowPush (s.unit p).window error).countP id < 8) :
    s.windowAdd p error = s.modUnit p fun u => { u with window := windowPush (s.unit p).window error } := by
  have hstays : ¬(error = true ∧ windowLimit ≤ (windowPush (s.unit p).window error).countP id) := by
    rintro ⟨herror, hmany⟩
    obtain hgood | hfew := hfew
    · exact absurd (hgood.symm.trans herror) (by decide)
    · exact absurd hmany (Nat.not_le.mpr hfew)
  simp only [State.windowAdd, if_pos h, if_neg hstays]

theorem State.windowAdd_limit (h : (s.unit p).monitor = .up) (hmany : 8 ≤ (windowPush (s.unit p).window true).countP id) :
    s.windowAdd p true =
      (s.modUnit p fun u => { u with window := windowPush (s.unit p).window true }).leaveUp p .errors := by
  simp only [State.windowAdd, if_pos h]
  exact if_pos ⟨trivial, hmany⟩

end

/-! ### An ECHO with a bad check -/

/-- The judgement of a reply moves the segment test at most (R146). -/
theorem State.judgeReply_setTest (s : State) (p : Port) (f : EchoFrame) (check : Check) :
    ∃ y, s.judgeReply p f check = s.setTest y := by
  have hkept : s = s.setTest s.mgmt.segTest := rfl
  unfold State.judgeReply
  dsimp only
  split
  · split_ifs
    · exact ⟨_, rfl⟩
    · exact ⟨_, rfl⟩
    · exact ⟨_, rfl⟩
    · exact ⟨_, hkept⟩
    · exact ⟨_, hkept⟩
  · exact ⟨_, hkept⟩

/-- No reply is queued for a request whose check is bad, so an ECHO with one moves the segment test at most (R10, R146). -/
theorem State.receiveEcho_bad (s : State) (p : Port) (f : EchoFrame) : ∃ y, s.receiveEcho p f .bad = s.setTest y := by
  have hkept : s = s.setTest s.mgmt.segTest := rfl
  unfold State.receiveEcho
  split_ifs with hup hrequest hgood hreply
  · exact absurd hgood (by decide)
  · exact ⟨_, hkept⟩
  · exact s.judgeReply_setTest p f .bad
  · exact ⟨_, hkept⟩
  · exact ⟨_, hkept⟩

theorem State.setTest_unit (s : State) (y : SegTest) (p : Port) : (s.setTest y).unit p = s.unit p := by cases p <;> rfl

/-- An ECHO cut short at an UP port whose window it brings to the limit: it is counted, joins the window, and the port leaves UP. -/
theorem exec_echo_limit {s : State} {p : Port} (hb : s.ctl.tapState ≠ .bypass) (ha : (s.unit p).arriving = none)
    (hup : (s.unit p).monitor = .up) (hmany : 8 ≤ (windowPush (s.unit p).window true).countP id) (dt : Nat) (f : EchoFrame) :
    ∃ t : State,
      exec (.echo dt p f none) s = .next (t.leaveUp p .errors) ∧ t.now = s.now + dt ∧
        t.unit p =
          { s.unit p with
            arriving := none
            counters := (s.unit p).counters.received .bad false
            window := windowPush (s.unit p).window true } := by
  have hreceived := State.receive_echo (s := s.elapse dt) hb (by rwa [State.unit_elapse]) f none
  rw [outcome_cut, decide_eq_true rfl] at hreceived
  obtain ⟨y, hy⟩ := State.receiveEcho_bad ((s.elapse dt).modUnit p fun u =>
    { u with arriving := none, counters := u.counters.received .bad false }) p f
  rw [hy] at hreceived
  have hunit : ((((s.elapse dt).modUnit p fun u =>
      { u with arriving := none, counters := u.counters.received .bad false }).setTest y).unit p) =
        { s.unit p with arriving := none, counters := (s.unit p).counters.received .bad false } := by
    rw [State.setTest_unit, State.unit_modUnit, State.unit_elapse]
  rw [State.windowAdd_limit (by rw [hunit]; exact hup) (by rw [hunit]; exact hmany), hunit] at hreceived
  refine ⟨_, congrArg Host.Outcome.next hreceived, ?_, ?_⟩
  · rw [State.modUnit_now]
    exact State.modUnit_now _ _ _
  · rw [State.unit_modUnit, hunit]

/-! ### The statement -/

/-- Settles O38: a QUALIFYING or DOWN port by the cases of `goDown`; an UP port by what leaving UP leaves of its unit. -/
theorem monitorLosesItsPlace : Obligations.MonitorLosesItsPlace := by
  refine ⟨⟨fun dt p s hb ha hm => ?_, fun dt p s hb ha hm => ?_⟩, fun dt p s hb hm hlock => ?_,
    fun p error s => ⟨State.windowAdd_notUp, fun hup hfew => ?_⟩, fun dt p f s hb ha hup hmany => ?_,
    fun dt p s hb hup hlock => ?_, fun dt p s hb hup hlock => ?_⟩
  · rw [exec_lockLost hb, State.lockLost, State.endPartial_none (by simpa using ha),
      State.goDown_qualifying _ (by simpa using hm), State.refit_unfit (PortUnit.fit_of_notUp (by simp [PortUnit.enterDown])),
      State.modUnit_modUnit, State.modUnit_modUnit, State.modUnit_now]
    rfl
  · rw [exec_lockLost hb, State.lockLost, State.endPartial_none (by simpa using ha), State.goDown_down _ (by simpa using hm),
      State.refit_unfit (PortUnit.fit_of_notUp (by simp [hm])), State.modUnit_modUnit]
    rfl
  · rw [exec_farEndRecognised hb dt p hlock, if_pos rfl, State.goDown_qualifying _ (by simpa using hm),
      State.refit_unfit (PortUnit.fit_of_notUp (by simp [PortUnit.enterDown])), State.modUnit_modUnit, State.modUnit_modUnit,
      State.modUnit_now]
    rfl
  · rw [← windowPush_eq] at hfew ⊢
    exact State.windowAdd_joins hup hfew
  · rw [← windowPush_eq] at hmany
    obtain ⟨t, hexec, hnow, hunit⟩ := exec_echo_limit hb ha hup hmany dt f
    have harriving : (t.unit p).arriving = none := by rw [hunit]
    refine ⟨_, hexec, ?_⟩
    rw [State.leaveUp_unit harriving, hunit, hnow]
    exact ⟨rfl, rfl, rfl, rfl, rfl, rfl, rfl, State.leaveUp_ring harriving .errors⟩
  · have hleft := State.leaveUp_unit_any ((s.elapse dt).modUnit p fun u => { u with farEnd := some .fault }) p .remote
    rw [State.unit_modUnit, State.unit_elapse, State.modUnit_now] at hleft
    refine ⟨_, exec_farEndRecognised hb dt p hlock .fault, ?_⟩
    rw [if_pos rfl, State.goDown_up _ (by simpa using hup), State.refit_unfit (PortUnit.fit_of_notUp (by rw [State.leaveUp_monitor]; decide)),
      State.unit_modUnit, hleft]
    exact ⟨rfl, rfl, rfl, hlock, rfl, rfl, congrArg satInc (PortUnit.endedEarly_downs _ _)⟩
  · rw [exec_farEndRecognised hb dt p hlock, if_neg (by decide), State.tryQualify_notDown (by simp [hup]),
      State.refit_unfit (PortUnit.fit_of_farEnd (by simp)), State.modUnit_modUnit]
    rfl

end Sys2Proof.Machine
end

section
/-! PROOFS. A port that gains its place: qualification (R136), what fills its line (R138), and its return to service (R139, R141, R142),
with the RING_CHANGE of each change. -/

namespace Sys2Proof.Machine

/-! ### RING_CHANGE after a change of a port -/

/-- The attention cause of RING_CHANGE (R139). -/
def State.ringed (s : State) : State := { s with att := { s.att with ring := true } }

section
variable (s : State) (p : Port) (f : PortUnit → PortUnit)

/-- RING_CHANGE reaches its users with its cause set already. -/
theorem State.modUnit_ringChange : (s.modUnit p f).ringChange = (s.ringed.modUnit p f).raise .ringChange := by
  cases p <;> rfl

/-- What the users do at RING_CHANGE does not read the port units. -/
theorem State.ringChange_modUnit : s.ringChange.modUnit p f = (s.ringed.modUnit p f).raise .ringChange := by
  cases p <;> rfl

theorem State.ringChange_modUnit_ringChange :
    (s.ringChange.modUnit p f).ringChange = ((s.ringed.modUnit p f).raise .ringChange).raise .ringChange := by
  cases p <;> rfl

end

/-! ### Fitness and its flag (R141, R142) -/

/-- A port gets its return-ready flag: a fit one out of service, under MANUAL, that has none (R142). -/
def State.getsFlag (s : State) (p : Port) : Prop :=
  s.mgmt.active.params.returnPolicy = .manual ∧ (s.unit p).inService = false ∧ (s.unit p).returnReady = false

theorem PortUnit.fit_iff (u : PortUnit) : u.fit = true ↔ u.monitor = .up ∧ u.farEnd = some .idle := by
  simp [PortUnit.fit]

section
variable {s : State} {p : Port}

theorem State.refit_flagged (hfit : (s.unit p).fit = true) (h : s.getsFlag p) :
    s.refit p = (s.modUnit p fun u => { u with returnReady := true }).ringChange := by
  simp only [State.refit, if_pos hfit]
  exact if_pos h

theorem State.refit_kept (hfit : (s.unit p).fit = true) (h : ¬s.getsFlag p) : s.refit p = s := by
  simp only [State.refit, if_pos hfit]
  exact if_neg h

end

/-! ### Beginning to qualify (R136) -/

section
variable {s : State} {p : Port}

/-- A DOWN port whose condition holds begins to qualify. -/
theorem State.tryQualify_begins (hm : (s.unit p).monitor = .down) (hlock : (s.unit p).lock = true) (hhold : (s.unit p).hold = none)
    (hfar : (s.unit p).farEnd ≠ some .fault) :
    s.tryQualify p = s.modUnit p fun u => { u with monitor := .qualifying, qual := some s.now } :=
  State.modUnit_congr (if_pos ⟨hm, hlock, hhold, hfar⟩)

theorem State.tryQualify_unlocked (h : (s.unit p).lock = false) : s.tryQualify p = s :=
  State.modUnit_self (if_neg fun hq => Bool.false_ne_true (h.symm.trans hq.2.1))

@[simp] theorem State.unit_reach (s : State) (t : Nat) (p : Port) : (s.reach t).unit p = s.unit p := by cases p <;> rfl

/-- The end of a running hold, with the condition judged afresh. -/
theorem State.downHoldExpiry_running {d : Nat} (h : (s.unit p).hold = some d) :
    s.downHoldExpiry p = ((s.reach d).modUnit p fun u => { u with hold := none }).tryQualify p := by
  simp only [State.downHoldExpiry, h]

end

/-! ### Idle fill recognised (R135, R142) -/

/-- The tap told that the far end of an UP port sends idle fill, `dt` after `s`. -/
def State.toldIdle (s : State) (dt : Nat) (p : Port) : State := (s.elapse dt).modUnit p fun u => { u with farEnd := some .idle }

theorem exec_toldIdle {s : State} {p : Port} (hb : s.ctl.tapState ≠ .bypass) (hm : (s.unit p).monitor = .up)
    (hlock : (s.unit p).lock = true) (dt : Nat) :
    exec (.farEndRecognised dt p .idle) s = .next ((s.toldIdle dt p).refit p) := by
  rw [exec_farEndRecognised hb dt p hlock, if_neg (by decide), State.tryQualify_notDown (by simp [hm]), State.toldIdle]

theorem State.toldIdle_fit {s : State} {p : Port} (hm : (s.unit p).monitor = .up) (dt : Nat) :
    ((s.toldIdle dt p).unit p).fit = true := by
  rw [State.toldIdle, State.unit_modUnit, State.unit_elapse, PortUnit.fit_iff]
  exact ⟨hm, rfl⟩

theorem State.toldIdle_getsFlag (s : State) (dt : Nat) (p : Port) : (s.toldIdle dt p).getsFlag p ↔ s.getsFlag p := by
  rw [State.getsFlag, State.toldIdle, State.unit_modUnit, State.unit_elapse, State.modUnit_mgmt]
  rfl

theorem State.toldIdle_ringed (s : State) (dt : Nat) (p : Port) :
    (s.toldIdle dt p).ringed = { s.toldIdle dt p with att := { s.att with ring := true } } := by
  rw [State.ringed, State.toldIdle, State.modUnit_att]
  rfl

/-! ### Line fill (R138) -/

theorem PortUnit.lineFill_down {u : PortUnit} (h : u.monitor = .down) :
    u.lineFill = if u.lock = false ∨ u.cause = .errors ∧ u.hold ≠ none then .fault else .wait := by
  simp only [PortUnit.lineFill, h, Option.isSome_iff_ne_none]

/-! ### The end of qualification (R136, R139, R142) -/

/-- The unit of a port whose monitor becomes UP. -/
def PortUnit.risen (u : PortUnit) : PortUnit := { u with monitor := .up, window := [], qual := none }

section
variable {s : State} {p : Port}

theorem State.enterUp_eq (s : State) (p : Port) : s.enterUp p = (s.modUnit p PortUnit.risen).ringChange.refit p := rfl

theorem State.risen_unit (s : State) (p : Port) : (s.modUnit p PortUnit.risen).ringChange.unit p = (s.unit p).risen := by
  rw [State.ringChange_unit, State.unit_modUnit]

theorem State.risen_fit (h : (s.unit p).farEnd = some .idle) :
    ((s.modUnit p PortUnit.risen).ringChange.unit p).fit = true := by
  rw [State.risen_unit, PortUnit.fit_iff]
  exact ⟨rfl, h⟩

/-- To become UP moves nothing that the return-ready flag depends on. -/
theorem State.risen_getsFlag (s : State) (p : Port) : (s.modUnit p PortUnit.risen).ringChange.getsFlag p ↔ s.getsFlag p := by
  rw [State.getsFlag, State.risen_unit, State.ringChange_mgmt, State.modUnit_mgmt]
  rfl

theorem State.enterUp_unfit (h : (s.unit p).farEnd ≠ some .idle) :
    s.enterUp p = (s.ringed.modUnit p fun u => u.risen.unready).raise .ringChange := by
  have hunfit : ((s.modUnit p PortUnit.risen).ringChange.unit p).fit = false := by
    rw [State.risen_unit]
    exact PortUnit.fit_of_farEnd h
  rw [State.enterUp_eq, State.refit_unfit hunfit, State.ringChange_modUnit]
  cases p <;> rfl

theorem State.enterUp_kept (h : (s.unit p).farEnd = some .idle) (hkept : ¬s.getsFlag p) :
    s.enterUp p = (s.ringed.modUnit p PortUnit.risen).raise .ringChange := by
  rw [State.enterUp_eq, State.refit_kept (State.risen_fit h) (mt (s.risen_getsFlag p).mp hkept), State.modUnit_ringChange]

theorem State.enterUp_flagged (h : (s.unit p).farEnd = some .idle) (hflag : s.getsFlag p) :
    s.enterUp p =
      ((s.ringed.modUnit p fun u => { u.risen with returnReady := true }).raise .ringChange).raise .ringChange := by
  rw [State.enterUp_eq, State.refit_flagged (State.risen_fit h) ((s.risen_getsFlag p).mpr hflag),
    State.ringChange_modUnit_ringChange]
  cases p <;> rfl

end

/-- The tap at the end of the qualification that began at `d`, `dt` after `s` (R136; log 1). -/
def State.qualifiedAt (s : State) (dt d : Nat) : State :=
  { s with now := max (s.now + dt) (d + 1000 * s.mgmt.active.params.qualification.toNat) }

theorem State.qualifiedAt_unit (s : State) (dt d : Nat) (p : Port) : (s.qualifiedAt dt d).unit p = s.unit p := by
  cases p <;> rfl

theorem State.qualifiedAt_getsFlag (s : State) (dt d : Nat) (p : Port) : (s.qualifiedAt dt d).getsFlag p ↔ s.getsFlag p := by
  rw [State.getsFlag, State.qualifiedAt_unit]
  rfl

/-- The end of qualification: the monitor becomes UP no earlier than its time. -/
theorem exec_qualificationComplete_ends {s : State} {p : Port} {d : Nat} (hb : s.ctl.tapState ≠ .bypass)
    (hm : (s.unit p).monitor = .qualifying) (hq : (s.unit p).qual = some d) (dt : Nat) :
    exec (.qualificationComplete dt p) s = .next ((s.qualifiedAt dt d).enterUp p) := by
  have htime : (s.elapse dt).qualificationTime = 1000 * s.mgmt.active.params.qualification.toNat := Nat.mul_comm _ _
  rw [exec_qualificationComplete hb]
  simp only [State.qualificationComplete, State.unit_elapse, hm, hq, htime]
  rfl

/-! ### Return to service (R141) -/

theorem PortUnit.inTransit_none {u : PortUnit} (ha : u.arriving = none) (he : u.elastic = []) : u.inTransit = false := by
  simp only [PortUnit.inTransit, ha, he, List.isEmpty_nil, Bool.not_true, Bool.or_false]

/-- A train gap: no train record, and nothing in transit at either port. -/
theorem State.trainGap_of {s : State} (hr : s.trk.record = .idle) (h : ∀ q, (s.unit q).arriving = none ∧ (s.unit q).elastic = []) :
    s.trainGap = true := by
  have hw : s.portW.inTransit = false := PortUnit.inTransit_none (h .w).1 (h .w).2
  have he : s.portE.inTransit = false := PortUnit.inTransit_none (h .e).1 (h .e).2
  simp only [State.trainGap, hr, hw, he, decide_true, Bool.not_false, Bool.and_true]

theorem State.dueToReturn_of {s : State} {p : Port} (hfit : (s.unit p).fit = true) (hout : (s.unit p).inService = false)
    (hmay : s.mgmt.active.params.returnPolicy = .auto ∨ (s.unit p).returnAccepted = true) : s.dueToReturn p = true := by
  obtain hauto | haccepted := hmay
  · simp only [State.dueToReturn, hfit, hout, hauto, decide_true, Bool.true_or, Bool.not_false, Bool.and_true]
  · simp only [State.dueToReturn, hfit, hout, haccepted, Bool.or_true, Bool.not_false, Bool.and_true]

/-- A port that is due returns at a train gap, outside BYPASS. -/
theorem exec_returnToService {s : State} {p : Port} (hb : s.ctl.tapState ≠ .bypass) (hdue : s.dueToReturn p = true)
    (hgap : s.trainGap = true) (dt : Nat) : exec (.returnToService dt p) s = .next ((s.elapse dt).returnService p) := by
  have hdue : (s.elapse dt).dueToReturn p = true := by
    rw [← hdue, State.dueToReturn, State.unit_elapse]
    rfl
  have hheeded : (!(s.elapse dt).inBypass && (s.elapse dt).dueToReturn p && (s.elapse dt).trainGap) = true := by
    rw [State.inBypass_eq_false (s := s.elapse dt) hb, hdue]
    exact hgap
  exact congrArg Host.Outcome.next (if_pos hheeded)

/-! ### The statement -/

/-- Settles O39: the condition of DOWN to QUALIFYING, the cases of the line fill, the cases of the return-ready flag, and a due return. -/
theorem qualificationAndReturn : Obligations.QualificationAndReturn := by
  refine ⟨⟨⟨fun dt p s hb hm hhold hfar => ?_, fun dt d p s hb hm hhold hlock hfar => ?_, fun dt d p s hb hhold hlock => ?_,
    fun dt p sig s hb hm hhold hlock hsig => ?_⟩, fun u => ⟨fun hm => ?_, fun hm => ?_, fun hm => ⟨fun hlock => ?_,
      fun herrors hhold => ?_, fun hlock hover => ?_⟩⟩⟩, fun dt d p s hb hm hq => ⟨fun hunfit => ?_, fun hfit hkept => ?_, ?_⟩,
    fun dt p s hb hm hlock => ⟨fun hflag => ?_, fun hkept => ?_⟩, fun dt p s hb hm hfar hout hmay hr hclear => ?_⟩
  · rw [exec_lockGained hb, State.lockGained,
      State.tryQualify_begins (by simpa using hm) (by simp) (by simpa using hhold) (by simpa using hfar), State.modUnit_modUnit,
      State.modUnit_now]
    rfl
  · rw [exec_downHoldExpiry hb, State.downHoldExpiry_running (by simpa using hhold),
      State.tryQualify_begins (by simpa using hm) (by simpa using hlock) (by simp) (by simpa using hfar), State.modUnit_modUnit,
      State.modUnit_now]
    rfl
  · rw [exec_downHoldExpiry hb, State.downHoldExpiry_running (by simpa using hhold),
      State.tryQualify_unlocked (by simpa using hlock)]
  · rw [exec_farEndRecognised hb dt p hlock, if_neg hsig,
      State.tryQualify_begins (by simpa using hm) (by simpa using hlock) (by simpa using hhold) (by simpa using hsig),
      State.refit_unfit (PortUnit.fit_of_notUp (by simp)), State.modUnit_modUnit, State.modUnit_modUnit, State.modUnit_now]
    rfl
  · simp only [PortUnit.lineFill, hm]
  · simp only [PortUnit.lineFill, hm]
  · rw [PortUnit.lineFill_down hm, if_pos (.inl hlock)]
  · rw [PortUnit.lineFill_down hm, if_pos (.inr ⟨herrors, hhold⟩)]
  · rw [PortUnit.lineFill_down hm, if_neg]
    rintro (hlost | ⟨herrors, hhold⟩)
    · exact Bool.false_ne_true (hlost.symm.trans hlock)
    · exact hover.elim (fun h => h herrors) hhold
  · rw [exec_qualificationComplete_ends hb hm hq, State.enterUp_unfit (by rwa [State.qualifiedAt_unit])]
    rfl
  · have hkept : ¬(s.qualifiedAt dt d).getsFlag p := fun h => hkept ⟨hfit, (s.qualifiedAt_getsFlag dt d p).mp h⟩
    rw [exec_qualificationComplete_ends hb hm hq, State.enterUp_kept (by rwa [State.qualifiedAt_unit]) hkept]
    cases p <;> rfl
  · rintro ⟨hfit, hflag⟩
    rw [exec_qualificationComplete_ends hb hm hq,
      State.enterUp_flagged (by rwa [State.qualifiedAt_unit]) ((s.qualifiedAt_getsFlag dt d p).mpr hflag)]
    cases p <;> rfl
  · rw [exec_toldIdle hb hm hlock, State.refit_flagged (State.toldIdle_fit hm dt) ((s.toldIdle_getsFlag dt p).mpr hflag),
      State.modUnit_ringChange, State.toldIdle_ringed]
    rfl
  · rw [exec_toldIdle hb hm hlock, State.refit_kept (State.toldIdle_fit hm dt) (mt (s.toldIdle_getsFlag dt p).mp hkept)]
    rfl
  · have hdue : s.dueToReturn p = true := State.dueToReturn_of ((PortUnit.fit_iff _).mpr ⟨hm, hfar⟩) hout hmay
    rw [exec_returnToService hb hdue (State.trainGap_of hr hclear), State.returnService, State.modUnit_ringChange]
    rfl

end Sys2Proof.Machine
end


section
/-! PROOFS. A rising edge, of a source or on one channel (R153 to R156): what it leaves in each bank, at each pin and in the
stamp FIFO. -/

namespace Sys2Proof.Machine

/-! ### The stamp FIFO (R156) -/

/-- The pins that the edge reaches, with no record made. -/
def State.edgePins (s : State) (hit : Fin 21 → Bool) : Signals :=
  { s.sig with pins := Vector.ofFn fun k => if hit (trigUser k) then ⟨true, some s.now⟩ else s.sig.pins[k] }

/-- Where fewer than 4 records are held, the edge's joins them. -/
theorem State.edgeSignals_joins {s : State} {hit : Fin 21 → Bool} {c : Fin 12} (hc : s.follows stampUser = some c)
    (hhit : hit stampUser = true) (hroom : s.sig.stamps.length < 4) :
    s.edgeSignals hit = { s.edgePins hit with stamps := s.sig.stamps ++ [s.stampOf c] } := by
  simp only [State.edgeSignals, hc, hhit, if_true]
  exact if_pos hroom

/-- Where 4 are held, the edge's is dropped and the flag says so. -/
theorem State.edgeSignals_drops {s : State} {hit : Fin 21 → Bool} {c : Fin 12} (hc : s.follows stampUser = some c)
    (hhit : hit stampUser = true) (hfull : 4 ≤ s.sig.stamps.length) :
    s.edgeSignals hit = { s.edgePins hit with overflow := true } := by
  simp only [State.edgeSignals, hc, hhit, if_true]
  exact if_neg (Nat.not_lt.mpr hfull)

theorem State.edgeSignals_unstamped {s : State} {hit : Fin 21 → Bool} (hmiss : hit stampUser = false) :
    s.edgeSignals hit = s.edgePins hit := by
  cases hc : s.follows stampUser with
  | none => simp only [State.edgeSignals, hc]; rfl
  | some c => simp only [State.edgeSignals, hc, hmiss]; rfl

/-! ### The users -/

/-- A user's effect, by whether the edge reaches it. -/
theorem ite_of_hit {α : Type} {hit : Bool} {reached : Prop} (h : hit = true ↔ reached) (acts rests : α) :
    (reached → (if hit = true then acts else rests) = acts) ∧ (¬reached → (if hit = true then acts else rests) = rests) :=
  ⟨fun hr => if_pos (h.mpr hr), fun hr => if_neg (mt h.mp hr)⟩

theorem State.fire_edgeOnly (s : State) (hit : Fin 21 → Bool) : EdgeOnly s (s.fire hit) := rfl

theorem State.fire_pub (s : State) (hit : Fin 21 → Bool) (p : Fin 4) :
    (s.fire hit).pub[p] = if hit (postUser p) = true then { s.pub[p] with posted := true } else s.pub[p] := ofFn_get _ p

theorem State.fire_rx (s : State) (hit : Fin 21 → Bool) (b : Fin 8) :
    (s.fire hit).rx[b] = if hit (takeUser b) = true then s.rx[b].requestTake (s.readBurst b) else s.rx[b] := ofFn_get _ b

theorem State.fire_sig (s : State) (hit : Fin 21 → Bool) : (s.fire hit).sig = s.edgeSignals hit := rfl

theorem State.fire_pin (s : State) (hit : Fin 21 → Bool) (k : Fin 8) :
    (s.fire hit).sig.pins[k] = if hit (trigUser k) = true then ⟨true, some s.now⟩ else s.sig.pins[k] := by
  rw [State.fire_sig, State.edgeSignals_pins]
  exact ofFn_get _ k

/-- A user acts at an edge on one channel exactly where it follows that channel. -/
theorem State.edgeOn_hits (s : State) (c : Fin 12) (u : Fin 21) :
    decide (s.follows u = some c) = true ↔ ∃ d : Fin 12, s.follows u = some d ∧ d = c := by
  simp

/-- Settles O40: both edges are `State.fire`, at the users that follow a channel the edge is on. -/
theorem risingEdgeReachesItsUsers : Obligations.RisingEdgeReachesItsUsers := by
  intro s edge
  have fires (on : Fin 12 → Prop) (hit : Fin 21 → Bool)
      (hhit : ∀ u, hit u = true ↔ ∃ c : Fin 12, s.follows u = some c ∧ on c) : edge on (s.fire hit) := by
    refine ⟨s.fire_edgeOnly hit, fun p => ?_, fun b => ?_, fun k => ?_, s.edgeSignals_trigIn hit, s.edgeSignals_pulses hit,
      s.edgeSignals_ref hit, fun hmiss => ?_, fun c hc hon hroom => ?_, fun hstamp hfull => ?_⟩
    · rw [State.fire_pub]
      exact ite_of_hit (hhit _) _ _
    · rw [State.fire_rx]
      exact ite_of_hit (hhit _) _ _
    · rw [State.fire_pin]
      exact ite_of_hit (hhit _) _ _
    · rw [State.fire_sig, State.edgeSignals_unstamped (Bool.eq_false_iff.mpr (mt (hhit _).mp hmiss))]
      exact ⟨rfl, rfl⟩
    · rw [State.fire_sig, State.edgeSignals_joins hc ((hhit _).mpr ⟨c, hc, hon⟩) hroom]
      exact ⟨rfl, rfl⟩
    · obtain ⟨c, hc, hon⟩ := hstamp
      rw [State.fire_sig, State.edgeSignals_drops hc ((hhit _).mpr ⟨c, hc, hon⟩) hfull]
      exact ⟨rfl, rfl⟩
  exact ⟨fun x => fires _ _ (s.bound_iff x), fun c => fires _ _ (s.edgeOn_hits c), s.bound_iff⟩

end Sys2Proof.Machine
end


section
/-! PROOFS. The status block (R163, 12.3): the fields of each of its words, and ATTN_N (R158). -/

namespace Sys2Proof.Machine

/-! ### Words made of flags -/

/-- The sum of flags, each with its weight, is the number whose bits they are. -/
theorem flagSum_eq_ofBits {n : Nat} (f : Fin n → Bool) :
    ((List.finRange n).map fun i => (f i).toNat * 2 ^ i.val).sum = Nat.ofBits f := by
  induction n with
  | zero => rfl
  | succ n ih =>
    have htail : ((List.finRange n).map fun i => (f i.succ).toNat * 2 ^ i.succ.val).sum = 2 * Nat.ofBits (f ∘ Fin.succ) := by
      rw [← ih, ← List.sum_map_mul_left]
      refine congrArg (fun g => (List.map g (List.finRange n)).sum) (funext fun i => ?_)
      rw [Fin.val_succ, Nat.pow_succ, Function.comp_apply]
      ring
    rw [List.finRange_succ, List.map_cons, List.map_map, List.sum_cons, Nat.ofBits_succ, ← htail]
    simp only [Fin.val_zero, Nat.pow_zero, Nat.mul_one, Nat.add_comm]
    rfl

/-- Flags one after the other from bit 0 on. -/
theorem pack_flags {n : Nat} (hn : n ≤ 16) (f : Fin n → Bool) (i : Fin n) :
    (pack ((List.finRange n).map fun i => (i.val, (f i).toNat))).getLsbD i.val = f i := by
  have hsum : ((List.finRange n).map fun i => (i.val, (f i).toNat)).foldl (fun a x => a + x.2 * 2 ^ x.1) 0 = Nat.ofBits f := by
    rw [List.foldl_map, ← flagSum_eq_ofBits, List.sum_eq_foldl, List.foldl_map]
  have hlt : Nat.ofBits f < 65536 := (Nat.ofBits_lt_two_pow f).trans_le (Nat.pow_le_pow_right (by decide) hn)
  rw [BitVec.getLsbD, pack_toNat hsum hlt, Nat.testBit_ofBits_lt f i.val i.isLt]

theorem flagBits_eq_ofBits (f : Fin 8 → Bool) : flagBits f = Nat.ofBits f := flagSum_eq_ofBits f

/-- Eight flags in each byte. -/
theorem pack_flagBytes (f g : Fin 8 → Bool) (k : Fin 8) :
    (pack [(0, flagBits f), (8, flagBits g)]).getLsbD k.val = f k ∧
      (pack [(0, flagBits f), (8, flagBits g)]).getLsbD (8 + k.val) = g k := by
  have hf : flagBits f < 2 ^ 8 := flagBits_eq_ofBits f ▸ Nat.ofBits_lt_two_pow f
  have hg : flagBits g < 2 ^ 8 := flagBits_eq_ofBits g ▸ Nat.ofBits_lt_two_pow g
  have hword : (pack [(0, flagBits f), (8, flagBits g)]).toNat = 2 ^ 8 * flagBits g + flagBits f :=
    pack_toNat (by simp; omega) (by omega)
  constructor
  · rw [BitVec.getLsbD, hword, Nat.testBit_two_pow_mul_add _ hf, if_pos k.isLt, flagBits_eq_ofBits,
      Nat.testBit_ofBits_lt f k.val k.isLt]
  · rw [BitVec.getLsbD, hword, Nat.testBit_two_pow_mul_add _ hf, if_neg (by omega), Nat.add_sub_cancel_left,
      flagBits_eq_ofBits, Nat.testBit_ofBits_lt g k.val k.isLt]

/-! ### Words made of bytes -/

theorem pack_bytes {a b : Nat} (ha : a < 256) (hb : b < 256) :
    (pack [(0, a), (8, b)]).extractLsb' 0 8 = BitVec.ofNat 8 a ∧ (pack [(0, a), (8, b)]).extractLsb' 8 8 = BitVec.ofNat 8 b := by
  have hword : (pack [(0, a), (8, b)]).toNat = a + b * 256 := pack_toNat (by simp) (by omega)
  constructor <;> apply extractLsb'_eq_ofNat <;> rw [hword] <;> omega

theorem extractLsb'_ofNat_byte {v k n x : Nat} (hv : v < 256) (h : v / 2 ^ k % 2 ^ n = x) :
    (BitVec.ofNat 8 v).extractLsb' k n = BitVec.ofNat n x := by
  apply BitVec.eq_of_toNat_eq
  rw [BitVec.extractLsb'_toNat, BitVec.toNat_ofNat, BitVec.toNat_ofNat, Nat.shiftRight_eq_div_pow, Nat.mod_eq_of_lt hv, h, ← h,
    Nat.mod_mod]

/-! ### The codes fit their fields (12.3) -/

theorem TapState.code_lt (x : TapState) : x.code < 8 := by cases x <;> decide

theorem WrapState.code_lt (x : WrapState) : x.code < 4 := by cases x <;> decide

theorem Monitor.code_lt (x : Monitor) : x.code < 4 := by cases x <;> decide

theorem DownCause.code_lt (x : DownCause) : x.code < 4 := by cases x <;> decide

theorem CycleState.code_lt (x : CycleState) : x.code < 4 := by cases x <;> decide

theorem RestartKind.code_lt (x : RestartKind) : x.code < 4 := by cases x <;> decide

theorem MailboxState.code_lt (x : MailboxState) : x.code < 4 := by cases x <;> simp only [MailboxState.code] <;> decide

theorem MsgOutcome.code_lt (x : MsgOutcome) : x.code < 8 := by cases x <;> decide

theorem MailboxState.outcomeCode_lt (x : MailboxState) : x.outcomeCode < 8 := by
  cases x with
  | done o f => exact o.code_lt
  | _ => exact Nat.zero_lt_succ 7

/-! ### The tap, its ports, the tracker and the restart (words 0 to 9) -/

theorem State.statusWord_tap (s : State) :
    (s.statusWord 0).extractLsb' 0 3 = BitVec.ofNat 3 s.ctl.tapState.code ∧ (s.statusWord 0).getLsbD 8 = s.ctl.commandCause ∧
      (s.statusWord 0).getLsbD 9 = s.ctl.pinCause := by
  have hstate := s.ctl.tapState.code_lt
  have hcommand := s.ctl.commandCause.toNat_lt
  have hpin := s.ctl.pinCause.toNat_lt
  have hword : (s.statusWord 0).toNat = s.ctl.tapState.code + s.ctl.commandCause.toNat * 256 + s.ctl.pinCause.toNat * 512 :=
    pack_toNat (by simp) (by omega)
  refine ⟨extractLsb'_eq_ofNat ?_, getLsbD_eq_flag ?_, getLsbD_eq_flag ?_⟩ <;> rw [hword] <;> omega

theorem State.statusWord_ports (s : State) :
    (s.statusWord 1).extractLsb' 0 2 = BitVec.ofNat 2 s.wrapState.code ∧ (s.statusWord 1).getLsbD 2 = s.portW.inService ∧
      (s.statusWord 1).getLsbD 3 = s.portE.inService ∧ (s.statusWord 1).getLsbD 4 = s.portW.returnReady ∧
      (s.statusWord 1).getLsbD 5 = s.portE.returnReady ∧
      (s.statusWord 1).extractLsb' 8 2 = BitVec.ofNat 2 s.portW.monitor.code ∧
      (s.statusWord 1).extractLsb' 10 2 = BitVec.ofNat 2 s.portE.monitor.code ∧
      (s.statusWord 1).extractLsb' 12 2 = BitVec.ofNat 2 s.portW.cause.code ∧
      (s.statusWord 1).extractLsb' 14 2 = BitVec.ofNat 2 s.portE.cause.code := by
  have hwrap := s.wrapState.code_lt
  have hserviceW := s.portW.inService.toNat_lt
  have hserviceE := s.portE.inService.toNat_lt
  have hreadyW := s.portW.returnReady.toNat_lt
  have hreadyE := s.portE.returnReady.toNat_lt
  have hmonitorW := s.portW.monitor.code_lt
  have hmonitorE := s.portE.monitor.code_lt
  have hcauseW := s.portW.cause.code_lt
  have hcauseE := s.portE.cause.code_lt
  have hword : (s.statusWord 1).toNat =
      s.wrapState.code + s.portW.inService.toNat * 4 + s.portE.inService.toNat * 8 + s.portW.returnReady.toNat * 16 +
        s.portE.returnReady.toNat * 32 + s.portW.monitor.code * 256 + s.portE.monitor.code * 1024 + s.portW.cause.code * 4096 +
        s.portE.cause.code * 16384 := pack_toNat (by simp) (by omega)
  refine ⟨extractLsb'_eq_ofNat ?_, getLsbD_eq_flag ?_, getLsbD_eq_flag ?_, getLsbD_eq_flag ?_, getLsbD_eq_flag ?_,
    extractLsb'_eq_ofNat ?_, extractLsb'_eq_ofNat ?_, extractLsb'_eq_ofNat ?_, extractLsb'_eq_ofNat ?_⟩ <;> rw [hword] <;> omega

theorem State.statusWord_cycleState (s : State) :
    (s.statusWord 2).extractLsb' 0 2 = BitVec.ofNat 2 s.trk.cycleState.code ∧ (s.statusWord 2).getLsbD 15 = s.trk.valid := by
  have hstate := s.trk.cycleState.code_lt
  have hvalid := s.trk.valid.toNat_lt
  have hword : (s.statusWord 2).toNat = s.trk.cycleState.code + s.trk.valid.toNat * 32768 := pack_toNat (by simp) (by omega)
  refine ⟨extractLsb'_eq_ofNat ?_, getLsbD_eq_flag ?_⟩ <;> rw [hword] <;> omega

/-- The interval record (R25), zero where there is none. -/
theorem State.statusWords_interval (s : State) :
    (s.trk.interval = none → s.statusWord 5 = 0 ∧ s.statusWord 6 = 0 ∧ s.statusWord 7 = 0) ∧
      ∀ r, s.trk.interval = some r → s.statusWord 5 = r.last ∧ s.statusWord 6 = r.minimum ∧ s.statusWord 7 = r.maximum := by
  have hwords : s.statusWord 5 = s.intervalWord Interval.last ∧ s.statusWord 6 = s.intervalWord Interval.minimum ∧
      s.statusWord 7 = s.intervalWord Interval.maximum := ⟨rfl, rfl, rfl⟩
  obtain ⟨hlast, hminimum, hmaximum⟩ := hwords
  rw [hlast, hminimum, hmaximum]
  unfold State.intervalWord
  exact ⟨fun h => by rw [h]; exact ⟨rfl, rfl, rfl⟩, fun r h => by rw [h]; exact ⟨rfl, rfl, rfl⟩⟩

theorem State.statusWord_restart (s : State) :
    (s.statusWord 8).extractLsb' 0 6 = s.rst.station ∧ (s.statusWord 8).extractLsb' 8 2 = BitVec.ofNat 2 s.rst.cause.code ∧
      (s.statusWord 8).getLsbD 15 = s.rst.strapInvalid := by
  have hstation := s.rst.station.isLt
  have hcause := s.rst.cause.code_lt
  have hstrap := s.rst.strapInvalid.toNat_lt
  have hword : (s.statusWord 8).toNat = s.rst.station.toNat + s.rst.cause.code * 256 + s.rst.strapInvalid.toNat * 32768 :=
    pack_toNat (by simp) (by omega)
  refine ⟨?_, extractLsb'_eq_ofNat ?_, getLsbD_eq_flag ?_⟩
  · rw [extractLsb'_eq_ofNat (v := s.rst.station.toNat) (by rw [hword]; omega), BitVec.ofNat_toNat, BitVec.setWidth_eq]
  · rw [hword]
    omega
  · rw [hword]
    omega

/-! ### The activation record and the upstream neighbour (words 11 to 15) -/

/-- The activation record, zero where there is none. -/
theorem State.statusWords_activation (s : State) :
    (s.mgmt.activation = none → s.statusWord 11 = 0 ∧ s.statusWord 12 = 0 ∧ s.statusWord 13 = 0 ∧ s.statusWord 14 = 0) ∧
      ∀ x, s.mgmt.activation = some x →
        s.statusWord 11 = 0x8000#16 ∧ s.statusWord 12 = x.setId ∧ s.statusWord 13 ++ s.statusWord 14 = x.cycle := by
  have hwords : s.statusWord 11 = pack [(15, s.mgmt.activation.isSome.toNat)] ∧ s.statusWord 12 = s.activationId ∧
      s.statusWord 13 = highWord s.activationCycle ∧ s.statusWord 14 = lowWord s.activationCycle := ⟨rfl, rfl, rfl, rfl⟩
  obtain ⟨hsome, hid, hhigh, hlow⟩ := hwords
  rw [hsome, hid, hhigh, hlow, highWord_append_lowWord]
  unfold State.activationId State.activationCycle
  refine ⟨fun h => ?_, fun x h => ?_⟩
  · rw [h]
    decide
  · rw [h, Option.isSome_some]
    exact ⟨by decide, rfl, rfl⟩

theorem State.upstreamNumber_none {s : State} (h : s.roll.upstream = none) : s.upstreamNumber = 0 := by
  rw [State.upstreamNumber, h]

theorem State.upstreamNumber_some {s : State} {x : Station} (h : s.roll.upstream = some x) : s.upstreamNumber = x.toNat := by
  rw [State.upstreamNumber, h]

/-- The upstream neighbour's number and whether there is one (R129). -/
theorem State.statusWord_upstream (s : State) :
    (s.roll.upstream = none → s.statusWord 15 = 0) ∧
      ∀ x, s.roll.upstream = some x → (s.statusWord 15).extractLsb' 0 6 = x ∧ (s.statusWord 15).getLsbD 15 = true := by
  have hword : s.statusWord 15 = pack [(0, s.upstreamNumber), (15, s.roll.upstream.isSome.toNat)] := rfl
  rw [hword]
  refine ⟨fun h => ?_, fun x h => ?_⟩
  · rw [State.upstreamNumber_none h, h]
    decide
  · rw [State.upstreamNumber_some h, h, Option.isSome_some]
    have hnumber := x.isLt
    have hvalue : (pack [(0, x.toNat), (15, true.toNat)]).toNat = x.toNat + 32768 := pack_toNat (by simp) (by omega)
    constructor
    · rw [extractLsb'_eq_ofNat (v := x.toNat) (by rw [hvalue]; omega), BitVec.ofNat_toNat, BitVec.setWidth_eq]
    · exact getLsbD_eq_flag (by rw [hvalue, Bool.toNat_true]; omega)

/-! ### Banks, mailboxes and pins (words 16 to 38) -/

/-- FRONT's stamp in two words (log 35). -/
theorem State.statusWord_frontStamp (s : State) (b : Fin 8) :
    s.statusWord (17 + 2 * b.val) ++ s.statusWord (18 + 2 * b.val) = s.rx[b].frontStamp := by
  have hwords : s.statusWord (17 + 2 * b.val) = highWord s.rx[b].frontStamp ∧
      s.statusWord (18 + 2 * b.val) = lowWord s.rx[b].frontStamp := by
    fin_cases b <;> exact ⟨rfl, rfl⟩
  obtain ⟨hhigh, hlow⟩ := hwords
  rw [hhigh, hlow, highWord_append_lowWord]

theorem State.statusWord_posted (s : State) (p : Fin 4) : (s.statusWord 33).getLsbD p.val = s.pub[p].posted :=
  pack_flags (by decide) (fun q : Fin 4 => s.pub[q].posted) p

/-- Two mailboxes in a word, the even one in the low byte. -/
theorem State.statusWord_mailboxes (s : State) (j : Fin 4) :
    s.statusWord (34 + j.val) =
      pack [(0, s.sched.mailboxes[2 * j.val].stateByte), (8, s.sched.mailboxes[2 * j.val + 1].stateByte)] := by
  fin_cases j <;> rfl

/-- The byte of a mailbox, whichever half of its word it is in. -/
theorem State.statusWord_mailbox (s : State) (m : Fin 8) :
    (s.statusWord (34 + m.val / 2)).extractLsb' (8 * (m.val % 2)) 8 = BitVec.ofNat 8 s.sched.mailboxes[m].stateByte := by
  have hword := s.statusWord_mailboxes ⟨m.val / 2, by omega⟩
  obtain ⟨heven, hodd⟩ := pack_bytes s.sched.mailboxes[2 * (m.val / 2)].stateByte_lt
    s.sched.mailboxes[2 * (m.val / 2) + 1].stateByte_lt
  rw [hword]
  obtain hm | hm := Nat.mod_two_eq_zero_or_one m.val
  · have hindex : 2 * (m.val / 2) = m.val := by omega
    simp only [hm, hindex] at heven ⊢
    exact heven
  · have hindex : 2 * (m.val / 2) + 1 = m.val := by omega
    simp only [hm, hindex] at hodd ⊢
    exact hodd

theorem Mailbox.stateByte_fields (x : Mailbox) :
    (BitVec.ofNat 8 x.stateByte).extractLsb' 0 2 = BitVec.ofNat 2 x.state.code ∧
      (BitVec.ofNat 8 x.stateByte).extractLsb' 4 3 = BitVec.ofNat 3 x.state.outcomeCode := by
  have hcode := x.state.code_lt
  have houtcome := x.state.outcomeCode_lt
  have hbyte : x.stateByte = x.state.code + 16 * x.state.outcomeCode := rfl
  constructor <;> refine extractLsb'_ofNat_byte x.stateByte_lt ?_ <;> rw [hbyte] <;> omega

/-! ### Attention (words 39 and 40, R158) -/

/-- The causes, each at its bit (12.3). -/
def State.cause (s : State) : Fin 11 → Bool :=
  ![s.inboundCause, s.outcomeCause, s.bankReadyCause, s.stampCause, s.att.stale, s.att.ring, s.att.tables, s.att.state,
    s.att.cycle, s.att.restart, s.att.localError]

theorem State.pendingCauses_bit (s : State) (i : Fin 11) : s.pendingCauses.getLsbD i.val = s.cause i :=
  pack_flags (by decide) s.cause i

theorem State.outcomeCause_iff (s : State) :
    s.outcomeCause = true ↔
      ∃ (m : Fin 8) (o : MsgOutcome) (r : Option Flight), s.sched.mailboxes[m].state = .done o r := by
  simp only [State.outcomeCause, Vector.any_toList, Vector.any_eq_true, Mailbox.isDone_iff, Fin.exists_iff]
  rfl

theorem State.bankReadyCause_iff (s : State) : s.bankReadyCause = true ↔ ∃ b : Fin 8, s.rx[b].readyNew = true := by
  simp only [State.bankReadyCause, Vector.any_toList, Vector.any_eq_true, Fin.exists_iff]
  rfl

/-- The mask word is the mask, and reads 0 above it. -/
theorem State.maskWord_bit (s : State) (i : Nat) : s.maskWord.getLsbD i = s.att.mask.getLsbD i := by
  rw [State.maskWord, BitVec.getLsbD_setWidth]
  by_cases h : i < 16
  · rw [decide_eq_true h, Bool.true_and]
  · rw [decide_eq_false h, Bool.false_and, BitVec.getLsbD_of_ge _ _ (by omega)]

/-- Two words meet exactly where some bit is set in both. -/
theorem and_ne_zero_iff (x y : Word) : x &&& y ≠ 0#16 ↔ ∃ i, x.getLsbD i = true ∧ y.getLsbD i = true := by
  constructor
  · intro hne
    by_contra hnone
    refine hne (BitVec.eq_of_getLsbD_eq fun i _ => ?_)
    rw [BitVec.getLsbD_and, BitVec.getLsbD_zero, Bool.and_eq_false_iff, ← Bool.not_eq_true, ← Bool.not_eq_true, ← not_and_or]
    exact fun h => hnone ⟨i, h⟩
  · rintro ⟨i, hx, hy⟩ hzero
    have hbit : (x &&& y).getLsbD i = true := by rw [BitVec.getLsbD_and, hx, hy, Bool.and_self]
    rw [hzero, BitVec.getLsbD_zero] at hbit
    exact Bool.false_ne_true hbit

/-- R158: ATTN_N is asserted while a cause is both pending and enabled; the mask's eleven bits bound which. -/
theorem State.attnAsserted_iff (s : State) :
    s.attnAsserted = true ↔ ∃ i : Nat, i < 11 ∧ s.pendingCauses.getLsbD i = true ∧ s.att.mask.getLsbD i = true := by
  refine (decide_eq_true_iff.trans (and_ne_zero_iff _ _)).trans (exists_congr fun i => ?_)
  rw [State.maskWord_bit]
  exact ⟨fun h => ⟨BitVec.lt_of_getLsbD h.2, h⟩, And.right⟩

/-! ### The statement -/

/-- Settles O49, word by word of the block. -/
theorem statusBlockShowsTheState : Obligations.StatusBlockShowsTheState := by
  intro s word
  have hword (i : Nat) (h : i < 256) : word i = s.statusWord i := s.lspRead_status i h
  refine ⟨?_, ?_, ?_, ?_, ?_, ⟨fun b => ⟨?_, ?_, ?_⟩, fun p => ?_⟩, fun m => ?_, fun k => ?_, ?_, ⟨fun i _ => ?_, fun i hi => ?_, ?_⟩,
    fun i hi => ?_⟩
  · rw [hword 0 (by decide), hword 1 (by decide)]
    obtain ⟨hstate, hcommand, hpin⟩ := s.statusWord_tap
    exact ⟨hstate, hcommand, hpin, s.statusWord_ports⟩
  · rw [hword 2 (by decide), hword 3 (by decide), hword 4 (by decide), hword 5 (by decide), hword 6 (by decide),
      hword 7 (by decide)]
    obtain ⟨hstate, hvalid⟩ := s.statusWord_cycleState
    exact ⟨hstate, hvalid, highWord_append_lowWord s.trk.lastCycle, s.statusWords_interval⟩
  · rw [hword 8 (by decide), hword 9 (by decide)]
    obtain ⟨hstation, hcause, hstrap⟩ := s.statusWord_restart
    exact ⟨hstation, hcause, hstrap, rfl⟩
  · rw [hword 10 (by decide), hword 11 (by decide), hword 12 (by decide), hword 13 (by decide), hword 14 (by decide)]
    exact ⟨rfl, s.statusWords_activation⟩
  · rw [hword 15 (by decide)]
    exact s.statusWord_upstream
  · rw [hword 16 (by decide)]
    exact (pack_flagBytes _ _ b).1
  · rw [hword 16 (by decide)]
    exact (pack_flagBytes _ _ b).2
  · rw [hword _ (by omega), hword _ (by omega)]
    exact s.statusWord_frontStamp b
  · rw [hword 33 (by decide)]
    exact s.statusWord_posted p
  · rw [hword _ (by omega), s.statusWord_mailbox m]
    exact Mailbox.stateByte_fields _
  · rw [hword 38 (by decide)]
    exact pack_flagBytes s.pinIsOutput s.pinLevel k
  · have hcauses : word 39 = s.pendingCauses := hword 39 (by decide)
    rw [hcauses]
    have hbit := s.pendingCauses_bit
    exact ⟨hbit 0, (Bool.eq_iff_iff.mp (hbit 1)).trans s.outcomeCause_iff,
      (Bool.eq_iff_iff.mp (hbit 2)).trans s.bankReadyCause_iff, hbit 3, hbit 4, hbit 5, hbit 6, hbit 7, hbit 8, hbit 9, hbit 10⟩
  · rw [hword 40 (by decide)]
    exact s.maskWord_bit i
  · rw [hword 40 (by decide)]
    exact (s.maskWord_bit i).trans (BitVec.getLsbD_of_ge _ _ hi)
  · rw [hword 39 (by decide)]
    exact s.attnAsserted_iff
  · rw [hword _ (by omega)]
    exact s.statusWord_beyond _ hi

end Sys2Proof.Machine
end


section
/-! PROOFS. How a burst moves through the map and which transactions are bursts (R161, R63, R68), and how a transaction of the local
port opens, serves its words and ends (R161, R163, R170). -/

namespace Sys2Proof.Machine

/-! ### The windows of the banks (12.3) -/

/-- An address of a receive window, by its bank and word. -/
theorem region_of_rxWindow {a : Word} (h : 0x1000 ≤ a.toNat ∧ a.toNat < 0x1400) :
    ∃ (b : Fin 8) (w : Fin 128), region a = .rxWindow b w ∧ w.val = a.toNat % 128 := by
  have hregion := region_rx ⟨(a.toNat - 0x1000) / 128, by omega⟩ ⟨a.toNat % 128, by omega⟩
  have haddress : 0x1000 + 128 * ((a.toNat - 0x1000) / 128) + a.toNat % 128 = a.toNat := by omega
  rw [haddress, BitVec.ofNat_toNat, BitVec.setWidth_eq] at hregion
  exact ⟨_, _, hregion, rfl⟩

/-- An address of a publish window, by its bank and word. -/
theorem region_of_pubWindow {a : Word} (h : 0x2000 ≤ a.toNat ∧ a.toNat < 0x2200) :
    ∃ (p : Fin 4) (w : Fin 128), region a = .pubWindow p w ∧ w.val = a.toNat % 128 := by
  have hregion := region_pub ⟨(a.toNat - 0x2000) / 128, by omega⟩ ⟨a.toNat % 128, by omega⟩
  have haddress : 0x2000 + 128 * ((a.toNat - 0x2000) / 128) + a.toNat % 128 = a.toNat := by omega
  rw [pubAddress, haddress, BitVec.ofNat_toNat, BitVec.setWidth_eq] at hregion
  exact ⟨_, _, hregion, rfl⟩

/-- Within a window the address wraps past the bank's word 127 (R63, R68). -/
theorem nextAddress_inWindow {a : Word}
    (h : 0x1000 ≤ a.toNat ∧ a.toNat < 0x1400 ∨ 0x2000 ≤ a.toNat ∧ a.toNat < 0x2200) :
    nextAddress a = if a.toNat % 128 = 127 then a - 127 else a + 1 := by
  rcases h with hrx | hpub
  · obtain ⟨b, w, hregion, hw⟩ := region_of_rxWindow hrx
    rw [nextAddress, hregion, ← hw]
  · obtain ⟨p, w, hregion, hw⟩ := region_of_pubWindow hpub
    rw [nextAddress, hregion, ← hw]

/-! ### Which first addresses make a burst (R161) -/

theorem readBurstOf_rxWindow {a : Word} {b : Fin 8} {w : Fin 128} (h : region a = .rxWindow b w) :
    readBurstOf a = some (.read b) := by
  rw [readBurstOf, h]

theorem writeBurstOf_pubWindow {a : Word} {p : Fin 4} {w : Fin 128} (h : region a = .pubWindow p w) :
    writeBurstOf a = some (.write p) := by
  rw [writeBurstOf, h]

/-- A publish window is no receive window: a READ that begins there is no burst. -/
theorem readBurstOf_outside {a : Word} (h : a.toNat < 0x1000 ∨ 0x1400 ≤ a.toNat) : readBurstOf a = none := by
  by_cases hpub : 0x2000 ≤ a.toNat ∧ a.toNat < 0x2200
  · obtain ⟨p, w, hregion, -⟩ := region_of_pubWindow hpub
    rw [readBurstOf, hregion]
  · obtain ⟨hread, -, -⟩ := nextAddress_elsewhere a (by omega)
    exact hread

/-- A receive window is no publish window: a WRITE that begins there is no burst. -/
theorem writeBurstOf_outside {a : Word} (h : a.toNat < 0x2000 ∨ 0x2200 ≤ a.toNat) : writeBurstOf a = none := by
  by_cases hrx : 0x1000 ≤ a.toNat ∧ a.toNat < 0x1400
  · obtain ⟨b, w, hregion, -⟩ := region_of_rxWindow hrx
    rw [writeBurstOf, hregion]
  · obtain ⟨-, hwrite, -⟩ := nextAddress_elsewhere a (by omega)
    exact hwrite

/-- Settles O46: an address lies in a window or elsewhere, and each has its rule of moving on. -/
theorem burstsMoveThroughTheMap : Obligations.BurstsMoveThroughTheMap := by
  refine ⟨fun a => ?_, fun s a n => ⟨rfl, rfl, rfl, rfl⟩, fun b w => readBurstOf_rxWindow (region_rx b w),
    fun q w => writeBurstOf_pubWindow (region_pub q w), fun a => ⟨readBurstOf_outside, writeBurstOf_outside⟩⟩
  intro window
  refine ⟨fun hwindow hlast => ?_, fun haction => ?_, fun hinside haction => ?_⟩
  · rw [nextAddress_inWindow hwindow, if_pos hlast]
    have hword : 127 ≤ a.toNat := by omega
    exact BitVec.toNat_sub_of_le hword
  · obtain ⟨-, -, hnext⟩ := nextAddress_elsewhere a (by omega)
    rw [hnext, if_pos haction]
  · by_cases hwindow : window
    · rw [nextAddress_inWindow hwindow, if_neg fun hlast => hinside ⟨hwindow, hlast⟩]
    · obtain ⟨-, -, hnext⟩ := nextAddress_elsewhere a hwindow
      rw [hnext, if_neg haction]

/-! ### A transaction ends (R63, R161) -/

theorem State.endTransaction_none {s : State} (h : s.lsp.txn = none) : s.endTransaction = s := by
  rw [State.endTransaction, h]

/-- The end of a read burst performs the take that it deferred (R63). -/
theorem State.endTransaction_readBurst {s : State} {x : Txn} {b : Fin 8} (hx : s.lsp.txn = some x)
    (hburst : x.burst = some (.read b)) :
    s.endTransaction = { s with lsp := { s.lsp with txn := none }, rx := upd s.rx b s.rx[b].endBurst } := by
  rw [State.endTransaction, hx]
  dsimp only
  rw [hburst]

/-- The end of any other transaction leaves the banks alone. -/
theorem State.endTransaction_noReadBurst {s : State} {x : Txn} {w : Option (Fin 4)} (hx : s.lsp.txn = some x)
    (hburst : x.burst = w.map Burst.write) : s.endTransaction = { s with lsp := { s.lsp with txn := none } } := by
  rw [State.endTransaction, hx]
  dsimp only
  rw [hburst]
  cases w with
  | none => rfl
  | some q => rfl

/-! ### A transaction opens (R161, R170) -/

/-- While a cause lasts, whatever the command byte, nothing is served and nothing is an error. -/
theorem State.transactionStart_causeLasts {s : State} (hnone : s.lsp.txn = none) (hcause : s.causeLasts = true) (command : Byte)
    (a : Word) (n : Nat) :
    s.transactionStart command a n = s.openTxn ⟨.dead, none, a, false⟩ (List.replicate n 0) := by
  rw [State.transactionStart, State.endTransaction_none hnone, if_pos hcause]

section
variable {s : State} (hnone : s.lsp.txn = none) (hcause : s.causeLasts = false) (a : Word) (n : Nat)
include hnone hcause

theorem State.transactionStart_read :
    s.transactionStart 0x01#8 a n = s.openTxn ⟨.read, readBurstOf a, addressAfter a n, false⟩ (s.burstWords a n) := by
  rw [State.transactionStart, State.endTransaction_none hnone, if_neg (ne_true_of_eq_false hcause), if_pos rfl]

theorem State.transactionStart_write :
    s.transactionStart 0x02#8 a n = s.openTxn ⟨.write, writeBurstOf a, a, false⟩ [] := by
  rw [State.transactionStart, State.endTransaction_none hnone, if_neg (ne_true_of_eq_false hcause), if_neg (by decide), if_pos rfl]

/-- R170: any other command byte is a local port error. -/
theorem State.transactionStart_badCommand {command : Byte} (hread : command ≠ 0x01#8) (hwrite : command ≠ 0x02#8) :
    s.transactionStart command a n = s.localError.openTxn ⟨.dead, none, a, false⟩ (List.replicate n 0) := by
  rw [State.transactionStart, State.endTransaction_none hnone, if_neg (ne_true_of_eq_false hcause), if_neg hread, if_neg hwrite]

end

theorem State.causeLasts_iff (s : State) : s.causeLasts = true ↔ s.rst.supplySettling = true ∨ s.rst.rstLow = true := by
  rw [State.causeLasts, Bool.or_eq_true]

/-! ### Words are clocked out while the select is held (R161) -/

/-- The words clocked out, and how far the transaction in progress moves on for them. -/
theorem State.clockWords_inTxn {s : State} {x : Txn} (hx : s.lsp.txn = some x) (n : Nat) :
    s.clockWords n = { s with lsp := { s.lsp with out := s.lsp.out ++ s.moreWords n, txn := some (x.clocked n) } } := by
  rw [State.clockWords, hx]
  rfl

/-- Where nothing is clocked out and nothing moves on, the tap is as it was. -/
theorem State.clockWords_idle {s : State} {n : Nat} (hwords : s.moreWords n = [])
    (htxn : (s.lsp.txn.map fun t => t.clocked n) = s.lsp.txn) : s.clockWords n = s := by
  rw [State.clockWords, hwords, htxn, List.append_nil]

theorem State.clockWords_read {s : State} {x : Txn} (hx : s.lsp.txn = some x) (hk : x.kind = .read) (n : Nat) :
    s.clockWords n =
      { s with
        lsp := { s.lsp with
          txn := some { x with address := addressAfter x.address n }, out := s.lsp.out ++ s.burstWords x.address n } } := by
  have hwords : s.moreWords n = s.burstWords x.address n := by
    rw [State.moreWords, hx]
    dsimp only
    rw [hk]
  rw [State.clockWords_inTxn hx, hwords, Txn.clocked, hk]

/-- A transaction that serves nothing gives zeros, and stays where it is. -/
theorem State.clockWords_dead {s : State} {x : Txn} (hx : s.lsp.txn = some x) (hk : x.kind = .dead) (n : Nat) :
    s.clockWords n = { s with lsp := { s.lsp with out := s.lsp.out ++ List.replicate n 0 } } := by
  have hwords : s.moreWords n = List.replicate n 0 := by
    rw [State.moreWords, hx]
    dsimp only
    rw [hk]
  rw [State.clockWords_inTxn hx, hwords, Txn.clocked, hk, ← hx]

theorem State.clockWords_write {s : State} {x : Txn} (hx : s.lsp.txn = some x) (hk : x.kind = .write) (n : Nat) :
    s.clockWords n = s := by
  refine State.clockWords_idle ?_ ?_
  · rw [State.moreWords, hx]
    dsimp only
    rw [hk]
  · rw [hx, Option.map_some, Txn.clocked, hk]

theorem State.clockWords_none {s : State} (hnone : s.lsp.txn = none) (n : Nat) : s.clockWords n = s := by
  refine State.clockWords_idle ?_ ?_
  · rw [State.moreWords, hnone]
  · rw [hnone, Option.map_none]

theorem Txn.clocked_burst (x : Txn) (n : Nat) : (x.clocked n).burst = x.burst := by
  rw [Txn.clocked]
  split <;> rfl

/-! ### The select is released (R63, R161) -/

theorem State.selectRelease_readBurst {s : State} {b : Fin 8} {a : Word} {acted : Bool}
    (hx : s.lsp.txn = some ⟨.read, some (.read b), a, acted⟩) (n : Nat) :
    s.selectRelease n =
      { s with
        lsp := { s.lsp with txn := none, out := s.lsp.out ++ s.burstWords a n }
        rx := upd s.rx b s.rx[b].endBurst } := by
  rw [State.selectRelease, State.clockWords_read hx rfl]
  exact State.endTransaction_readBurst rfl rfl

theorem State.selectRelease_noReadBurst {s : State} {x : Txn} {w : Option (Fin 4)} (hx : s.lsp.txn = some x)
    (hburst : x.burst = w.map Burst.write) (n : Nat) :
    s.selectRelease n = { s with lsp := { s.lsp with txn := none, out := s.lsp.out ++ s.moreWords n } } := by
  rw [State.selectRelease, State.clockWords_inTxn hx]
  exact State.endTransaction_noReadBurst rfl ((x.clocked_burst n).trans hburst)

/-- Settles O45: the opening by its command byte, one under a lasting cause, the words clocked out, and the release. -/
theorem transactions : Obligations.Transactions := by
  refine ⟨fun dt a n s hnone hsupply hrst => ?_, fun dt command a n s hnone hcause => ?_,
    fun dt n a s => ⟨fun x hx => ?_, fun hnone => ?_⟩, fun dt n b a acted s hx => ?_, fun dt n k a acted w s hx => ?_⟩
  · have hcause : (s.elapse dt).causeLasts = false := by
      rw [State.causeLasts, State.elapse_rst, hsupply, hrst]
      rfl
    have opened {command : Byte} {t : State} (h : (s.elapse dt).transactionStart command a n = t) :
        exec (.lspTransactionStart dt (some command) a n) s = .next t := congrArg Host.Outcome.next h
    refine ⟨opened ?_, opened (State.transactionStart_write (s := s.elapse dt) hnone hcause a n), fun c hread hwrite =>
      opened (State.transactionStart_badCommand (s := s.elapse dt) hnone hcause a n hread hwrite)⟩
    rw [State.transactionStart_read (s := s.elapse dt) hnone hcause, State.elapse, State.burstWords_now]
    rfl
  · exact congrArg Host.Outcome.next
      (State.transactionStart_causeLasts (s := s.elapse dt) hnone ((s.elapse dt).causeLasts_iff.mpr hcause) command a n)
  · refine ⟨fun hk => ?_, fun hk => ?_, fun hk => ?_⟩
    · refine congrArg Host.Outcome.next ((State.clockWords_read (s := s.elapse dt) hx hk n).trans ?_)
      rw [State.elapse, State.burstWords_now]
    · exact congrArg Host.Outcome.next (State.clockWords_dead (s := s.elapse dt) hx hk n)
    · exact congrArg Host.Outcome.next (State.clockWords_write (s := s.elapse dt) hx hk n)
  · exact congrArg Host.Outcome.next (State.clockWords_none (s := s.elapse dt) hnone n)
  · refine congrArg Host.Outcome.next ((State.selectRelease_readBurst (s := s.elapse dt) hx n).trans ?_)
    rw [State.elapse, State.burstWords_now]
    rfl
  · exact ⟨_, congrArg Host.Outcome.next (State.selectRelease_noReadBurst (s := s.elapse dt) hx rfl n), rfl⟩

end Sys2Proof.Machine
end


section
/-! PROOFS. When a restart of each kind begins, and its cause, its count and what it keeps (R124, R165, R166, R168). -/

namespace Sys2Proof.Machine

/-! ### What a restart keeps, by its kind (R166) -/

theorem State.beginRestart_keeps (s : State) {kind : RestartKind} (h : kind.keeps = true) :
    (s.beginRestart kind).ctr = s.ctr ∧ (∀ q, ((s.beginRestart kind).unit q).counters = (s.unit q).counters) ∧
      (s.beginRestart kind).trk.interval = s.trk.interval := by
  refine ⟨if_pos h, fun q => ?_, if_pos h⟩
  rw [State.beginRestart_unit]
  exact if_pos h

theorem State.beginRestart_clears (s : State) {kind : RestartKind} (h : kind.keeps = false) :
    (s.beginRestart kind).ctr = TapCounters.zero ∧ (∀ q, ((s.beginRestart kind).unit q).counters = PortCounters.zero) ∧
      (s.beginRestart kind).trk.interval = none := by
  have hnot := ne_true_of_eq_false h
  refine ⟨if_neg hnot, fun q => ?_, if_neg hnot⟩
  rw [State.beginRestart_unit]
  exact if_neg hnot

/-- Every restart but POWER-ON counts one more and keeps the STRAP_INVALID mark (R165, R168). -/
theorem State.beginRestart_counts (s : State) {kind : RestartKind} (h : kind ≠ .powerOn) :
    (s.beginRestart kind).rst.cause = kind ∧ (s.beginRestart kind).rst.count = satInc s.rst.count ∧
      (s.beginRestart kind).rst.strapInvalid = s.rst.strapInvalid := by
  match kind, h with
  | .powerOn, h => exact absurd rfl h
  | .pin, _ => exact ⟨rfl, rfl, rfl⟩
  | .local, _ => exact ⟨rfl, rfl, rfl⟩
  | .remote, _ => exact ⟨rfl, rfl, rfl⟩

/-! ### When a restart begins -/

/-- A PIN restart, where RST_N was not low already (log 27). -/
theorem State.rstNLow_begins {s : State} (h : s.rst.rstLow = false) : s.rstNLow = s.beginRestart .pin :=
  if_neg (ne_true_of_eq_false h)

/-- A pending restart is due once its response has left or the second close has come (R124). -/
theorem State.remoteDue_of_pending {s : State} {x : PendingRestart} (hx : s.mgmt.pendingRestart = some x)
    (h : x.left = true ∨ 2 ≤ x.closes) : s.remoteDue = true := by
  rw [State.remoteDue, hx]
  dsimp only
  rw [Bool.or_eq_true, decide_eq_true_iff]
  exact h

theorem exec_remoteRestartBegin_due {s : State} {x : PendingRestart} (dt : Nat) (hx : s.mgmt.pendingRestart = some x)
    (h : x.left = true ∨ 2 ≤ x.closes) : exec (.remoteRestartBegin dt) s = .next ((s.elapse dt).beginRestart .remote) :=
  congrArg Host.Outcome.next (if_pos (State.remoteDue_of_pending (s := s.elapse dt) hx h))

/-- Settles O42, kind by kind. -/
theorem restartCauseAndCount : Obligations.RestartCauseAndCount := by
  intro dt s
  refine ⟨?_, fun hlow => ?_, fun hserves hacted => ?_, fun x hx hdue => ?_⟩
  · obtain ⟨hctr, hports, hinterval⟩ := (s.elapse dt).beginRestart_clears (kind := .powerOn) rfl
    exact ⟨_, rfl, rfl, rfl, rfl, rfl, rfl, rfl, hctr, hports .w, hports .e, hinterval⟩
  · obtain ⟨hctr, hports, hinterval⟩ := (s.elapse dt).beginRestart_clears (kind := .pin) rfl
    obtain ⟨hcause, hcount, hstrap⟩ := (s.elapse dt).beginRestart_counts (kind := .pin) (by decide)
    exact ⟨_, congrArg Host.Outcome.next (State.rstNLow_begins (s := s.elapse dt) hlow), rfl, hcause, hcount, hstrap, rfl, hctr,
      hports .w, hports .e, hinterval⟩
  · have hact := State.localAction_acts (s.elapse dt) (fun t => t.beginRestart .local) hserves hacted
    obtain ⟨hctr, hports, hinterval⟩ := (s.elapse dt).markActed.beginRestart_keeps (kind := .local) rfl
    obtain ⟨hcause, hcount, hstrap⟩ := (s.elapse dt).markActed.beginRestart_counts (kind := .local) (by decide)
    exact ⟨_, congrArg Host.Outcome.next hact, rfl, hcause, hcount, hstrap, rfl, hctr, hports .w, hports .e, hinterval, rfl⟩
  · obtain ⟨hctr, hports, hinterval⟩ := (s.elapse dt).beginRestart_keeps (kind := .remote) rfl
    obtain ⟨hcause, hcount, hstrap⟩ := (s.elapse dt).beginRestart_counts (kind := .remote) (by decide)
    exact ⟨_, exec_remoteRestartBegin_due dt hx hdue, rfl, hcause, hcount, hstrap, rfl, hctr, hports .w, hports .e, hinterval, rfl⟩

end Sys2Proof.Machine
end

section
/-! PROOFS. The bytes of a frame spell it again (12.1, R9, R169), and the outcomes of a check, received and sent on (R12, R13). -/

namespace Sys2Proof

/-! ### Words and write maps in wire order -/

theorem word32_be32 (x : BitVec 32) :
    word32 (x.extractLsb' 24 8) (x.extractLsb' 16 8) (x.extractLsb' 8 8) (x.extractLsb' 0 8) = x := by
  unfold word32
  iterate 3 rw [BitVec.extractLsb'_append_extractLsb'_eq_extractLsb']
  · exact BitVec.extractLsb'_eq_self
  all_goals rfl

/-- The eight bytes of a write map give it again, wherever they stand. -/
theorem mapAt_mapBytes (pre : List Byte) (m : BitVec 64) (post : List Byte) :
    mapAt (pre ++ (mapBytes m ++ post)) pre.length = m := by
  have byte (j : Nat) : (pre ++ (mapBytes m ++ post)).getD (pre.length + j) 0 = (mapBytes m ++ post).getD j 0 := by
    rw [List.getD_append_right _ _ _ _ (Nat.le_add_right _ _), Nat.add_sub_cancel_left]
  have first : (pre ++ (mapBytes m ++ post)).getD pre.length 0 = (mapBytes m ++ post).getD 0 0 := byte 0
  rw [mapAt, byte, byte, byte, byte, byte, byte, byte, first]
  show m.extractLsb' 56 8 ++ m.extractLsb' 48 8 ++ m.extractLsb' 40 8 ++ m.extractLsb' 32 8 ++ m.extractLsb' 24 8 ++
    m.extractLsb' 16 8 ++ m.extractLsb' 8 8 ++ m.extractLsb' 0 8 = m
  iterate 7 rw [BitVec.extractLsb'_append_extractLsb'_eq_extractLsb']
  · exact BitVec.extractLsb'_eq_self
  all_goals rfl

/-! ### Lists of items of two bytes each: a block's words, a roll call's entries -/

section
variable {α : Type} (first second : α → Byte) (l : List α) (post : List Byte)

theorem length_flatMap_pair : (l.flatMap fun x => [first x, second x]).length = 2 * l.length := by
  simp [Nat.mul_comm]

/-- The two bytes of item `i` stand at `2 * i` and behind it. -/
theorem getD_flatMap_pair {i : Nat} (hi : i < l.length) :
    ((l.flatMap fun x => [first x, second x]) ++ post).getD (2 * i) 0 = first l[i] ∧
      ((l.flatMap fun x => [first x, second x]) ++ post).getD (2 * i + 1) 0 = second l[i] := by
  induction l generalizing i with
  | nil => exact absurd hi (Nat.not_lt_zero i)
  | cons x l ih =>
    cases i with
    | zero => exact ⟨rfl, rfl⟩
    | succ i => exact ih (Nat.lt_of_succ_lt_succ hi)

/-- Items that their two bytes make again, read from their places. -/
theorem ofFn_flatMap_pair {n : Nat} {make : Byte → Byte → α} (hmake : ∀ x, make (first x) (second x) = x) (v : Vector α n) :
    (Vector.ofFn fun i : Fin n =>
      make ((v.toList.flatMap fun x => [first x, second x]).getD (2 * i.val) 0)
        ((v.toList.flatMap fun x => [first x, second x]).getD (2 * i.val + 1) 0)) = v := by
  refine Vector.ext fun i hi => ?_
  obtain ⟨hfirst, hsecond⟩ := getD_flatMap_pair first second v.toList [] (hi.trans_eq v.length_toList.symm)
  rw [List.append_nil] at hfirst hsecond
  rw [Vector.getElem_ofFn]
  exact (congrArg₂ make hfirst hsecond).trans (hmake _)

end

theorem length_words (v : Vector Word 32) : (v.toList.flatMap be16).length = 64 :=
  (length_flatMap_pair (fun x : Word => x.extractLsb' 8 8) (fun x => x.extractLsb' 0 8) _).trans
    (congrArg (2 * ·) v.length_toList)

theorem length_entries (l : List RollEntry) : (l.flatMap RollEntry.bytes).length = 2 * l.length :=
  length_flatMap_pair RollEntry.station RollEntry.status l

theorem words_be16 (v : Vector Word 32) :
    (Vector.ofFn fun i : Fin 32 =>
      word16 ((v.toList.flatMap be16).getD (2 * i.val) 0) ((v.toList.flatMap be16).getD (2 * i.val + 1) 0)) = v :=
  ofFn_flatMap_pair _ _ word16_be16 v

/-- The entries of a roll call, read again from their places (R9). -/
theorem entriesAt_bytes (l : List RollEntry) (post : List Byte) : entriesAt (l.flatMap RollEntry.bytes ++ post) 0 l.length = l := by
  refine List.ext_getElem (by simp [entriesAt]) fun i hi _ => ?_
  have hil : i < l.length := by simpa [entriesAt] using hi
  obtain ⟨hstation, hstatus⟩ := getD_flatMap_pair RollEntry.station RollEntry.status l post hil
  simp only [entriesAt, List.getElem_map, List.getElem_range, Nat.zero_add]
  exact congrArg₂ RollEntry.mk hstation hstatus

theorem slots_bytes (v : Vector RollEntry 63) :
    (Vector.ofFn fun i : Fin 63 =>
      RollEntry.mk ((v.toList.flatMap RollEntry.bytes).getD (2 * i.val) 0)
        ((v.toList.flatMap RollEntry.bytes).getD (2 * i.val + 1) 0)) = v :=
  ofFn_flatMap_pair RollEntry.station RollEntry.status (fun _ => rfl) v

theorem ofFn_getD_toList {n : Nat} (v : Vector Byte n) : (Vector.ofFn fun i : Fin n => v.toList.getD i.val 0) = v :=
  Vector.ext fun i hi => by simp

/-! ### The body of each kind (12.1) -/

theorem parseHeader_body (f : HeaderFrame) :
    parseHeader (be32 f.cycle ++ be16 f.period ++ [f.blocks, f.containers, f.turn, f.epoch]) = some f := by
  show some (HeaderFrame.mk (word32 _ _ _ _) (word16 _ _) _ _ _ _) = _
  rw [word32_be32, word16_be16]

theorem parseBlock_body (f : BlockFrame) :
    parseBlock (f.number :: (mapBytes f.thisMap ++ mapBytes f.lastMap ++ f.words.toList.flatMap be16)) = some f := by
  rw [List.append_assoc]
  generalize hl : mapBytes f.thisMap ++ (mapBytes f.lastMap ++ f.words.toList.flatMap be16) = l
  have hlength : l.length = 80 := hl ▸ congrArg (· + 16) (length_words f.words)
  have hthis : mapAt l 0 = f.thisMap := hl ▸ mapAt_mapBytes [] _ _
  have hlast : mapAt l 8 = f.lastMap := hl ▸ mapAt_mapBytes (mapBytes f.thisMap) _ _
  have hmaps (i : Nat) : l.getD (16 + i) 0 = (f.words.toList.flatMap be16).getD i 0 := by
    rw [← hl, Nat.add_comm]
    rfl
  have hwords : (Vector.ofFn fun i : Fin 32 => word16 (l.getD (16 + 2 * i.val) 0) (l.getD (17 + 2 * i.val) 0)) = f.words := by
    have hlow (i : Fin 32) : 17 + 2 * i.val = 16 + (2 * i.val + 1) := by omega
    simp only [hlow, hmaps]
    exact words_be16 f.words
  rw [parseBlock, if_pos hlength, hthis, hlast, hwords]

theorem parseContainer_body (f : ContainerFrame) :
    parseContainer ([f.index, f.dest, f.state, f.flight, f.refused, f.source, f.cls, f.tag, f.length] ++ f.payload.toList) =
      some f := by
  show (if f.payload.toList.length = 96 then
    some { f with payload := Vector.ofFn fun k : Fin 96 => f.payload.toList.getD k.val 0 } else none) = some f
  rw [if_pos f.payload.length_toList, ofFn_getD_toList]

theorem parseEcho_body (f : EchoFrame) : parseEcho ([f.direction, f.seq] ++ f.pattern.toList) = some f := by
  show (if f.pattern.toList.length = 32 then
    some { f with pattern := Vector.ofFn fun k : Fin 32 => f.pattern.toList.getD k.val 0 } else none) = some f
  rw [if_pos f.pattern.length_toList, ofFn_getD_toList]

/-- The open part of a ROLL is its last 127 bytes, so that the closed entries are those before it (R9). -/
theorem parseRoll_body {f : RollFrame} (h : f.wellFormed = true) :
    parseRoll (f.closedCount :: (f.closed.flatMap RollEntry.bytes ++ (f.openCount :: f.slots.toList.flatMap RollEntry.bytes))) =
      some f := by
  have hcount : f.closedCount.toNat ≤ 63 → f.closed.length = f.closedCount.toNat := of_decide_eq_true h
  generalize hl : f.closed.flatMap RollEntry.bytes ++ (f.openCount :: f.slots.toList.flatMap RollEntry.bytes) = l
  have hlength : l.length = 127 + 2 * f.closed.length := by
    rw [← hl, List.length_append, List.length_cons, length_entries, length_entries, f.slots.length_toList]
    omega
  have hm : (l.length - 127) / 2 = f.closed.length := by omega
  have hopen (i : Nat) :
      l.getD (2 * f.closed.length + i) 0 = (f.openCount :: f.slots.toList.flatMap RollEntry.bytes).getD i 0 := by
    rw [← hl, ← length_entries, List.getD_append_right _ _ _ _ (Nat.le_add_right _ _), Nat.add_sub_cancel_left]
  have hslots : (Vector.ofFn fun i : Fin 63 =>
      RollEntry.mk (l.getD (2 * f.closed.length + 1 + 2 * i.val) 0) (l.getD (2 * f.closed.length + 2 + 2 * i.val) 0)) =
        f.slots := by
    have hstation (i : Fin 63) : 2 * f.closed.length + 1 + 2 * i.val = 2 * f.closed.length + (2 * i.val + 1) := by omega
    have hstatus (i : Fin 63) : 2 * f.closed.length + 2 + 2 * i.val = 2 * f.closed.length + (2 * i.val + 1 + 1) := by omega
    simp only [hstation, hstatus, hopen, List.getD_cons_succ]
    exact slots_bytes f.slots
  have hclosed : entriesAt l 0 f.closed.length = f.closed := by
    rw [← hl]
    exact entriesAt_bytes _ _
  unfold parseRoll
  dsimp only
  rw [hm, if_pos ⟨hlength, hcount⟩, hclosed, hslots, show l.getD (2 * f.closed.length) 0 = f.openCount from hopen 0]

/-! ### A whole frame -/

/-- The kind byte of a frame tells which body follows; an unknown kind is none of the five (R11). -/
theorem Frame.parse_bytes {f : Frame} (h : f.wellFormed = true) : Frame.parse f.bytes = some f := by
  cases f with
  | header f => exact congrArg (Option.map Frame.header) (parseHeader_body f)
  | block f => exact congrArg (Option.map Frame.block) (parseBlock_body f)
  | container f => exact congrArg (Option.map Frame.container) (parseContainer_body f)
  | roll f =>
    refine (congrArg (fun l => (parseRoll l).map Frame.roll) ?_).trans (congrArg (Option.map Frame.roll) (parseRoll_body h))
    simp
  | echo f => exact congrArg (Option.map Frame.echo) (parseEcho_body f)
  | unknown f =>
    obtain ⟨hheader, hblock, hcontainer, hroll, hecho⟩ := of_decide_eq_true h
    show (if f.kind = 0x01#8 then _ else _) = _
    rw [if_neg hheader, if_neg hblock, if_neg hcontainer, if_neg hroll, if_neg hecho]

/-! ### The check -/

/-- A check that is neither the computed one nor its inverse (R12). -/
theorem Frame.outcome_bad {f : Frame} {c : Fcs} (hgood : c ≠ f.check) (hstomped : c ≠ ~~~f.check) : f.outcome (some c) = .bad :=
  (if_neg hgood).trans (if_neg hstomped)

end Sys2Proof

namespace Sys2Proof.Machine

/-- Settles O3: the bytes kind by kind, and the checks a frame may leave with, which are the computed one and its inverse (R13). -/
theorem frameBytesSpellTheFrame : Obligations.FrameBytesSpellTheFrame :=
  ⟨fun _ => Frame.parse_bytes, fun f => ⟨outcome_good f, outcome_stomped f, outcome_cut f, fun _ => Frame.outcome_bad,
    outcome_good f, outcome_stomped f, outcome_stomped f⟩⟩

end Sys2Proof.Machine
end

section
/-! PROOFS. What no command undoes: the queue, the clock and what has left the tap (logs 1, 3, 6); the port units, the tracker
and the headers. -/

namespace Sys2Proof.Machine

/-! ### From one state on to another -/

/-- From `s` the tap may have gone on to `t`: the queue stands, time has not run back, and what had left the tap has left it. -/
def State.RunsTo (s t : State) : Prop := t.pending = s.pending ∧ s.now ≤ t.now ∧ ∃ l, t.sent = s.sent ++ l

theorem State.RunsTo.refl (s : State) : s.RunsTo s := ⟨rfl, Nat.le_refl _, [], (List.append_nil _).symm⟩

section
variable {s t : State}

/-- A change that leaves the queue, the clock and what has been sent. -/
theorem State.RunsTo.still {u : State} (h : s.RunsTo t) (hpending : u.pending = t.pending) (hnow : u.now = t.now)
    (hsent : u.sent = t.sent) : s.RunsTo u := by
  unfold State.RunsTo
  rw [hpending, hnow, hsent]
  exact h

/-- More has left the tap. -/
theorem State.RunsTo.sends {u : State} (h : s.RunsTo t) (hpending : u.pending = t.pending) (hnow : u.now = t.now) {l : List Sent}
    (hsent : u.sent = t.sent ++ l) : s.RunsTo u := by
  obtain ⟨kpending, know, l', ksent⟩ := h
  refine ⟨hpending.trans kpending, know.trans_eq hnow.symm, l' ++ l, ?_⟩
  rw [hsent, ksent, List.append_assoc]

/-- A choice of which both sides go on from `s`. -/
theorem State.RunsTo.ite {u : State} (c : Prop) [Decidable c] (ht : s.RunsTo t) (hu : s.RunsTo u) :
    s.RunsTo (if c then t else u) := by
  split
  · exact ht
  · exact hu

theorem State.RunsTo.foldl {γ : Type} {g : State → γ → State} (hg : ∀ (t : State) (x : γ), s.RunsTo t → s.RunsTo (g t x))
    (l : List γ) (h : s.RunsTo t) : s.RunsTo (l.foldl g t) := by
  induction l generalizing t with
  | nil => exact h
  | cons x l ih => exact ih (hg t x h)

theorem State.RunsTo.elapse (h : s.RunsTo t) (dt : Nat) : s.RunsTo (t.elapse dt) := by
  obtain ⟨hpending, hnow, hsent⟩ := h
  exact ⟨hpending, Nat.le_add_right_of_le hnow, hsent⟩

/-- An expiry moves the clock to its own time, or not at all (log 1). -/
theorem State.RunsTo.reach (h : s.RunsTo t) (m : Nat) : s.RunsTo (t.reach m) := by
  obtain ⟨hpending, hnow, hsent⟩ := h
  exact ⟨hpending, hnow.trans (Nat.le_max_left _ _), hsent⟩

theorem State.RunsTo.emit (h : s.RunsTo t) (p : Port) (x : SentContent) : s.RunsTo (t.emit p x) :=
  h.sends (t.emit_pending p x) (t.emit_now p x) (t.emit_sent p x)

theorem State.RunsTo.setUnit (h : s.RunsTo t) (p : Port) (u : PortUnit) : s.RunsTo (t.setUnit p u) :=
  h.still (t.setUnit_pending p u) (t.setUnit_now p u) (t.setUnit_sent p u)

theorem State.RunsTo.modUnit (h : s.RunsTo t) (p : Port) (f : PortUnit → PortUnit) : s.RunsTo (t.modUnit p f) := h.setUnit p _

theorem State.RunsTo.modTrk (h : s.RunsTo t) (f : Tracker → Tracker) : s.RunsTo (t.modTrk f) := h

theorem State.RunsTo.count (h : s.RunsTo t) (f : TapCounters → TapCounters) : s.RunsTo (t.count f) := h

theorem State.RunsTo.setSticky (h : s.RunsTo t) (c : Sticky) : s.RunsTo (t.setSticky c) := h

theorem State.RunsTo.withSubs (h : s.RunsTo t) (v : Vector SubRecord 32) : s.RunsTo { t with subs := v } := h

theorem State.RunsTo.withMgmt (h : s.RunsTo t) (x : Management) : s.RunsTo { t with mgmt := x } := h

theorem State.RunsTo.withRx (h : s.RunsTo t) (v : Vector RxBank 8) : s.RunsTo { t with rx := v } := h

theorem State.RunsTo.raise (h : s.RunsTo t) (x : Source) : s.RunsTo (t.raise x) := h

theorem State.RunsTo.ringChange (h : s.RunsTo t) : s.RunsTo t.ringChange := h

theorem State.RunsTo.endRecord (h : s.RunsTo t) : s.RunsTo t.endRecord := h

theorem State.RunsTo.setTapState (h : s.RunsTo t) (x : TapState) : s.RunsTo (t.setTapState x) :=
  h.still (t.setTapState_pending x) (t.setTapState_now x) (t.setTapState_sent x)

theorem State.RunsTo.close (h : s.RunsTo t) (k : CloseKind) (l : Option (List RollEntry)) : s.RunsTo (t.close k l) :=
  h.still (t.close_pending k l) (t.close_now k l) (t.close_sent k l)

/-! ### What leaves a port -/

theorem State.RunsTo.depart (h : s.RunsTo t) (p : Port) (x : HeldFrame) : s.RunsTo (t.depart p x) :=
  h.sends (t.depart_pending p x) (t.depart_now p x) (t.depart_sent p x)

theorem State.RunsTo.sendOut (h : s.RunsTo t) (p : Port) (x : HeldFrame) : s.RunsTo (t.sendOut p x) :=
  .ite _ (h.modUnit p _) (h.depart p x)

theorem State.RunsTo.flushElastic (h : s.RunsTo t) (p : Port) : s.RunsTo (t.flushElastic p) :=
  (State.RunsTo.foldl (fun _ x k => k.depart p x) _ h).modUnit p _

theorem State.RunsTo.endPartial (h : s.RunsTo t) (p : Port) : s.RunsTo (t.endPartial p) :=
  h.sends (t.endPartial_pending p) (t.endPartial_now p) (t.endPartial_sent p)

theorem State.RunsTo.cutFrom (h : s.RunsTo t) (p q : Port) : s.RunsTo (State.cutFrom p t q) := by
  have cut (c : Prop) [Decidable c] (x : SentContent) := State.RunsTo.ite c h (h.emit p x)
  unfold State.cutFrom
  split
  · exact h
  · dsimp only
    split
    · exact State.RunsTo.modUnit (.ite _ (cut _ _) ((cut _ _).count _)) q _
    · exact h

theorem State.RunsTo.cutOutputs (h : s.RunsTo t) (p : Port) : s.RunsTo (t.cutOutputs p) := by
  have cut : s.RunsTo (bothPorts.foldl (State.cutFrom p) t) := .foldl (fun _ q k => k.cutFrom p q) _ h
  have lost := State.RunsTo.foldl (g := State.loseHeld) (fun _ _ k => .ite _ (k.count _) k)
    ((bothPorts.foldl (State.cutFrom p) t).unit p).elastic cut
  exact State.RunsTo.modUnit (.ite _ (lost.emit p _) lost) p _

/-! ### The receive monitor and the lane switch -/

theorem State.RunsTo.leaveService (h : s.RunsTo t) (p : Port) : s.RunsTo (t.leaveService p) :=
  h.still (t.leaveService_pending p) (t.leaveService_now p) (t.leaveService_sent p)

theorem State.RunsTo.endTrainAt (h : s.RunsTo t) (p : Port) : s.RunsTo (t.endTrainAt p) :=
  h.still (t.endTrainAt_pending p) (t.endTrainAt_now p) (t.endTrainAt_sent p)

theorem State.RunsTo.leaveUp (h : s.RunsTo t) (p : Port) (c : DownCause) : s.RunsTo (t.leaveUp p c) := by
  have down := ((h.endPartial p).modUnit p fun u =>
    (u.enterDown c (t.endPartial p).now).count fun c => { c with downs := satInc c.downs }).ringChange
  have cut := (down.leaveService p).cutOutputs p
  have aborted := cut.still (State.abortTest_pending _ p) (State.abortTest_now _ p) (State.abortTest_sent _ p)
  exact aborted.endTrainAt p

theorem State.RunsTo.goDown (h : s.RunsTo t) (p : Port) (c : DownCause) : s.RunsTo (t.goDown p c) := by
  unfold State.goDown
  split
  · exact h.leaveUp p c
  · exact h.modUnit p _
  · exact h

theorem State.RunsTo.windowAdd (h : s.RunsTo t) (p : Port) (error : Bool) : s.RunsTo (t.windowAdd p error) := by
  have added := h.modUnit p fun u => { u with window := windowPush (t.unit p).window error }
  exact .ite _ (.ite _ (added.leaveUp p _) added) h

theorem State.RunsTo.refit (h : s.RunsTo t) (p : Port) : s.RunsTo (t.refit p) :=
  .ite _ (.ite _ (h.setUnit p _).ringChange h) (h.setUnit p _)

theorem State.RunsTo.enterUp (h : s.RunsTo t) (p : Port) : s.RunsTo (t.enterUp p) := (h.modUnit p _).ringChange.refit p

theorem State.RunsTo.newPolicy (h : s.RunsTo t) (old : ReturnPolicy) (p : Port) : s.RunsTo (State.newPolicy old t p) := by
  unfold State.newPolicy
  split
  · exact h.modUnit p _
  · exact .ite _ (h.refit p) h

theorem State.RunsTo.newQualification (h : s.RunsTo t) (p : Port) : s.RunsTo (t.newQualification p) := by
  unfold State.newQualification
  split
  · exact .ite _ (h.enterUp p) h
  · exact h

theorem State.RunsTo.activatePorts (h : s.RunsTo t) (old : ReturnPolicy) : s.RunsTo (t.activatePorts old) :=
  .foldl (fun _ p k => k.newQualification p) _ (.foldl (fun _ p k => k.newPolicy old p) _ h)

theorem State.RunsTo.tryQualify (h : s.RunsTo t) (p : Port) : s.RunsTo (t.tryQualify p) := h.modUnit p _

theorem State.RunsTo.lockLost (h : s.RunsTo t) (p : Port) : s.RunsTo (t.lockLost p) :=
  (((h.modUnit p _).endPartial p).goDown p .loss).refit p

theorem State.RunsTo.lockGained (h : s.RunsTo t) (p : Port) : s.RunsTo (t.lockGained p) := (h.modUnit p _).tryQualify p

theorem State.RunsTo.farEnd (h : s.RunsTo t) (p : Port) (sig : FarSignal) : s.RunsTo (t.farEnd p sig) := by
  have seen := h.modUnit p fun u => { u with farEnd := some sig }
  exact .ite _ (State.RunsTo.refit (.ite _ (seen.goDown p .remote) (seen.tryQualify p)) p) h

theorem State.RunsTo.downHoldExpiry (h : s.RunsTo t) (p : Port) : s.RunsTo (t.downHoldExpiry p) := by
  unfold State.downHoldExpiry
  split
  · exact ((h.reach _).modUnit p _).tryQualify p
  · exact h

theorem State.RunsTo.qualificationComplete (h : s.RunsTo t) (p : Port) : s.RunsTo (t.qualificationComplete p) := by
  unfold State.qualificationComplete
  split
  · exact (h.reach _).enterUp p
  · exact h

theorem State.RunsTo.returnService (h : s.RunsTo t) (p : Port) : s.RunsTo (t.returnService p) := (h.modUnit p _).ringChange

/-! ### ECHO frames -/

theorem State.RunsTo.setTest (h : s.RunsTo t) (x : SegTest) : s.RunsTo (t.setTest x) := h

theorem State.RunsTo.echoStart (h : s.RunsTo t) (p : Port) : s.RunsTo (t.echoStart p) := by
  unfold State.echoStart
  split
  · exact h.modUnit p _
  · exact .ite _ ((h.modUnit p _).setTest _) h

theorem State.RunsTo.echoSent (h : s.RunsTo t) (p : Port) (f : EchoFrame) : s.RunsTo (t.echoSent p f) :=
  ((h.emit p _).modUnit p _).flushElastic p

theorem State.RunsTo.replySent (h : s.RunsTo t) (p : Port) : s.RunsTo (t.replySent p) := by
  unfold State.replySent
  split
  · exact (h.echoSent p _).modUnit p _
  · exact h

theorem State.RunsTo.requestSent (h : s.RunsTo t) (p : Port) : s.RunsTo (t.requestSent p) := by
  unfold State.requestSent
  split
  · exact (h.echoSent p _).setTest _
  · exact h

theorem State.RunsTo.echoWaitExpiry (h : s.RunsTo t) : s.RunsTo t.echoWaitExpiry := by
  unfold State.echoWaitExpiry
  dsimp only
  split
  · exact (h.reach _).setTest _
  · exact h

theorem State.RunsTo.judgeReply (h : s.RunsTo t) (p : Port) (f : EchoFrame) (c : Check) : s.RunsTo (t.judgeReply p f c) := by
  have judged (x : SegTest) := h.setTest x
  unfold State.judgeReply
  dsimp only
  split
  · exact .ite _ (.ite _ (judged _) (.ite _ (.ite _ (judged _) (judged _)) h)) h
  · exact h

theorem State.RunsTo.receiveEcho (h : s.RunsTo t) (p : Port) (f : EchoFrame) (c : Check) : s.RunsTo (t.receiveEcho p f c) :=
  .ite _ (.ite _ (.ite _ (h.modUnit p _) h) (.ite _ (h.judgeReply p f c) h)) h

/-! ### The tracker and its timers -/

theorem State.RunsTo.armGap (h : s.RunsTo t) (p : Port) : s.RunsTo (t.armGap p) := .ite _ (h.modTrk _) h

theorem State.RunsTo.badFrame (h : s.RunsTo t) : s.RunsTo t.badFrame := by
  have defect : s.RunsTo t.orderDefect := h.modTrk _
  unfold State.badFrame
  dsimp only
  split
  · exact defect.modTrk _
  · exact defect.modTrk _
  · exact defect.close _ _
  · exact defect
  · exact defect

theorem State.RunsTo.gapTimerExpiry (h : s.RunsTo t) : s.RunsTo t.gapTimerExpiry := by
  unfold State.gapTimerExpiry
  split
  · dsimp only
    split
    · exact (h.reach _).close _ _
    · exact (h.reach _).endRecord
    · exact (h.reach _).modTrk _
  · exact h

theorem State.RunsTo.missedClose (h : s.RunsTo t) : s.RunsTo t.missedClose := by
  have counted := (h.close .missed none).modTrk fun x => { x with missed := satInc x.missed }
  unfold State.missedClose
  dsimp only
  split
  · exact ((counted.modTrk _).setSticky _).raise _
  · exact counted

theorem State.RunsTo.trainTimerExpiry (h : s.RunsTo t) : s.RunsTo t.trainTimerExpiry := by
  unfold State.trainTimerExpiry
  split
  · dsimp only
    split
    · exact (h.reach _).modTrk _
    · exact (h.reach _).missedClose.modTrk _
    · exact (h.reach _).missedClose.modTrk _
  · exact h

/-! ### Headers -/

theorem State.RunsTo.activate (h : s.RunsTo t) (x : Session) : s.RunsTo (t.activate x) := by
  have settled {u : State} (k : s.RunsTo u) : s.RunsTo u.activateTapState := .ite _ (k.setTapState _) k
  have changed {u : State} (k : s.RunsTo u) (old : TableSet) : s.RunsTo (u.changeover old) := k
  unfold State.activate
  dsimp only
  exact ((((changed ((settled (h.withMgmt _)).withSubs _) _).setSticky _).raise _).withRx _).activatePorts _

theorem State.RunsTo.activateDue (h : s.RunsTo t) (epoch : Byte) : s.RunsTo (t.activateDue epoch) := by
  unfold State.activateDue
  split
  · exact h.activate _
  · exact h

theorem State.RunsTo.publishHeader (h : s.RunsTo t) : s.RunsTo t.publishHeader := by
  have taken {u : State} (k : s.RunsTo u) :
      s.RunsTo ((List.finRange 4).foldl (fun u p => if t.swaps p then u.raise (.postTaken p) else u) u) :=
    .foldl (fun _ _ k => .ite _ (k.raise _) k) _ k
  unfold State.publishHeader
  split
  iterate 3 exact taken (by exact h)
  iterate 2 exact h

theorem State.RunsTo.schedulerHeader (h : s.RunsTo t) (f : HeaderFrame) : s.RunsTo (t.schedulerHeader f) :=
  h.still (t.schedulerHeader_pending f) (t.schedulerHeader_now f) (t.schedulerHeader_sent f)

theorem State.RunsTo.prepareTrain (h : s.RunsTo t) (f : HeaderFrame) : s.RunsTo (t.prepareTrain f) :=
  (((h.activateDue f.epoch).publishHeader.withRx _).schedulerHeader f).raise _

theorem State.RunsTo.firstPass (h : s.RunsTo t) (p : Port) (f : HeaderFrame) : s.RunsTo (t.firstPass p f) := by
  have recorded : s.RunsTo (t.recordHeader p f) := by
    unfold State.recordHeader
    dsimp only
    split <;> exact h
  rw [State.firstPass_eq]
  exact ((recorded.prepareTrain f).modTrk _).armGap p

theorem State.RunsTo.takeHeader (h : s.RunsTo t) (p : Port) (f : HeaderFrame) : s.RunsTo (t.takeHeader p f) :=
  .ite _ (h.firstPass p f) ((h.modTrk _).armGap p)

theorem State.RunsTo.trackHeader (h : s.RunsTo t) (p : Port) (f : HeaderFrame) (c : Check) : s.RunsTo (t.trackHeader p f c) := by
  have closed := h.close .aborted none
  unfold State.trackHeader
  split
  · exact .ite _ (.ite _ (closed.takeHeader p f) (.ite _ (closed.firstPass p f) h)) (.ite _ (h.badFrame.armGap p) h)
  · exact .ite _ (h.takeHeader p f) h
  · exact .ite _ (h.takeHeader p f) (h.armGap p)

end

end Sys2Proof.Machine
end

section
/-! PROOFS. What no command undoes: the queue, the clock and what has left the tap (logs 1, 3, 6); the requests, the containers, the
frames and the local port, and every command. -/

namespace Sys2Proof.Machine

section
variable {s t : State}

/-! ### Requests: none sends, and none moves the clock or the queue, while it is executed -/

theorem State.RunsTo.clearGroup (h : s.RunsTo t) (g : Group) : s.RunsTo (t.clearGroup g) := by
  cases g with
  | port p => exact h.modUnit p _
  | _ => exact h.count _

theorem State.RunsTo.pulse (h : s.RunsTo t) (c : Fin 12) : s.RunsTo (t.pulse c) := .ite _ h h

theorem State.RunsTo.setCommandCause (h : s.RunsTo t) (x : Bool) : s.RunsTo (t.setCommandCause x) := h

theorem State.RunsTo.runRequest (h : s.RunsTo t) (r : Request) (src : Station) : s.RunsTo (runRequest r src t).state := by
  cases r with
  | clearCounters g =>
    simp only [Machine.runRequest, runClearCounters]
    split
    · exact h.clearGroup _
    · exact h
  | halt =>
    simp only [Machine.runRequest, runHalt]
    split
    · exact (h.setCommandCause _).setTapState _
    all_goals exact h
  | resume =>
    simp only [Machine.runRequest, runResume]
    split
    · exact h
    · split
      · exact h
      · exact (h.setCommandCause _).setTapState _
    all_goals exact h
  | returnWrap port =>
    simp only [Machine.runRequest, runReturnWrap]
    split
    · exact h
    · split
      · exact h.modUnit _ _
      · exact h
  | pulse channel =>
    simp only [Machine.runRequest, runPulse]
    split
    · exact h
    · split
      · exact h.pulse _
      · exact h
  | _ =>
    simp only [Machine.runRequest, runIdentify, runReadStatus, runReadCounters, runReadCensus, runReadSubscriptionState,
      runReadEntry, runOpenEdit, runStageEntry, runClearStaged, runCommit, runAbandonEdit, runQueryEdit, runRestart,
      runSegmentTestStart, runSegmentTestResult]
    repeat' split
    all_goals exact h

theorem State.RunsTo.touchSession (h : s.RunsTo t) (src : Station) : s.RunsTo (t.touchSession src) := by
  rw [State.touchSession_eq]
  exact h

theorem State.RunsTo.respond (h : s.RunsTo t) (r : Response) : s.RunsTo (t.respond r) := h

theorem State.RunsTo.remember (h : s.RunsTo t) (src : Station) (r : CachedResponse) : s.RunsTo (t.remember src r) :=
  h.withMgmt _

/-- A request taken, whichever way it is answered (R106 to R108). -/
theorem State.RunsTo.takeRequest (h : s.RunsTo t) (src : Station) (tag code : Byte) {run : State → Reply}
    (hr : ∀ u : State, s.RunsTo u → s.RunsTo (run u).state) : s.RunsTo (t.takeRequest src tag code run) := by
  have touched := h.touchSession src
  have executed : s.RunsTo ((t.touchSession src).executeRequest src tag code run) := ((hr _ touched).respond _).remember src _
  unfold State.takeRequest
  dsimp only
  split
  · split
    · exact .ite _ (touched.respond _) executed
    · exact executed
  · exact touched.respond _

theorem State.RunsTo.deliver (h : s.RunsTo t) (src : Station) (tag code : Byte) {run : State → Reply}
    (hr : ∀ u : State, s.RunsTo u → s.RunsTo (run u).state) : s.RunsTo (t.deliver src tag code run) :=
  .ite _ (.ite _ (h.takeRequest src tag code hr) (h.count _)) h

theorem State.RunsTo.takePayload (h : s.RunsTo t) (src : Station) (tag : Byte) (payload : List Byte) :
    s.RunsTo (t.takePayload src tag payload) := by
  unfold State.takePayload
  split
  · exact h.takeRequest src tag _ fun _ k => k.runRequest _ src
  · exact h.takeRequest src tag _ fun _ k => k

/-! ### The container unit's steps (R84) -/

theorem State.RunsTo.settle (h : s.RunsTo t) (m : Fin 8) (x : MsgOutcome) : s.RunsTo (t.settle m x) :=
  h.still (t.settle_pending m x) (t.settle_now m x) (t.settle_sent m x)

theorem State.RunsTo.joinInbound (h : s.RunsTo t) (f : ContainerFrame) (broadcast : Bool) :
    s.RunsTo (t.joinInbound f broadcast) := h

theorem State.RunsTo.outcomeStep (h : s.RunsTo t) (i : Fin 8) (f : ContainerFrame) : s.RunsTo (t.outcomeStep i f).state := by
  unfold State.outcomeStep
  split
  · exact h
  · split
    · exact h
    · exact h.settle _ _

theorem State.RunsTo.stripStep (h : s.RunsTo t) (f : ContainerFrame) : s.RunsTo (t.stripStep f).state := by
  unfold State.stripStep
  split
  · exact h.count _
  · exact h

theorem State.RunsTo.deliveryStep (h : s.RunsTo t) (f : ContainerFrame) : s.RunsTo (t.deliveryStep f).state := by
  unfold State.deliveryStep
  split
  · split
    · split
      · exact h.takePayload _ _ _
      · exact h.count _
    · split
      · split
        · exact h.joinInbound f _
        · exact h.count _
      · exact h.count _
  · exact h

theorem State.RunsTo.broadcastStep (h : s.RunsTo t) (f : ContainerFrame) : s.RunsTo (t.broadcastStep f) :=
  .ite _ (.ite _ (.ite _ (h.joinInbound f _) (h.count _)) (h.count _)) h

theorem State.RunsTo.fillStep (h : s.RunsTo t) (x : TapState) (took : Bool) (i : Fin 8) (f : ContainerFrame) :
    s.RunsTo (t.fillStep x took i f).1 := by
  unfold State.fillStep
  split
  · exact h
  · split
    · split
      · exact h
      · exact h
    · exact h

theorem State.RunsTo.containerSteps (h : s.RunsTo t) (x : TapState) (i : Fin 8) (f : ContainerFrame) :
    s.RunsTo (t.containerSteps x i f).state := by
  have stepped (f2 f3 f4 : ContainerFrame) :
      s.RunsTo ((((t.outcomeStep i f).state.stripStep f2).state.deliveryStep f3).state.broadcastStep f4) :=
    (((h.outcomeStep i f).stripStep f2).deliveryStep f3).broadcastStep f4
  unfold State.containerSteps
  dsimp only
  split
  · exact stepped _ _ _
  · exact (stepped _ _ _).fillStep x _ i _

theorem State.RunsTo.goodContainer (h : s.RunsTo t) (f : ContainerFrame) : s.RunsTo (t.goodContainer f).state := by
  have acted : s.RunsTo (t.actOnContainer f).state := by
    unfold State.actOnContainer
    split
    · exact h.count _
    · split
      · exact h.containerSteps _ _ f
      · exact h
  have defect : s.RunsTo t.orderDefect := h.modTrk _
  unfold State.goodContainer
  dsimp only
  split
  · exact h
  · exact h
  · split
    · exact acted.modTrk _
    · split
      · exact defect.modTrk _
      · exact defect

/-! ### A frame from its beginning to its end -/

theorem State.RunsTo.beginArrival (h : s.RunsTo t) (p : Port) (lead : Lead) : s.RunsTo (t.beginArrival p lead) := by
  have begun := h.modUnit p fun u => { u with arriving := some (t.arrivalOf p lead), discard := t.discardAfter p lead }
  exact .ite _ (.ite _ (begun.modTrk _) begun) begun

theorem State.RunsTo.frameBegins (h : s.RunsTo t) (p : Port) (lead : Lead) : s.RunsTo (t.frameBegins p lead) := by
  unfold State.frameBegins
  split
  · exact h
  · split
    · exact h.beginArrival p _
    · exact .ite _ (h.modUnit p _) h

theorem State.RunsTo.arrived (h : s.RunsTo t) (p : Port) (lead : Lead) : s.RunsTo (t.arrived p lead).1 := by
  unfold State.arrived
  split
  · split
    · exact h
    · exact h.beginArrival p lead
  · exact h.beginArrival p lead

theorem State.RunsTo.countFrame (h : s.RunsTo t) (p : Port) (a : Arriving) (c : Check) : s.RunsTo (t.countFrame p a c) := by
  have counted : s.RunsTo (t.countPort p fun x => x.received c (decide (a.lead = .unknown))) := h.modUnit p _
  exact .ite _ (counted.count _) counted

theorem State.RunsTo.countLost (h : s.RunsTo t) (a : Arriving) (c : Check) : s.RunsTo (t.countLost a c) := .ite _ (h.count _) h

theorem State.RunsTo.forward (h : s.RunsTo t) (a : Arriving) (x : SentContent) (written restarts : Bool) :
    s.RunsTo (t.forward a x written restarts) := by
  unfold State.forward
  split
  · exact h.sendOut _ _
  · exact h

/-- The end of a frame goes on from `s` where the frame's own effect does. -/
theorem State.RunsTo.receive (h : s.RunsTo t) (p : Port) (f : Frame) (fcs : Option Fcs)
    {act : Arriving → Check → State → Passed} (ha : ∀ a c (u : State), s.RunsTo u → s.RunsTo (act a c u).state) :
    s.RunsTo (t.receive p f fcs act) := by
  unfold State.receive
  split
  · exact h.emit _ _
  · exact (((ha _ _ _ (((h.arrived p f.lead).modUnit p _).countFrame p _ _)).countLost _ _).forward _ _ _ _).windowAdd p _

theorem State.RunsTo.passHeader (h : s.RunsTo t) (p : Port) (f : HeaderFrame) (a : Arriving) (c : Check) :
    s.RunsTo (passHeader p f a c t).state :=
  .ite _ (h.trackHeader p f c) h

theorem State.RunsTo.captureBlock (h : s.RunsTo t) (f : BlockFrame) : s.RunsTo (t.captureBlock f) :=
  h.still (t.captureBlock_pending f) (t.captureBlock_now f) (t.captureBlock_sent f)

theorem State.RunsTo.goodBlock (h : s.RunsTo t) (f : BlockFrame) (capture : Bool) : s.RunsTo (t.goodBlock f capture) := by
  have captured : s.RunsTo (if capture then t.captureBlock f else t) := .ite _ (h.captureBlock f) h
  have defect : s.RunsTo t.orderDefect := h.modTrk _
  unfold State.goodBlock
  dsimp only
  split
  · exact .ite _ (captured.modTrk _) (.ite _ (defect.modTrk _) defect)
  · exact defect
  · exact defect
  · exact h
  · exact h

theorem State.RunsTo.passBlock (h : s.RunsTo t) (p : Port) (f : BlockFrame) (a : Arriving) (c : Check) :
    s.RunsTo (passBlock p f a c t).state :=
  .ite _ (.ite _ (.armGap (.ite _ (h.goodBlock _ _) h.badFrame) p) (h.armGap p)) h

theorem State.RunsTo.passContainer (h : s.RunsTo t) (p : Port) (f : ContainerFrame) (a : Arriving) (c : Check) :
    s.RunsTo (passContainer p f a c t).state := by
  unfold Machine.passContainer State.trackContainer
  dsimp only
  split
  · split
    · split
      · exact (h.goodContainer f).armGap p
      · exact h.badFrame.armGap p
    · exact h.armGap p
  · exact h

theorem State.RunsTo.rollEffect (h : s.RunsTo t) (d : RollDecision) (f : RollFrame) : s.RunsTo (t.rollEffect d f) := by
  cases d with
  | nothing => exact h
  | ownAppend => exact h
  | anonymousAppend => exact h
  | overflow => exact h.count _
  | duplicate => exact h.still t.enterFaulted_pending t.enterFaulted_now t.enterFaulted_sent

theorem State.RunsTo.takeRoll (h : s.RunsTo t) (x : Option RollSample) (f : RollFrame) (c : Check) :
    s.RunsTo (t.takeRoll x f c).1 := by
  unfold State.takeRoll
  split
  · exact h
  · split
    · exact h
    · exact .ite _ (h.rollEffect _ f) h

theorem State.RunsTo.endAtRoll (h : s.RunsTo t) (p : Port) (f : RollFrame) (c : Check) : s.RunsTo (t.endAtRoll p f c) := by
  unfold State.endAtRoll
  split
  · exact .ite _ (.ite _ (h.close _ _) (h.close _ _)) h
  · exact .ite _ h.endRecord h
  · exact h

theorem State.RunsTo.passRoll (h : s.RunsTo t) (p : Port) (f : RollFrame) (a : Arriving) (c : Check) :
    s.RunsTo (passRoll p f a c t).state := by
  unfold Machine.passRoll
  split
  · exact (h.takeRoll a.roll f c).endAtRoll p f c
  · exact h

theorem State.RunsTo.passUnknown (h : s.RunsTo t) (p : Port) (f : UnknownFrame) (a : Arriving) (c : Check) :
    s.RunsTo (passUnknown p f a c t).state :=
  .ite _ (.ite _ ((h.modTrk _).armGap p) (h.armGap p)) h

/-! ### Pins, restarts and the session's idle timer -/

/-- A restart leaves what is the model's own: the queue, the clock and what has left the tap (log 29). -/
theorem State.RunsTo.beginRestart (h : s.RunsTo t) (kind : RestartKind) : s.RunsTo (t.beginRestart kind) := h

theorem State.RunsTo.startHold (h : s.RunsTo t) (kind : RestartKind) : s.RunsTo (t.startHold kind) := .ite _ h h

theorem State.RunsTo.withRst (h : s.RunsTo t) (x : RestartCtl) : s.RunsTo { t with rst := x } := h

theorem State.RunsTo.powerSettled (h : s.RunsTo t) : s.RunsTo t.powerSettled := .ite _ ((h.withRst _).startHold _) h

theorem State.RunsTo.rstNHigh (h : s.RunsTo t) : s.RunsTo t.rstNHigh := .ite _ ((h.withRst _).startHold _) h

theorem State.RunsTo.bypassHoldExpiry (h : s.RunsTo t) (straps : Station) : s.RunsTo (t.bypassHoldExpiry straps) := by
  unfold State.bypassHoldExpiry
  split
  · have sampled (m : Nat) (x : RestartCtl) := (h.reach m).withRst x
    dsimp only
    split
    · exact (((sampled _ _).modUnit .w _).modUnit .e _).setTapState _
    · exact sampled _ _
  · exact h
  · exact h

theorem State.RunsTo.setPinCause (h : s.RunsTo t) (x : Bool) : s.RunsTo (t.setPinCause x) := h

theorem State.RunsTo.stopRise (h : s.RunsTo t) : s.RunsTo t.stopRise :=
  .ite _ ((h.setPinCause true).setTapState _) (h.setPinCause true)

theorem State.RunsTo.stopFall (h : s.RunsTo t) : s.RunsTo t.stopFall :=
  .ite _ ((h.setPinCause false).setTapState _) (h.setPinCause false)

theorem State.RunsTo.withSig (h : s.RunsTo t) (x : Signals) : s.RunsTo { t with sig := x } := h

theorem State.RunsTo.pinChange (h : s.RunsTo t) (k : Fin 8) (level : Bool) : s.RunsTo (t.pinChange k level) :=
  .ite _ (.ite _ ((h.withSig _).raise _) (h.withSig _)) h

theorem State.RunsTo.trigOutFall (h : s.RunsTo t) (k : Fin 8) : s.RunsTo (t.trigOutFall k) := by
  unfold State.trigOutFall
  split
  · exact h
  · exact .ite _ ((h.reach _).withSig _) h

theorem State.RunsTo.pulseEnd (h : s.RunsTo t) (c : Fin 12) : s.RunsTo (t.pulseEnd c) := by
  unfold State.pulseEnd
  split
  · exact (h.reach _).withSig _
  · exact h

theorem State.RunsTo.sessionIdleExpiry (h : s.RunsTo t) : s.RunsTo t.sessionIdleExpiry := by
  unfold State.sessionIdleExpiry
  split
  · split
    · exact (h.reach _).withMgmt _
    · exact h
  · exact h

/-! ### The local port -/

theorem State.RunsTo.withLsp (h : s.RunsTo t) (x : LocalPort) : s.RunsTo { t with lsp := x } := h

theorem State.RunsTo.localError (h : s.RunsTo t) : s.RunsTo t.localError := h

theorem State.RunsTo.endTransaction (h : s.RunsTo t) : s.RunsTo t.endTransaction := by
  unfold State.endTransaction
  split
  · exact h
  · have closed := h.withLsp { t.lsp with txn := none }
    dsimp only
    split
    · exact closed.withRx _
    · exact closed
    · exact closed

theorem State.RunsTo.transactionStart (h : s.RunsTo t) (command : Byte) (a : Word) (words : Nat) :
    s.RunsTo (t.transactionStart command a words) := by
  have ended := h.endTransaction
  exact .ite _ (ended.withLsp _) (.ite _ (ended.withLsp _) (.ite _ (ended.withLsp _) (ended.localError.withLsp _)))

/-- A written word goes on from `s` where its act does. -/
theorem State.RunsTo.lspWrite (h : s.RunsTo t) (a : Word) {act : State → State} (ha : s.RunsTo (act t)) :
    s.RunsTo (t.lspWrite a act) :=
  .ite _ (ha.withLsp _) h

/-- A local action goes on from `s` where its act does. -/
theorem State.RunsTo.localAction (h : s.RunsTo t) {act : State → State} (ha : ∀ u : State, s.RunsTo u → s.RunsTo (act u)) :
    s.RunsTo (t.localAction act) :=
  .ite _ (.ite _ h.localError (ha _ (h.withLsp _))) h

theorem State.RunsTo.finish {x : Acted} (h : s.RunsTo x.state) : s.RunsTo x.finish :=
  .ite _ (h.withLsp _).localError (h.withLsp _)

theorem State.RunsTo.withSched (h : s.RunsTo t) (x : Scheduler) : s.RunsTo { t with sched := x } := h

theorem State.RunsTo.writeMessage (h : s.RunsTo t) (m : Fin 8) (w : Fin 50) (value : Word) :
    s.RunsTo (t.writeMessage m w value) :=
  .ite _ (h.withSched _) h.localError

theorem State.RunsTo.withPub (h : s.RunsTo t) (v : Vector PubBank 4) : s.RunsTo { t with pub := v } := h

theorem State.RunsTo.takeAction (h : s.RunsTo t) (o : BitVec 12) : s.RunsTo (t.takeAction o).state := by
  unfold State.takeAction
  split
  · exact h
  · split
    · exact h.withRx _
    · exact h

theorem State.RunsTo.postAction (h : s.RunsTo t) (o : BitVec 12) : s.RunsTo (t.postAction o).state := by
  unfold State.postAction
  split
  · exact h
  · exact h.withPub _

theorem State.RunsTo.sendAction (h : s.RunsTo t) (o : BitVec 12) : s.RunsTo (t.sendAction o).state := by
  unfold State.sendAction
  split
  · exact h
  · split
    · exact h.withSched _
    · exact h

theorem State.RunsTo.cancelAction (h : s.RunsTo t) (o : BitVec 12) : s.RunsTo (t.cancelAction o).state := by
  unfold State.cancelAction
  split
  · exact h
  · split
    · exact h.withSched _
    · exact h

theorem State.RunsTo.clearAction (h : s.RunsTo t) (o : BitVec 12) : s.RunsTo (t.clearAction o).state := by
  unfold State.clearAction
  split
  · exact h
  · split
    · exact h.withSched _
    · exact h

theorem State.RunsTo.releaseAction (h : s.RunsTo t) : s.RunsTo t.releaseAction.state := by
  unfold State.releaseAction
  split
  · exact h
  · exact h

theorem State.RunsTo.popAction (h : s.RunsTo t) : s.RunsTo t.popAction.state := by
  unfold State.popAction
  split
  · exact h
  · exact h.withSig _

end

/-! ### Every command -/

/-- The command answers a next state, which the tap may have gone on to. -/
def State.Answers (s : State) (c : Instr) : Prop := ∃ t, exec c s = .next t ∧ s.RunsTo t

theorem State.RunsTo.answers {s t : State} {c : Instr} (h : s.RunsTo t) (e : exec c s = .next t) : s.Answers c := ⟨t, e, h⟩

/-- The row of a request is its delivery (R89). -/
theorem State.answers_requestRow (s : State) (r : Request) (dt : Nat) (src : Station) (tag : Byte) :
    s.Answers (requestRow r dt src tag) :=
  (((State.RunsTo.refl s).elapse dt).deliver src tag r.code fun _ k => k.runRequest r src).answers
    (exec_requestRow_eq r dt src tag s)

theorem State.answers (s : State) (c : Instr) : s.Answers c := by
  have h (dt : Nat) := (State.RunsTo.refl s).elapse dt
  cases c with
  | header dt p f fcs => exact ((h dt).receive p _ fcs fun a c _ k => k.passHeader p f a c).answers rfl
  | block dt p f fcs => exact ((h dt).receive p _ fcs fun a c _ k => k.passBlock p f a c).answers rfl
  | container dt p f fcs => exact ((h dt).receive p _ fcs fun a c _ k => k.passContainer p f a c).answers rfl
  | roll dt p f fcs => exact ((h dt).receive p _ fcs fun a c _ k => k.passRoll p f a c).answers rfl
  | echo dt p f fcs => exact ((h dt).receive p _ fcs fun _ c _ k => k.receiveEcho p f c).answers rfl
  | unknownKind dt p f fcs => exact ((h dt).receive p _ fcs fun a c _ k => k.passUnknown p f a c).answers rfl
  | gapTimerExpiry dt => exact (h dt).gapTimerExpiry.answers rfl
  | trainTimerExpiry dt => exact (h dt).trainTimerExpiry.answers rfl
  | lockLost dt p => exact (State.RunsTo.ite _ (h dt) ((h dt).lockLost p)).answers rfl
  | lockGained dt p => exact (State.RunsTo.ite _ (h dt) ((h dt).lockGained p)).answers rfl
  | farEndRecognised dt p sig => exact (State.RunsTo.ite _ (h dt) ((h dt).farEnd p sig)).answers rfl
  | downHoldExpiry dt p => exact (State.RunsTo.ite _ (h dt) ((h dt).downHoldExpiry p)).answers rfl
  | qualificationComplete dt p => exact (State.RunsTo.ite _ (h dt) ((h dt).qualificationComplete p)).answers rfl
  | returnToService dt p => exact (State.RunsTo.ite _ ((h dt).returnService p) (h dt)).answers rfl
  | echoTransmitStart dt p => exact (State.RunsTo.ite _ ((h dt).echoStart p) (h dt)).answers rfl
  | echoReplySent dt p => exact ((h dt).replySent p).answers rfl
  | echoRequestSent dt p => exact ((h dt).requestSent p).answers rfl
  | echoWaitExpiry dt => exact (h dt).echoWaitExpiry.answers rfl
  | sessionIdleExpiry dt => exact (h dt).sessionIdleExpiry.answers rfl
  | stopRise dt => exact (h dt).stopRise.answers rfl
  | stopFall dt => exact (h dt).stopFall.answers rfl
  | triggerPinChange dt k level => exact ((h dt).pinChange k level).answers rfl
  | trigOutFall dt k => exact ((h dt).trigOutFall k).answers rfl
  | pulseEnd dt c => exact ((h dt).pulseEnd c).answers rfl
  | powerOn dt => exact ((h dt).beginRestart _).answers rfl
  | powerSettled dt => exact (h dt).powerSettled.answers rfl
  | rstNLow dt => exact (State.RunsTo.ite _ (h dt) ((h dt).beginRestart _)).answers rfl
  | rstNHigh dt => exact (h dt).rstNHigh.answers rfl
  | remoteRestartBegin dt => exact (State.RunsTo.ite _ ((h dt).beginRestart _) (h dt)).answers rfl
  | bypassHoldExpiry dt straps => exact ((h dt).bypassHoldExpiry straps).answers rfl
  | lspTransactionStart dt command address words =>
    cases command with
    | none => exact ((h dt).withLsp _).answers rfl
    | some x => exact ((h dt).transactionStart x address words).answers rfl
  | lspSelectRelease dt words => exact ((h dt).withLsp _).endTransaction.answers rfl
  | publishWindowWrite dt p w value => exact ((h dt).lspWrite _ ((h dt).withPub _)).answers rfl
  | bankControlWrite dt b value => exact ((h dt).lspWrite _ ((h dt).withRx _)).answers rfl
  | mailboxWrite dt m w value =>
    exact ((h dt).lspWrite _ (act := fun u => u.writeMessage m w value) ((h dt).writeMessage m w value)).answers rfl
  | attentionMaskWrite dt value => exact ((h dt).lspWrite _ (h dt)).answers rfl
  | lspIgnoredWrite dt address => exact ((h dt).lspWrite _ (h dt).localError).answers rfl
  | take dt o => exact ((h dt).localAction fun _ k => (k.takeAction o).finish).answers rfl
  | post dt o => exact ((h dt).localAction fun _ k => (k.postAction o).finish).answers rfl
  | send dt o => exact ((h dt).localAction fun _ k => (k.sendAction o).finish).answers rfl
  | cancel dt o => exact ((h dt).localAction fun _ k => (k.cancelAction o).finish).answers rfl
  | clear dt o => exact ((h dt).localAction fun _ k => (k.clearAction o).finish).answers rfl
  | release dt => exact ((h dt).localAction fun _ k => k.releaseAction.finish).answers rfl
  | popStamp dt => exact ((h dt).localAction fun _ k => k.popAction.finish).answers rfl
  | clearCauses dt o =>
    exact ((h dt).localAction fun u k => State.RunsTo.finish (x := u.clearCausesAction o) k).answers rfl
  | localRestart dt => exact ((h dt).localAction fun _ k => k.beginRestart .local).answers rfl
  | badAction dt code => exact ((h dt).localAction fun u k => State.RunsTo.finish (x := u.reported .badAction) k).answers rfl
  | identify dt src tag => exact s.answers_requestRow .identify dt src tag
  | readStatus dt src tag => exact s.answers_requestRow .readStatus dt src tag
  | readCounters dt src tag g => exact s.answers_requestRow (.readCounters g) dt src tag
  | clearCounters dt src tag g => exact s.answers_requestRow (.clearCounters g) dt src tag
  | readCensus dt src tag x n => exact s.answers_requestRow (.readCensus x n) dt src tag
  | readSubscriptionState dt src tag x n => exact s.answers_requestRow (.readSubscriptionState x n) dt src tag
  | readEntry dt src tag x y i => exact s.answers_requestRow (.readEntry x y i) dt src tag
  | openEdit dt src tag id => exact s.answers_requestRow (.openEdit id) dt src tag
  | stageEntry dt src tag x i y => exact s.answers_requestRow (.stageEntry x i y) dt src tag
  | clearStaged dt src tag x => exact s.answers_requestRow (.clearStaged x) dt src tag
  | commit dt src tag m x => exact s.answers_requestRow (.commit m x) dt src tag
  | abandonEdit dt src tag => exact s.answers_requestRow .abandonEdit dt src tag
  | queryEdit dt src tag => exact s.answers_requestRow .queryEdit dt src tag
  | halt dt src tag => exact s.answers_requestRow .halt dt src tag
  | resume dt src tag => exact s.answers_requestRow .resume dt src tag
  | returnWrap dt src tag p => exact s.answers_requestRow (.returnWrap p) dt src tag
  | pulse dt src tag c => exact s.answers_requestRow (.pulse c) dt src tag
  | restart dt src tag => exact s.answers_requestRow .restart dt src tag
  | segmentTestStart dt src tag p n => exact s.answers_requestRow (.segmentTestStart p n) dt src tag
  | segmentTestResult dt src tag => exact s.answers_requestRow .segmentTestResult dt src tag
  | badCommand dt src tag payload => exact ((h dt).deliver src tag _ fun _ k => k).answers rfl
  | frameBeginsToArrive dt p lead => exact ((h dt).frameBegins p lead).answers rfl

/-- Settles O1 by the two equations of the step. -/
theorem stepRunsTheFrontCommand : Obligations.StepRunsTheFrontCommand := ⟨step_cons, step_nil⟩

/-- Settles O2, command by command. -/
theorem everyCommandAnswers : Obligations.EveryCommandAnswers := by
  intro c s
  obtain ⟨t, hexec, hpending, hnow, l, hsent⟩ := s.answers c
  exact ⟨t, l, hexec, hpending, hnow, hsent⟩

end Sys2Proof.Machine
end
